-- ==== Sys2Proof/Word.lean ====
section
/-! DEFINITION. The word types of the Solben and its plainest data: bytes, words, the fifteen formats of R50 and R70-R79
as names. Their widths and meanings are in Machine/Formats.lean. -/

namespace Sys2Proof

/-- A byte. -/
abbrev Byte := BitVec 8
/-- A 32-bit word: an instruction word, a literal, a destination entry, a control register. -/
abbrev Word := BitVec 32
/-- A 64-bit word: a tag, a header, a lane of a payload as raw bits, an image word. -/
abbrev DWord := BitVec 64

/-- The fifteen formats a slot-format half may name (R62, R70-R79). -/
inductive Fmt where
  | i8 | i16 | i32 | i64 | n8 | n16 | n32 | n64 | f16 | bf16 | f32 | b8 | mxb8 | mxi8 | fx64
  deriving DecidableEq, Repr

/-- The five rounding modes of R84. -/
inductive Round where
  | rne | rtz | rdn | rup | sr
  deriving DecidableEq, Repr

/-- The causes a trap record may carry (R393): the stalled-activation report, the fifteen traps, a hypervisor call. -/
inductive Cause where
  | stalled | illegal | format | page | access | writeOnce | stratum | relFull | spillFull | tagStarve
  | align | lode | claim | arith | priv | data | hcall
  deriving DecidableEq, Repr

/-- The port a token arrives at (R21, R340). -/
inductive Port where
  | packet | stream | loopback | signal
  deriving DecidableEq, Repr

end Sys2Proof
end

