-- ==== Sys2Proof/Syntax.lean ====
section
/-! DEFINITION. Syntax: the payloads that steps carry, and Instr, one constructor per row of spec/opcode_table.json.
An instruction word's constructor holds the select fields its row lists (R40): a SRCA, b SRCB, d DSTA, e DSTB, t TAGACT.
An event's constructor holds what the event is about: an element key el (an EID, or 65,536 + 4 x stack + n for a Fatik
element), a firing id waiting at that element, a stack number sd, a package block number bk, a request, a token. -/

namespace Sys2Proof

/-- A token (R16-R18): routing header, lane-valid word, tag, and one raw 64-bit lane for each lane of the payload. -/
structure Tok where
  hdr : DWord
  valid : BitVec 32
  tag : DWord
  lanes : List DWord
  deriving DecidableEq, Repr

/-- A scale token as received (R166): context, slot, value (R81) and rebuilt tag. -/
structure ScaleTok where
  slot : Nat
  val : BitVec 16
  tag : DWord
  deriving DecidableEq, Repr

/-- What a memory request does (R425): the operation codes of class MREQ that reach a frame. -/
inductive ReqOp where
  | load | store | atomic (op : Byte) (fmt : Fmt) | feset | feclr | pref
  deriving DecidableEq, Repr

/-- A memory request (R425): who waits for the answer (element, firing id, lane), whose request it is, and what it asks. -/
structure Req where
  el : Nat
  id : Nat
  lane : Nat
  ctx : Nat
  part : Nat
  priv : Nat
  ukind : Nat
  op : ReqOp
  bytes : Nat
  addr : Nat
  data : DWord
  cmp : DWord
  oid : Nat
  pred : Option Nat
  /-- an engine request: a copy piece or an indirect lane (R398) -/
  eng : Bool
  /-- translated through a leaf with the full/empty attribute (R197) -/
  fe : Bool
  /-- the memory route that carries it (R219) -/
  route : Nat := 0
  deriving DecidableEq, Repr

/-- An answer to a request (R214, R340): a value with its valid bit, and the failure of a store. -/
structure Ans where
  el : Nat
  id : Nat
  lane : Nat
  val : DWord
  valid : Bool
  fail : Bool
  cause : BitVec 2
  deriving DecidableEq, Repr

/-- The frame a translation reached (R357): a stack and an offset, or a host physical address. -/
inductive Frame where
  | stack (sd off : Nat)
  | host (addr : Nat)
  deriving DecidableEq, Repr

/-- The way of a credit or pool number back to an anchor (R136): the anchor's block, and the element that returns it. -/
structure ToAnchor where
  bk : Nat
  el : Nat
  deriving DecidableEq, Repr

/-- A numbered aperture store (R360). -/
structure ApStore where
  num : Nat
  off : Nat
  val : DWord
  q : Req
  deriving DecidableEq, Repr

/-- A contribution of an edge program (R293, R294): destination key, candidate weight, witness. -/
structure Contrib where
  key : Word
  weight : Word
  src : Word
  edge : Word
  deriving DecidableEq, Repr

/-- An item bound for a stage port (R331): a packet's words, or a tile handle's two words. -/
structure Item where
  part : Nat
  stage : Nat
  port : Nat
  words : List DWord
  /-- the element and firing that wait for its acceptance, if a form sent it -/
  asker : Option (Nat × Nat)
  /-- true when it holds a place of the host bridge -/
  host : Bool
  deriving DecidableEq, Repr

/-- The claim forms as slice operations (R380-R390). -/
inductive GOp where
  | claim | fulfil | abandon | clinv | clqry
  deriving DecidableEq, Repr

/-- A claim-form request at a slice (R378): who asks, the name or entry id, and the handle. -/
structure GReq where
  pkg : Nat
  el : Nat
  id : Nat
  ctx : Nat
  part : Nat
  priv : Nat
  op : GOp
  dig : DWord
  ver : Word
  fn : Word
  eid : DWord
  addr : DWord
  len : Word
  cls : BitVec 4
  set : Nat
  /-- asked over the pod: its name is homed over the packages of the pod (R375) -/
  pod : Bool := false
  deriving DecidableEq, Repr

/-- A Volwin block (R421): 16 flits and the trailer, and the end of the link that it travels to. -/
structure VBlock where
  flits : List (BitVec 256)
  trailer : DWord
  toDie : Bool := false
  deriving DecidableEq, Repr

/-- A scale-out frame (R445): the transport header's fields and the flits. -/
structure ScaleFrame where
  dpkg : Nat
  spkg : Nat
  part : Nat
  cls : Nat
  seq : BitVec 16
  ack : BitVec 16
  flits : List (BitVec 256)
  deriving DecidableEq, Repr

/-- A package root's wave report (R251, R447). -/
structure Report where
  line : Nat
  pkg : Nat
  clean : Bool
  sent : DWord
  recv : DWord
  pass : Option Bool
  deriving DecidableEq, Repr

/-- A register write on its way to its unit (R399, R401): the unit's code, the unit's key, the register number, the
value, and the element and firing that wait for the completion. -/
structure CsrWr where
  unit : Nat
  key : Nat
  num : Nat
  val : DWord
  part : Nat
  priv : Nat
  asker : Option (Nat × Nat)
  deriving DecidableEq, Repr

/-- One constructor per row of the table. -/
inductive Instr where
  /-- ADD (R109): Adds a and b lane by lane, wrapping modulo 2^w and setting OF on overflow. -/
  | add (a : BitVec 5) (b : BitVec 5) (d : BitVec 5) (e : BitVec 5) (t : BitVec 4)
  /-- SUB (R109): Subtracts b from a lane by lane, wrapping and setting OF on overflow. -/
  | sub (a : BitVec 5) (b : BitVec 5) (d : BitVec 5) (e : BitVec 5) (t : BitVec 4)
  /-- MUL (R109): Keeps the low w bits of a × b, setting OF when the exact product is out of range. -/
  | mul (a : BitVec 5) (b : BitVec 5) (d : BitVec 5) (e : BitVec 5) (t : BitVec 4)
  /-- MULH (R109): Gives the high w bits of the 2w-bit product of a and b. -/
  | mulh (a : BitVec 5) (b : BitVec 5) (d : BitVec 5) (e : BitVec 5) (t : BitVec 4)
  /-- MAD (R109): Forms a × b + K15 exactly and wraps the result. -/
  | mad (a : BitVec 5) (b : BitVec 5) (d : BitVec 5) (e : BitVec 5) (t : BitVec 4)
  /-- DIV (R111): Divides a by b truncating towards zero, with fixed results for a zero divisor and overflow. -/
  | div (a : BitVec 5) (b : BitVec 5) (d : BitVec 5) (e : BitVec 5) (t : BitVec 4)
  /-- REM (R111): Gives a − b × DIV(a, b), with fixed results for a zero divisor. -/
  | rem (a : BitVec 5) (b : BitVec 5) (d : BitVec 5) (e : BitVec 5) (t : BitVec 4)
  /-- NEG (R109): Gives 0 − a, wrapping and setting OF where the negation overflows. -/
  | neg (a : BitVec 5) (b : BitVec 5) (d : BitVec 5) (e : BitVec 5) (t : BitVec 4)
  /-- ABS (R109): Gives the magnitude of a, wrapping at the most negative value. -/
  | abs (a : BitVec 5) (b : BitVec 5) (d : BitVec 5) (e : BitVec 5) (t : BitVec 4)
  /-- MIN (R109): Gives the lesser of a and b. -/
  | min (a : BitVec 5) (b : BitVec 5) (d : BitVec 5) (e : BitVec 5) (t : BitVec 4)
  /-- MAX (R109): Gives the greater of a and b. -/
  | max (a : BitVec 5) (b : BitVec 5) (d : BitVec 5) (e : BitVec 5) (t : BitVec 4)
  /-- AND (R109): Gives the bitwise AND of a and b. -/
  | and (a : BitVec 5) (b : BitVec 5) (d : BitVec 5) (e : BitVec 5) (t : BitVec 4)
  /-- OR (R109): Gives the bitwise OR of a and b. -/
  | or (a : BitVec 5) (b : BitVec 5) (d : BitVec 5) (e : BitVec 5) (t : BitVec 4)
  /-- XOR (R109): Gives the bitwise XOR of a and b. -/
  | xor (a : BitVec 5) (b : BitVec 5) (d : BitVec 5) (e : BitVec 5) (t : BitVec 4)
  /-- NOT (R109): Gives the bitwise complement of a. -/
  | not (a : BitVec 5) (b : BitVec 5) (d : BitVec 5) (e : BitVec 5) (t : BitVec 4)
  /-- SHL (R112): Shifts a left by b, giving 0 for shifts of w or more. -/
  | shl (a : BitVec 5) (b : BitVec 5) (d : BitVec 5) (e : BitVec 5) (t : BitVec 4)
  /-- SHR (R112): Shifts a right by b with zeros in. -/
  | shr (a : BitVec 5) (b : BitVec 5) (d : BitVec 5) (e : BitVec 5) (t : BitVec 4)
  /-- SAR (R112): Shifts a right by b with copies of its top bit in. -/
  | sar (a : BitVec 5) (b : BitVec 5) (d : BitVec 5) (e : BitVec 5) (t : BitVec 4)
  /-- ROT (R112): Rotates a left by b mod w. -/
  | rot (a : BitVec 5) (b : BitVec 5) (d : BitVec 5) (e : BitVec 5) (t : BitVec 4)
  /-- CLZ (R109): Counts the leading zero bits of a. -/
  | clz (a : BitVec 5) (b : BitVec 5) (d : BitVec 5) (e : BitVec 5) (t : BitVec 4)
  /-- POPC (R109): Counts the one bits of a. -/
  | popc (a : BitVec 5) (b : BitVec 5) (d : BitVec 5) (e : BitVec 5) (t : BitVec 4)
  /-- BREV (R109): Reverses the bit order of a. -/
  | brev (a : BitVec 5) (b : BitVec 5) (d : BitVec 5) (e : BitVec 5) (t : BitVec 4)
  /-- BFX (R113): Extracts a bit field of a under the control word b. -/
  | bfx (a : BitVec 5) (b : BitVec 5) (d : BitVec 5) (e : BitVec 5) (t : BitVec 4)
  /-- BFI (R113): Inserts the low bits of b into a at the field given by K15. -/
  | bfi (a : BitVec 5) (b : BitVec 5) (d : BitVec 5) (e : BitVec 5) (t : BitVec 4)
  /-- CMP (R114): Compares a and b and gives the condition code 1, 2 or 4. -/
  | cmp (a : BitVec 5) (b : BitVec 5) (d : BitVec 5) (e : BitVec 5) (t : BitVec 4)
  /-- SEL (R115): Takes a where a is valid and b elsewhere, ORing the valid bits. -/
  | sel (a : BitVec 5) (b : BitVec 5) (d : BitVec 5) (e : BitVec 5) (t : BitVec 4)
  /-- ADD_SAT (R61): Adds a and b, clamping to the range and setting SAT. -/
  | addSat (a : BitVec 5) (b : BitVec 5) (d : BitVec 5) (e : BitVec 5) (t : BitVec 4)
  /-- SUB_SAT (R61): Subtracts b from a, clamping to the range and setting SAT. -/
  | subSat (a : BitVec 5) (b : BitVec 5) (d : BitVec 5) (e : BitVec 5) (t : BitVec 4)
  /-- MUL_SAT (R61): Multiplies a and b, clamping to the range and setting SAT. -/
  | mulSat (a : BitVec 5) (b : BitVec 5) (d : BitVec 5) (e : BitVec 5) (t : BitVec 4)
  /-- MAD_SAT (R61): Forms a × b + K15, clamping to the range and setting SAT. -/
  | madSat (a : BitVec 5) (b : BitVec 5) (d : BitVec 5) (e : BitVec 5) (t : BitVec 4)
  /-- NEG_SAT (R61): Negates a, clamping to the range and setting SAT. -/
  | negSat (a : BitVec 5) (b : BitVec 5) (d : BitVec 5) (e : BitVec 5) (t : BitVec 4)
  /-- ABS_SAT (R61): Gives the magnitude of a, clamping to the range and setting SAT. -/
  | absSat (a : BitVec 5) (b : BitVec 5) (d : BitVec 5) (e : BitVec 5) (t : BitVec 4)
  /-- SHL_SAT (R112): Gives a × 2^b clamped to the range, setting SAT if clamped. -/
  | shlSat (a : BitVec 5) (b : BitVec 5) (d : BitVec 5) (e : BitVec 5) (t : BitVec 4)
  /-- FADD (R116): Adds two floats with one rounding in the mode in force. -/
  | fadd (a : BitVec 5) (b : BitVec 5) (d : BitVec 5) (e : BitVec 5) (t : BitVec 4)
  /-- FSUB (R116): Subtracts two floats with one rounding. -/
  | fsub (a : BitVec 5) (b : BitVec 5) (d : BitVec 5) (e : BitVec 5) (t : BitVec 4)
  /-- FMUL (R116): Multiplies two floats with one rounding. -/
  | fmul (a : BitVec 5) (b : BitVec 5) (d : BitVec 5) (e : BitVec 5) (t : BitVec 4)
  /-- FFMA (R116): Forms a × b + K15 with a single rounding. -/
  | ffma (a : BitVec 5) (b : BitVec 5) (d : BitVec 5) (e : BitVec 5) (t : BitVec 4)
  /-- FMIN (R118): Gives the lesser float, −0 below +0, NaN only if both are NaN. -/
  | fmin (a : BitVec 5) (b : BitVec 5) (d : BitVec 5) (e : BitVec 5) (t : BitVec 4)
  /-- FMAX (R118): Gives the greater float, −0 below +0, NaN only if both are NaN. -/
  | fmax (a : BitVec 5) (b : BitVec 5) (d : BitVec 5) (e : BitVec 5) (t : BitVec 4)
  /-- FABS (R118): Gives the magnitude of a float or B8 value. -/
  | fabs (a : BitVec 5) (b : BitVec 5) (d : BitVec 5) (e : BitVec 5) (t : BitVec 4)
  /-- FNEG (R118): Negates a float or B8 value. -/
  | fneg (a : BitVec 5) (b : BitVec 5) (d : BitVec 5) (e : BitVec 5) (t : BitVec 4)
  /-- FCMP (R119): Compares two floats giving code 1, 2, 4 or 8 for unordered. -/
  | fcmp (a : BitVec 5) (b : BitVec 5) (d : BitVec 5) (e : BitVec 5) (t : BitVec 4)
  /-- FDIV (R116): Divides two floats with one rounding. -/
  | fdiv (a : BitVec 5) (b : BitVec 5) (d : BitVec 5) (e : BitVec 5) (t : BitVec 4)
  /-- FSQRT (R117): Gives the correctly rounded square root of a. -/
  | fsqrt (a : BitVec 5) (b : BitVec 5) (d : BitVec 5) (e : BitVec 5) (t : BitVec 4)
  /-- FRCP (R117): Gives the correctly rounded reciprocal of a. -/
  | frcp (a : BitVec 5) (b : BitVec 5) (d : BitVec 5) (e : BitVec 5) (t : BitVec 4)
  /-- FRSQ (R117): Gives the correctly rounded reciprocal square root of a. -/
  | frsq (a : BitVec 5) (b : BitVec 5) (d : BitVec 5) (e : BitVec 5) (t : BitVec 4)
  /-- FEXP2 (R117): Gives the correctly rounded 2^a. -/
  | fexp2 (a : BitVec 5) (b : BitVec 5) (d : BitVec 5) (e : BitVec 5) (t : BitVec 4)
  /-- FLOG2 (R117): Gives the correctly rounded log2 a. -/
  | flog2 (a : BitVec 5) (b : BitVec 5) (d : BitVec 5) (e : BitVec 5) (t : BitVec 4)
  /-- FTANH (R117): Gives the correctly rounded tanh a. -/
  | ftanh (a : BitVec 5) (b : BitVec 5) (d : BitVec 5) (e : BitVec 5) (t : BitVec 4)
  /-- FSIGM (R117): Gives the correctly rounded logistic sigmoid of a. -/
  | fsigm (a : BitVec 5) (b : BitVec 5) (d : BitVec 5) (e : BitVec 5) (t : BitVec 4)
  /-- FCLASS (R120): Gives the class number 0–8 of a float or B8 value. -/
  | fclass (a : BitVec 5) (b : BitVec 5) (d : BitVec 5) (e : BitVec 5) (t : BitVec 4)
  /-- CVT (R121): Converts a from the input format to the output format. -/
  | cvt (a : BitVec 5) (b : BitVec 5) (d : BitVec 5) (e : BitVec 5) (t : BitVec 4)
  /-- CVT_SAT (R121): Converts a, clamping out-of-range values and setting SAT. -/
  | cvtSat (a : BitVec 5) (b : BitVec 5) (d : BitVec 5) (e : BitVec 5) (t : BitVec 4)
  /-- CVT_S (R61): Converts a with stochastic rounding for 8-bit targets. -/
  | cvtS (a : BitVec 5) (b : BitVec 5) (d : BitVec 5) (e : BitVec 5) (t : BitVec 4)
  /-- CVT_N (R61): Converts a with RNE whatever the header's rounding. -/
  | cvtN (a : BitVec 5) (b : BitVec 5) (d : BitVec 5) (e : BitVec 5) (t : BitVec 4)
  /-- QUANT (R122): Forms a × b and rounds once, saturating, to I8, N8 or B8. -/
  | quant (a : BitVec 5) (b : BitVec 5) (d : BitVec 5) (e : BitVec 5) (t : BitVec 4)
  /-- QUANT_S (R61): QUANT with stochastic rounding. -/
  | quantS (a : BitVec 5) (b : BitVec 5) (d : BitVec 5) (e : BitVec 5) (t : BitVec 4)
  /-- QUANT_N (R61): QUANT with RNE rounding. -/
  | quantN (a : BitVec 5) (b : BitVec 5) (d : BitVec 5) (e : BitVec 5) (t : BitVec 4)
  /-- MXPACK (R123): Packs a run into MX blocks, emitting elements and one scale token per block. -/
  | mxpack (a : BitVec 5) (b : BitVec 5) (d : BitVec 5) (e : BitVec 5) (t : BitVec 4)
  /-- MXPACK_S (R61): MXPACK with stochastic rounding. -/
  | mxpackS (a : BitVec 5) (b : BitVec 5) (d : BitVec 5) (e : BitVec 5) (t : BitVec 4)
  /-- MXPACK_N (R61): MXPACK with RNE rounding. -/
  | mxpackN (a : BitVec 5) (b : BitVec 5) (d : BitVec 5) (e : BitVec 5) (t : BitVec 4)
  /-- MXUNPK (R124): Unpacks an MX element run with its matched scales to F16, BF16 or F32. -/
  | mxunpk (a : BitVec 5) (d : BitVec 5) (e : BitVec 5) (t : BitVec 4)
  /-- KEYX (R125): Turns a value into an unsigned key whose order is its value order. -/
  | keyx (a : BitVec 5) (b : BitVec 5) (d : BitVec 5) (e : BitVec 5) (t : BitVec 4)
  /-- VSUM (R126): Sums the valid lanes of a run over the fixed tree into a scalar. -/
  | vsum (a : BitVec 5) (b : BitVec 5) (d : BitVec 5) (e : BitVec 5) (t : BitVec 4)
  /-- VMAX (R126): Takes the greatest valid lane of a run over the fixed tree. -/
  | vmax (a : BitVec 5) (b : BitVec 5) (d : BitVec 5) (e : BitVec 5) (t : BitVec 4)
  /-- VMIN (R126): Takes the least valid lane of a run over the fixed tree. -/
  | vmin (a : BitVec 5) (b : BitVec 5) (d : BitVec 5) (e : BitVec 5) (t : BitVec 4)
  /-- VSCAN (R128): Gives each valid lane the prefix sum of the fixed tree. -/
  | vscan (a : BitVec 5) (b : BitVec 5) (d : BitVec 5) (e : BitVec 5) (t : BitVec 4)
  /-- VPERM (R129): Permutes the lanes of a by the indices in b. -/
  | vperm (a : BitVec 5) (b : BitVec 5) (d : BitVec 5) (e : BitVec 5) (t : BitVec 4)
  /-- VSPLAT (R130): Emits a run of b lanes each holding the scalar a. -/
  | vsplat (a : BitVec 5) (b : BitVec 5) (d : BitVec 5) (e : BitVec 5) (t : BitVec 4)
  /-- VPACK (R131): Compacts the valid lanes of a to the low lanes. -/
  | vpack (a : BitVec 5) (b : BitVec 5) (d : BitVec 5) (e : BitVec 5) (t : BitVec 4)
  /-- VUNPK (R131): Spreads packed lanes of a to the lanes where mask b is non-zero. -/
  | vunpk (a : BitVec 5) (b : BitVec 5) (d : BitVec 5) (e : BitVec 5) (t : BitVec 4)
  /-- VMASK (R132): Emits a with its valid word ANDed with the non-zero lanes of b. -/
  | vmask (a : BitVec 5) (b : BitVec 5) (d : BitVec 5) (e : BitVec 5) (t : BitVec 4)
  /-- VCOUNT (R127): Counts the valid lanes of a into a scalar. -/
  | vcount (a : BitVec 5) (b : BitVec 5) (d : BitVec 5) (e : BitVec 5) (t : BitVec 4)
  /-- SW (R143): Steers the lanes of a to DSTA or DSTB by the mask b. -/
  | sw (a : BitVec 5) (b : BitVec 5) (d : BitVec 5) (e : BitVec 5) (t : BitVec 4)
  /-- MRG (R144): Passes each token that reaches either side on by itself. -/
  | mrg (d : BitVec 5) (e : BitVec 5) (t : BitVec 4)
  /-- GATE (R143): Emits a masked by b to both destinations, or nothing. -/
  | gate (a : BitVec 5) (b : BitVec 5) (d : BitVec 5) (e : BitVec 5) (t : BitVec 4)
  /-- FAN (R145): Emits a to DSTA, DSTB and each entry named by a bit of b. -/
  | fan (a : BitVec 5) (b : BitVec 5) (d : BitVec 5) (e : BitVec 5) (t : BitVec 4)
  /-- MOV (R143): Emits a to both destinations. -/
  | mov (a : BitVec 5) (b : BitVec 5) (d : BitVec 5) (e : BitVec 5) (t : BitVec 4)
  /-- SINK (R143): Consumes its tokens and emits nothing. -/
  | sink (a : BitVec 5) (b : BitVec 5) (t : BitVec 4)
  /-- EXIT (R141): Fires exit b of the activation with value a. -/
  | exit (a : BitVec 5) (b : BitVec 5) (t : BitVec 4)
  /-- CSW (R160): Asks the anchor to drain context FROM and activate context TO. -/
  | csw (a : BitVec 5) (b : BitVec 5) (d : BitVec 5) (e : BitVec 5) (t : BitVec 4)
  /-- TRIG (R143): Emits b with a's valid word once a arrives. -/
  | trig (a : BitVec 5) (b : BitVec 5) (d : BitVec 5) (e : BitVec 5) (t : BitVec 4)
  /-- DELAY (R146): Places a in the delay line to be emitted b cycles after issue. -/
  | delay (a : BitVec 5) (b : BitVec 5) (d : BitVec 5) (e : BitVec 5) (t : BitVec 4)
  /-- ENTER (R147): Takes a level credit and pushes a tag field holding b. -/
  | enter (a : BitVec 5) (b : BitVec 5) (d : BitVec 5) (e : BitVec 5)
  /-- LEAVE (R147): Pops the inner tag field and returns its level credit. -/
  | leave (a : BitVec 5) (b : BitVec 5) (d : BitVec 5) (e : BitVec 5)
  /-- SPAWN (R147): Takes a pool number, pushes it, and emits it to DSTB. -/
  | spawn (a : BitVec 5) (b : BitVec 5) (d : BitVec 5) (e : BitVec 5)
  /-- RETN (R147): Pops the inner field and returns it to the tag pool. -/
  | retn (a : BitVec 5) (b : BitVec 5) (d : BitVec 5) (e : BitVec 5)
  /-- TGET (R147): Emits tag field Fj, with j from b. -/
  | tget (a : BitVec 5) (b : BitVec 5) (d : BitVec 5) (e : BitVec 5)
  /-- TSET (R147): Sets the inner tag field to b and emits a. -/
  | tset (a : BitVec 5) (b : BitVec 5) (d : BitVec 5) (e : BitVec 5)
  /-- RENM (R147): Sets tag field Fj to a, with j from b. -/
  | renm (a : BitVec 5) (b : BitVec 5) (d : BitVec 5) (e : BitVec 5)
  /-- LOOP (R148): Takes a level credit and starts the generator over trip count a in chunks of b. -/
  | loop (a : BitVec 5) (b : BitVec 5) (d : BitVec 5) (e : BitVec 5) (t : BitVec 4)
  /-- SLOOP (R148): Starts a generator over the set bits of a combined bit vector. -/
  | sloop (a : BitVec 5) (b : BitVec 5) (d : BitVec 5) (e : BitVec 5) (t : BitVec 4)
  /-- STREE (R148): Starts a generator over the set leaf bits of a bit tree. -/
  | stree (a : BitVec 5) (b : BitVec 5) (d : BitVec 5) (e : BitVec 5) (t : BitVec 4)
  /-- EOS (R155): Emits an end-of-stream marker of rank b at the firing's F0. -/
  | eos (a : BitVec 5) (b : BitVec 5) (d : BitVec 5) (e : BitVec 5) (t : BitVec 4)
  /-- ZIP (R156): Pairs lanes of its two sides by arrival position. -/
  | zip (d : BitVec 5) (e : BitVec 5) (t : BitVec 4)
  /-- MXMODE (R170): Waits for landing, clears as asked, and turns matrix mode on with a slab format. -/
  | mxmode (a : BitVec 5) (b : BitVec 5) (d : BitVec 5) (e : BitVec 5) (t : BitVec 4)
  /-- WLOAD (R171): Writes one column of the weight store and its scales. -/
  | wload (a : BitVec 5) (b : BitVec 5) (d : BitVec 5) (e : BitVec 5) (t : BitVec 4)
  /-- MMA (R172): Multiplies an activation run into the weight store and accumulates into an ACC row. -/
  | mma (a : BitVec 5) (b : BitVec 5) (d : BitVec 5) (e : BitVec 5) (t : BitVec 4)
  /-- ACCRD (R175): Waits for landing and emits a run of ACC words, optionally clearing them. -/
  | accrd (a : BitVec 5) (b : BitVec 5) (d : BitVec 5) (e : BitVec 5) (t : BitVec 4)
  /-- ACCZ (R175): Waits for landing and zeroes a range of ACC words. -/
  | accz (a : BitVec 5) (b : BitVec 5) (d : BitVec 5) (e : BitVec 5) (t : BitVec 4)
  /-- SCALE (R174): Forwards an MX run together with its scale tokens. -/
  | scale (a : BitVec 5) (b : BitVec 5) (d : BitVec 5) (e : BitVec 5) (t : BitVec 4)
  /-- BURST (R177): Sets the burst count and starts a slab warm-up. -/
  | burst (a : BitVec 5) (b : BitVec 5) (d : BitVec 5) (e : BitVec 5) (t : BitVec 4)
  /-- MXEXIT (R170): Waits for landing and turns matrix mode off. -/
  | mxexit (a : BitVec 5) (b : BitVec 5) (d : BitVec 5) (e : BitVec 5) (t : BitVec 4)
  /-- HIST (R182): Bins the keys matching the prefix by their next byte. -/
  | hist (a : BitVec 5) (b : BitVec 5) (d : BitVec 5) (e : BitVec 5) (t : BitVec 4)
  /-- HSCAN (R183): Finds the bucket holding the k-th key, extends the prefix and clears HIST. -/
  | hscan (a : BitVec 5) (b : BitVec 5) (d : BitVec 5) (e : BitVec 5) (t : BitVec 4)
  /-- RSEL (R184): Keeps the keys better than the prefix and the first SELK ties. -/
  | rsel (a : BitVec 5) (b : BitVec 5) (d : BitVec 5) (e : BitVec 5) (t : BitVec 4)
  /-- MERGEK (R187): Merges two selection lists into the best m entries. -/
  | mergek (d : BitVec 5) (e : BitVec 5) (t : BitVec 4)
  /-- TOPK (R186): Selects the best k keys of a run into a selection list. -/
  | topk (a : BitVec 5) (b : BitVec 5) (d : BitVec 5) (e : BitVec 5) (t : BitVec 4)
  /-- LD (R213): Loads words of element memory at address a. -/
  | ld (a : BitVec 5) (b : BitVec 5) (d : BitVec 5) (e : BitVec 5) (t : BitVec 4)
  /-- ST (R213): Stores a to element memory at address b. -/
  | st (a : BitVec 5) (b : BitVec 5) (d : BitVec 5) (e : BitVec 5) (t : BitVec 4)
  /-- LDX (R217): Loads element memory indexed by the tag's F0 from base a. -/
  | ldx (a : BitVec 5) (b : BitVec 5) (d : BitVec 5) (e : BitVec 5) (t : BitVec 4)
  /-- STX (R217): Stores a to element memory indexed by F0 from base b. -/
  | stx (a : BitVec 5) (b : BitVec 5) (d : BitVec 5) (e : BitVec 5) (t : BitVec 4)
  /-- AGSET (R218): Loads an address generator's descriptor and resets its position. -/
  | agset (a : BitVec 5) (b : BitVec 5) (d : BitVec 5) (e : BitVec 5) (t : BitVec 4)
  /-- LDA (R218): Loads at addresses drawn from address generator Gj. -/
  | lda (a : BitVec 5) (b : BitVec 5) (d : BitVec 5) (e : BitVec 5) (t : BitVec 4)
  /-- STA (R218): Stores at addresses drawn from address generator Gj. -/
  | sta (a : BitVec 5) (b : BitVec 5) (d : BitVec 5) (e : BitVec 5) (t : BitVec 4)
  /-- PREF (R220): Asks the home base die to translate an address into its TLB. -/
  | pref (a : BitVec 5) (b : BitVec 5) (d : BitVec 5) (e : BitVec 5) (t : BitVec 4)
  /-- IWRITE (R221): Writes an I-structure word once, answering its deferred readers. -/
  | iwrite (a : BitVec 5) (b : BitVec 5) (d : BitVec 5) (e : BitVec 5) (t : BitVec 4)
  /-- IREAD (R221): Reads an I-structure word, deferring while it is empty. -/
  | iread (a : BitVec 5) (b : BitVec 5) (d : BitVec 5) (e : BitVec 5) (t : BitVec 4)
  /-- FESET (R221): Makes a presence-guarded word full and answers its readers. -/
  | feset (a : BitVec 5) (b : BitVec 5) (d : BitVec 5) (e : BitVec 5) (t : BitVec 4)
  /-- FECLR (R221): Makes a presence-guarded word empty. -/
  | feclr (a : BitVec 5) (b : BitVec 5) (d : BitVec 5) (e : BitVec 5) (t : BitVec 4)
  /-- GLD (R222): Loads from stacked, stripe or peer memory by virtual address. -/
  | gld (a : BitVec 5) (b : BitVec 5) (d : BitVec 5) (e : BitVec 5) (t : BitVec 4)
  /-- GST (R222): Stores to stacked, stripe or peer memory by virtual address. -/
  | gst (a : BitVec 5) (b : BitVec 5) (d : BitVec 5) (e : BitVec 5) (t : BitVec 4)
  /-- SLD (R219): Loads from a remote window over a stream route. -/
  | sld (a : BitVec 5) (b : BitVec 5) (d : BitVec 5) (e : BitVec 5) (t : BitVec 4)
  /-- SST (R219): Stores into a remote window over a stream route. -/
  | sst (a : BitVec 5) (b : BitVec 5) (d : BitVec 5) (e : BitVec 5) (t : BitVec 4)
  /-- IGATH (R224): Gathers table entries by index in tagged mode on a Fatik element. -/
  | igath (a : BitVec 5) (b : BitVec 5) (d : BitVec 5) (e : BitVec 5) (t : BitVec 4)
  /-- ISCAT (R224): Scatters values to table entries by index in tagged mode. -/
  | iscat (a : BitVec 5) (b : BitVec 5) (d : BitVec 5) (e : BitVec 5) (t : BitVec 4)
  /-- CPY (R225): Sends a copy or zero-fill described by a descriptor to a copy engine. -/
  | cpy (a : BitVec 5) (b : BitVec 5) (d : BitVec 5) (e : BitVec 5) (t : BitVec 4)
  /-- IGATH_ORD (R208): Gathers by index in ordered mode, emitting one run in index order. -/
  | igathOrd (a : BitVec 5) (b : BitVec 5) (d : BitVec 5) (e : BitVec 5) (t : BitVec 4)
  /-- ISCAT_ORD (R208): Scatters by index in ordered mode, lanes in lane order. -/
  | iscatOrd (a : BitVec 5) (b : BitVec 5) (d : BitVec 5) (e : BitVec 5) (t : BitVec 4)
  /-- AADD (R228): Atomically adds a to the word at address word b, returning the old value. -/
  | aadd (a : BitVec 5) (b : BitVec 5) (d : BitVec 5) (e : BitVec 5) (t : BitVec 4)
  /-- AMIN (R228): Atomically keeps the lesser of the word and a. -/
  | amin (a : BitVec 5) (b : BitVec 5) (d : BitVec 5) (e : BitVec 5) (t : BitVec 4)
  /-- AMAX (R228): Atomically keeps the greater of the word and a. -/
  | amax (a : BitVec 5) (b : BitVec 5) (d : BitVec 5) (e : BitVec 5) (t : BitVec 4)
  /-- AAND (R228): Atomically ANDs a into the word. -/
  | aand (a : BitVec 5) (b : BitVec 5) (d : BitVec 5) (e : BitVec 5) (t : BitVec 4)
  /-- AOR (R228): Atomically ORs a into the word. -/
  | aor (a : BitVec 5) (b : BitVec 5) (d : BitVec 5) (e : BitVec 5) (t : BitVec 4)
  /-- AXOR (R228): Atomically XORs a into the word. -/
  | axor (a : BitVec 5) (b : BitVec 5) (d : BitVec 5) (e : BitVec 5) (t : BitVec 4)
  /-- AXCHG (R228): Atomically exchanges the word with a. -/
  | axchg (a : BitVec 5) (b : BitVec 5) (d : BitVec 5) (e : BitVec 5) (t : BitVec 4)
  /-- ACAS (R228): Atomically writes a if the word equals K15. -/
  | acas (a : BitVec 5) (b : BitVec 5) (d : BitVec 5) (e : BitVec 5) (t : BitVec 4)
  /-- AADD_ACQ (R229): AADD as an acquire at its scope. -/
  | aaddAcq (a : BitVec 5) (b : BitVec 5) (d : BitVec 5) (e : BitVec 5) (t : BitVec 4)
  /-- AMIN_ACQ (R229): AMIN as an acquire. -/
  | aminAcq (a : BitVec 5) (b : BitVec 5) (d : BitVec 5) (e : BitVec 5) (t : BitVec 4)
  /-- AMAX_ACQ (R229): AMAX as an acquire. -/
  | amaxAcq (a : BitVec 5) (b : BitVec 5) (d : BitVec 5) (e : BitVec 5) (t : BitVec 4)
  /-- AAND_ACQ (R229): AAND as an acquire. -/
  | aandAcq (a : BitVec 5) (b : BitVec 5) (d : BitVec 5) (e : BitVec 5) (t : BitVec 4)
  /-- AOR_ACQ (R229): AOR as an acquire. -/
  | aorAcq (a : BitVec 5) (b : BitVec 5) (d : BitVec 5) (e : BitVec 5) (t : BitVec 4)
  /-- AXOR_ACQ (R229): AXOR as an acquire. -/
  | axorAcq (a : BitVec 5) (b : BitVec 5) (d : BitVec 5) (e : BitVec 5) (t : BitVec 4)
  /-- AXCHG_ACQ (R229): AXCHG as an acquire. -/
  | axchgAcq (a : BitVec 5) (b : BitVec 5) (d : BitVec 5) (e : BitVec 5) (t : BitVec 4)
  /-- ACAS_ACQ (R229): ACAS as an acquire. -/
  | acasAcq (a : BitVec 5) (b : BitVec 5) (d : BitVec 5) (e : BitVec 5) (t : BitVec 4)
  /-- AADD_REL (R229): AADD as a release, after the context's earlier stores complete. -/
  | aaddRel (a : BitVec 5) (b : BitVec 5) (d : BitVec 5) (e : BitVec 5) (t : BitVec 4)
  /-- AMIN_REL (R229): AMIN as a release. -/
  | aminRel (a : BitVec 5) (b : BitVec 5) (d : BitVec 5) (e : BitVec 5) (t : BitVec 4)
  /-- AMAX_REL (R229): AMAX as a release. -/
  | amaxRel (a : BitVec 5) (b : BitVec 5) (d : BitVec 5) (e : BitVec 5) (t : BitVec 4)
  /-- AAND_REL (R229): AAND as a release. -/
  | aandRel (a : BitVec 5) (b : BitVec 5) (d : BitVec 5) (e : BitVec 5) (t : BitVec 4)
  /-- AOR_REL (R229): AOR as a release. -/
  | aorRel (a : BitVec 5) (b : BitVec 5) (d : BitVec 5) (e : BitVec 5) (t : BitVec 4)
  /-- AXOR_REL (R229): AXOR as a release. -/
  | axorRel (a : BitVec 5) (b : BitVec 5) (d : BitVec 5) (e : BitVec 5) (t : BitVec 4)
  /-- AXCHG_REL (R229): AXCHG as a release. -/
  | axchgRel (a : BitVec 5) (b : BitVec 5) (d : BitVec 5) (e : BitVec 5) (t : BitVec 4)
  /-- ACAS_REL (R229): ACAS as a release. -/
  | acasRel (a : BitVec 5) (b : BitVec 5) (d : BitVec 5) (e : BitVec 5) (t : BitVec 4)
  /-- FENCE (R239): Waits for the context's earlier accesses in scope and emits the failure status. -/
  | fence (a : BitVec 5) (b : BitVec 5) (d : BitVec 5) (e : BitVec 5) (t : BitVec 4)
  /-- ORDJ (R241): Joins two ordering tokens into one. -/
  | ordj (a : BitVec 5) (b : BitVec 5) (d : BitVec 5) (e : BitVec 5) (t : BitVec 4)
  /-- BARW (R248): Arrives at a barrier line and waits for the release of the phase. -/
  | barw (a : BitVec 5) (b : BitVec 5) (d : BitVec 5) (e : BitVec 5) (t : BitVec 4)
  /-- BARA (R248): Arrives at a barrier line without waiting. -/
  | bara (a : BitVec 5) (b : BitVec 5) (d : BitVec 5) (e : BitVec 5) (t : BitVec 4)
  /-- QWAIT (R252): Waits for the next quiescence declaration on a line. -/
  | qwait (a : BitVec 5) (b : BitVec 5) (d : BitVec 5) (e : BitVec 5) (t : BitVec 4)
  /-- LODEQ (R254): Reads a Lode line's status word, optionally starting waves. -/
  | lodeq (a : BitVec 5) (b : BitVec 5) (d : BitVec 5) (e : BitVec 5) (t : BitVec 4)
  /-- RBIND (R275): Binds a relation descriptor, clears its members and inserts its initial tuples. -/
  | rbind (a : BitVec 5) (b : BitVec 5) (d : BitVec 5) (e : BitVec 5) (t : BitVec 4)
  /-- RULE (R276): Starts a scan of the member's DELTA entries, or lost entries. -/
  | rule (a : BitVec 5) (b : BitVec 5) (d : BitVec 5) (e : BitVec 5) (t : BitVec 4)
  /-- TINS (R278): Inserts the head derived from its parents at the head's home. -/
  | tins (a : BitVec 5) (b : BitVec 5) (d : BitVec 5) (e : BitVec 5) (t : BitVec 4)
  /-- TPROBE (R277): Joins a reference with the OLD live entries of a target relation. -/
  | tprobe (a : BitVec 5) (b : BitVec 5) (d : BitVec 5) (e : BitVec 5) (t : BitVec 4)
  /-- TPROBE_D (R277): Joins with live OLD and DELTA entries. -/
  | tprobeD (a : BitVec 5) (b : BitVec 5) (d : BitVec 5) (e : BitVec 5) (t : BitVec 4)
  /-- TPROBE_ALL (R277): Joins with every used entry. -/
  | tprobeAll (a : BitVec 5) (b : BitVec 5) (d : BitVec 5) (e : BitVec 5) (t : BitVec 4)
  /-- TNOT (R277): Looks up the full key in a closed relation, emitting the live entry or none. -/
  | tnot (a : BitVec 5) (b : BitVec 5) (d : BitVec 5) (e : BitVec 5) (t : BitVec 4)
  /-- ROUND (R280): Advances the round counter of every member of a relation. -/
  | round (a : BitVec 5) (b : BitVec 5) (d : BitVec 5) (e : BitVec 5) (t : BitVec 4)
  /-- FIXQ (R281): Waits for quiescence and then tests a stratum for its fixed point on a change line. -/
  | fixq (a : BitVec 5) (b : BitVec 5) (d : BitVec 5) (e : BitVec 5) (t : BitVec 4)
  /-- RCLOSE (R282): Retracts suspects and closes a relation, or reopens it. -/
  | rclose (a : BitVec 5) (b : BitVec 5) (d : BitVec 5) (e : BitVec 5) (t : BitVec 4)
  /-- TDEL (R279): Retracts an entry, or marks a head suspect. -/
  | tdel (a : BitVec 5) (b : BitVec 5) (d : BitVec 5) (e : BitVec 5) (t : BitVec 4)
  /-- TREDR (R276): Starts a scan of every live entry of the member's partition. -/
  | tredr (a : BitVec 5) (b : BitVec 5) (d : BitVec 5) (e : BitVec 5) (t : BitVec 4)
  /-- TGRAD (R283): Walks witnesses back from a tuple, depositing gradients into FX64 slots. -/
  | tgrad (a : BitVec 5) (b : BitVec 5) (d : BitVec 5) (e : BitVec 5) (t : BitVec 4)
  /-- TWIT (R284): Reads an entry's witness, status and weight. -/
  | twit (a : BitVec 5) (b : BitVec 5) (d : BitVec 5) (e : BitVec 5) (t : BitVec 4)
  /-- EPROG (R296): Runs one round of an edge program in PUSH or PULL mode. -/
  | eprog (a : BitVec 5) (b : BitVec 5) (d : BitVec 5) (e : BitVec 5) (t : BitVec 4)
  /-- EDENS (R298): Measures frontier density and chooses the next mode. -/
  | edens (a : BitVec 5) (b : BitVec 5) (d : BitVec 5) (e : BitVec 5) (t : BitVec 4)
  /-- EMODE (R299): Sets an edge program's REQ and mode. -/
  | emode (a : BitVec 5) (b : BitVec 5) (d : BitVec 5) (e : BitVec 5) (t : BitVec 4)
  /-- NAME (R373): Starts a name or folds argument lanes into its digest. -/
  | name (a : BitVec 5) (b : BitVec 5) (d : BitVec 5) (e : BitVec 5) (t : BitVec 4)
  /-- CLAIM (R380): Presents a name to the Geode, becoming maker, waiter or holder. -/
  | claim (a : BitVec 5) (b : BitVec 5) (d : BitVec 5) (e : BitVec 5) (t : BitVec 4)
  /-- FULFIL (R383): Publishes a handle for a MAKING entry and answers its waiters. -/
  | fulfil (a : BitVec 5) (b : BitVec 5) (d : BitVec 5) (e : BitVec 5) (t : BitVec 4)
  /-- ABANDON (R384): Hands a MAKING entry to its oldest waiter or frees it. -/
  | abandon (a : BitVec 5) (b : BitVec 5) (d : BitVec 5) (e : BitVec 5) (t : BitVec 4)
  /-- CLINV (R389): Invalidates DONE entries by function id and version range. -/
  | clinv (a : BitVec 5) (b : BitVec 5) (d : BitVec 5) (e : BitVec 5) (t : BitVec 4)
  /-- CLQRY (R390): Reads a name's entry without changing it. -/
  | clqry (a : BitVec 5) (b : BitVec 5) (d : BitVec 5) (e : BitVec 5) (t : BitVec 4)
  /-- TASK (R336): Enqueues a task packet image at port 0 of its stage. -/
  | task (a : BitVec 5) (b : BitVec 5) (d : BitVec 5) (e : BitVec 5) (t : BitVec 4)
  /-- TILE (R336): Enqueues a tile handle at a tile port of a stage. -/
  | tile (a : BitVec 5) (b : BitVec 5) (d : BitVec 5) (e : BitVec 5) (t : BitVec 4)
  /-- STAGEQ (R336): Queries a stage's status, or ends a live firing and sends its successors. -/
  | stageq (a : BitVec 5) (b : BitVec 5) (d : BitVec 5) (e : BitVec 5) (t : BitVec 4)
  /-- TRAP (R403): Raises the cause in b with a as information word. -/
  | trap (a : BitVec 5) (b : BitVec 5) (d : BitVec 5) (e : BitVec 5) (t : BitVec 4)
  /-- RESUME (R404): Answers a trapped set so that it retries or completes. -/
  | resume (a : BitVec 5) (b : BitVec 5) (d : BitVec 5) (e : BitVec 5) (t : BitVec 4)
  /-- DISCARD (R404): Answers a trapped set so that it is dropped or completed without effect. -/
  | discard (a : BitVec 5) (b : BitVec 5) (d : BitVec 5) (e : BitVec 5) (t : BitVec 4)
  /-- KILL (R405): Ends a context in every block of the partition in this package. -/
  | kill (a : BitVec 5) (b : BitVec 5) (d : BitVec 5) (e : BitVec 5) (t : BitVec 4)
  /-- CSRR (R401): Reads a control register named by a CSR address. -/
  | csrr (a : BitVec 5) (b : BitVec 5) (d : BitVec 5) (e : BitVec 5) (t : BitVec 4)
  /-- CSRW (R401): Writes a control register named by a CSR address. -/
  | csrw (a : BitVec 5) (b : BitVec 5) (d : BitVec 5) (e : BitVec 5) (t : BitVec 4)
  /-- HCALL (R406): Sends a hypervisor call record to Bedrock and waits for its answer. -/
  | hcall (a : BitVec 5) (b : BitVec 5) (d : BitVec 5) (e : BitVec 5) (t : BitVec 4)
  /-- CFGLD (R162): Loads the images named in a load table into resident slots. -/
  | cfgld (a : BitVec 5) (b : BitVec 5) (d : BitVec 5) (e : BitVec 5) (t : BitVec 4)
  /-- SAVE (R348): Stops, drains and writes a block's state into a save area. -/
  | save (a : BitVec 5) (b : BitVec 5) (d : BitVec 5) (e : BitVec 5) (t : BitVec 4)
  /-- RESTORE (R352): Writes a saved block state back and restarts the block. -/
  | restore (a : BitVec 5) (b : BitVec 5) (d : BitVec 5) (e : BitVec 5) (t : BitVec 4)
  /-- CFGFL (R408): Evicts a context, or all other contexts, from every element of the partition. -/
  | cfgfl (a : BitVec 5) (b : BitVec 5) (d : BitVec 5) (e : BitVec 5) (t : BitVec 4)
  /-- PGMIG (R408): Moves a page to a new frame under write protection. -/
  | pgmig (a : BitVec 5) (b : BitVec 5) (d : BitVec 5) (e : BitVec 5) (t : BitVec 4)
  /-- SCRUB (R410): Returns a block or a base die to its scrubbed state. -/
  | scrub (a : BitVec 5) (b : BitVec 5) (d : BitVec 5) (e : BitVec 5) (t : BitVec 4)
  /-- RETIRE (R409): Starts the retirement of a stack channel. -/
  | retire (a : BitVec 5) (b : BitVec 5) (d : BitVec 5) (e : BitVec 5) (t : BitVec 4)
  /-- ATTEST (R411): Asks the signer for a signed attestation report. -/
  | attest (a : BitVec 5) (b : BitVec 5) (d : BitVec 5) (e : BitVec 5) (t : BitVec 4)
  /-- TOKEN_ARRIVE (R21): A token is received at an element, stamped, and matched or left waiting. -/
  | tokenArrive (el : Nat) (p : Port) (t : Tok)
  /-- FRAME_PROBE_END (R33): A frame probe ends in a hit or a miss, releasing later issue. -/
  | frameProbeEnd (el : Nat)
  /-- CONFIG_MISS_SERVE (R161): The block controller reads the directory, chooses a victim and loads the image. -/
  | configMissServe (el ctx : Nat)
  /-- MISS_REPLAY (R28): Once a context is resident and active its miss-marked tokens replay as arrivals. -/
  | missReplay (el ctx : Nat)
  /-- CFGLD_ENTRY (R162): One load-table entry loads its image once the target slot is idle. -/
  | cfgldEntry (el id : Nat)
  /-- CONTEXT_EVICT (R408): An element evicts its copy of a context once it is idle. -/
  | contextEvict (el ctx : Nat)
  /-- SIGNAL_RELEASE (R339): A release on the signal channel re-examines the element's QUEUE-parked sets. -/
  | signalRelease (el : Nat)
  /-- DEFER_RELEASE (R198): A base die's release re-examines DEFER-parked loads. -/
  | deferRelease (el : Nat)
  /-- MEMORY_ANSWER (R214): A value or completion answer reaches the issuer and its firing emits. -/
  | memoryAnswer (a : Ans)
  /-- FAULT_ANSWER (R366): A fault answer parks the issuing set and sends the trap record. -/
  | faultAnswer (q : Req) (c : Cause) (info : Word)
  /-- RETRY_ANSWER (R365): A retry answer parks the issuing set under QUEUE. -/
  | retryAnswer (q : Req)
  /-- LEVEL_CREDIT_REQUEST (R136): The anchor grants a level credit or holds the request. -/
  | levelCreditRequest (bk el id ctx lvl : Nat)
  /-- POOL_REQUEST (R136): The anchor grants the lowest fitting pool number or holds the request. -/
  | poolRequest (bk el id ctx wid : Nat)
  /-- LEVEL_CREDIT_RETURN (R138): A returned credit raises the counter and grants the oldest held request. -/
  | levelCreditReturn (way : ToAnchor) (ctx lvl : Nat)
  /-- POOL_RETURN (R138): A returned pool number is freed and may grant a held request. -/
  | poolReturn (way : ToAnchor) (ctx num : Nat)
  /-- GRANT_ARRIVE (R137): A grant reaches the element and the requesting firing retires. -/
  | grantArrive (el id num : Nat)
  /-- CSW_REQUEST (R160): The anchor judges a CSW's privilege and starts its drain. -/
  | cswRequest (bk el id : Nat)
  /-- REGION_WAVE (R253): The anchor samples every block of the region and may declare quiescence. -/
  | regionWave (bk : Nat)
  /-- LOOP_GENERATOR_EMIT (R148): The loop generator emits its next iteration token or its count. -/
  | loopGeneratorEmit (el : Nat)
  /-- DELAY_DUE (R146): A token in the delay line reaches its due cycle and is emitted. -/
  | delayDue (el : Nat)
  /-- SCALE_TOKEN_ARRIVE (R167): A scale token takes a scale-store entry and may complete a set waiting for scales. -/
  | scaleTokenArrive (el : Nat) (t : ScaleTok)
  /-- GROUP_LANDING (R177): A computed MMA group writes its ACC words four cycles later. -/
  | groupLanding (el : Nat)
  /-- WARMUP_DONE (R177): A BURST-started warm-up completes and the slab is warm. -/
  | warmupDone (el : Nat)
  /-- BURST_TIMEOUT (R177): With no MMA for 64 cycles the burst count clears and the slab goes cold. -/
  | burstTimeout (el : Nat)
  /-- SLAB_COOL (R177): Nine cycles after the last group the idle slab becomes cold. -/
  | slabCool (el : Nat)
  /-- ROUTE_SETUP (R203): The first send on a route sets up its path. -/
  | routeSetup (el route : Nat)
  /-- ROUTE_ACCESS (R219): An access arriving over a route acts on its window at the destination. -/
  | routeAccess (dst win : Nat) (q : Req)
  /-- STRIPE_ACCESS (R204): A stripe access is performed at its member element. -/
  | stripeAccess (q : Req)
  /-- RMW_COMPLETE (R230): An atomic leaves the write stage, writes and answers. -/
  | rmwComplete (el : Nat)
  /-- WAVE_RELEASE (R227): A store-buffer access is released once its wave predecessor allows. -/
  | waveRelease (bk : Nat)
  /-- INDIRECT_STREAM_COMMAND (R208): A Fatik element takes an indirect stream request into a command place. -/
  | indirectStreamCommand (el id : Nat)
  /-- INDIRECT_LANE_COMPLETE (R208): A gather or scatter lane completes and is emitted or counted. -/
  | indirectLaneComplete (el id lane : Nat)
  /-- COPY_PIECE_COMPLETE (R225): A copy piece completes at its home stack. -/
  | copyPieceComplete (el id piece : Nat)
  /-- LODE_WAVE (R250): One pass of a QUIET line samples its taps and counts clean waves. -/
  | lodeWave (n : Nat)
  /-- BARRIER_RELEASE (R247): The last arrival's release advances Φ and reaches every tap. -/
  | barrierRelease (n : Nat)
  /-- POD_WAVE (R251): The pod root collects package reports and may declare pod quiescence. -/
  | podWave (n : Nat)
  /-- FIXQ_PASS (R281): A FIXQ runs one pass on its change line after the declaration. -/
  | fixqPass (el id : Nat)
  /-- RELATION_SCAN_VISIT (R276): A scan header visits one slot and emits its reference if it qualifies. -/
  | relationScanVisit (el id : Nat)
  /-- RELATION_SWEEP_STEP (R271): A member's background sweep restamps visited entries. -/
  | relationSweepStep (el win : Nat)
  /-- TUPLE_INSERT_AT_HOME (R278): An insert reads the parents and writes the head at its home. -/
  | tupleInsertAtHome (el id : Nat)
  /-- TUPLE_DELETE_AT_HOME (R279): A delete retracts or suspects the entry at its home. -/
  | tupleDeleteAtHome (el id : Nat)
  /-- PROBE_AT_HOME (R277): A probe reads the target chain and emits matching pairs. -/
  | probeAtHome (el id : Nat)
  /-- ROUND_AT_MEMBER (R280): A member advances ROUNDS after its sweep ends and starts a new sweep. -/
  | roundAtMember (el id mem : Nat)
  /-- CLOSE_AT_MEMBER (R282): A member turns suspects into retractions and sets or clears CLOSED. -/
  | closeAtMember (el id mem : Nat)
  /-- RBIND_MEMBER (R275): A member clears its window and takes the relation's initial tuples. -/
  | rbindMember (el id mem : Nat)
  /-- GRADIENT_STEP (R283): One step of a gradient walk reads an entry and recurses or deposits. -/
  | gradientStep (el id : Nat)
  /-- PUSH_SOURCE_VISIT (R296): A PUSH member visits a DELTA source and sends contributions. -/
  | pushSourceVisit (el id mem : Nat)
  /-- PULL_VERTEX_VISIT (R296): A PULL member gathers the best contribution into one vertex. -/
  | pullVertexVisit (el id mem : Nat)
  /-- EDGE_CONTRIBUTION_COMBINE (R294): A contribution is combined into its destination entry. -/
  | edgeContributionCombine (el id : Nat) (c : Contrib)
  /-- EDENS_COUNT (R298): A member counts its frontier's out-degrees for EDENS. -/
  | edensCount (el id mem : Nat)
  /-- HOST_PACKET_WRITE (R324): The host writes a task packet into a free place of the launch window. -/
  | hostPacketWrite (part off : Nat) (bs : List Byte)
  /-- BRIDGE_FORWARD (R326): The host bridge forwards a packet to its stage anchor after earlier writes complete. -/
  | bridgeForward (part stage : Nat)
  /-- QUEUE_ACCEPT (R331): A stage port accepts an item and stamps it. -/
  | queueAccept (q : Item)
  /-- STAGE_FIRE (R332): The anchor fires its best ready stage, taking each port's head item. -/
  | stageFire (bk : Nat)
  /-- STAGE_ENTRY_SEND (R333): A fired stage sends entry k's token in cycle t + k. -/
  | stageEntrySend (el : Nat) (t : Tok)
  /-- SUCCESSOR_FORWARD (R334): A DONE's successor tile token is forwarded to its successor stage's anchor. -/
  | successorForward (q : Item)
  /-- SAVE_WRITE (R348): A drained block writes its tokens, state and dirty banks to its save area. -/
  | saveWrite (el id : Nat)
  /-- TRANSLATION_REQUEST (R365): A home base die takes a request, probes its TLB and checks or walks. -/
  | translationRequest (sd : Nat) (q : Req)
  /-- PAGE_WALK_LEVEL (R365): A page-table level entry returns and the next level is read or the leaf installed. -/
  | pageWalkLevel (sd : Nat)
  /-- APERTURE_STORE (R360): The table sequencer numbers an aperture store and multicasts it. -/
  | apertureStore (q : Req)
  /-- TABLE_APPLY (R360): A base die applies an aperture store in order, invalidating and restarting walks. -/
  | tableApply (sd : Nat) (st : ApStore)
  /-- APPLY_ACK (R360): Every base die's acknowledgment completes the aperture store. -/
  | applyAck (sd num : Nat)
  /-- APERTURE_LOAD (R359): An aperture load reads the replica in the sequencer's stack. -/
  | apertureLoad (q : Req)
  /-- PEER_ACCESS (R368): A pod-window access is checked and translated at the peer package. -/
  | peerAccess (port : Nat) (q : Req)
  /-- GEODE_SLICE_OPERATION (R382): A Geode slice performs one claim-form request on its set. -/
  | geodeSliceOperation (sd : Nat) (g : GReq)
  /-- CLINV_SET_STEP (R389): A slice invalidates the matching entries of one set. -/
  | clinvSetStep (sd : Nat) (g : GReq)
  /-- CONTEXT_END_NOTICE (R386): A slice removes a dead context's waiters and hands over its entries. -/
  | contextEndNotice (sd pkg part ctx : Nat)
  /-- TRAP_RECORD_DELIVER (R395): A trap record is taken from the sink by the handler context. -/
  | trapRecordDeliver (el : Nat)
  /-- HANDLER_ANSWER_APPLY (R396): A handler answer reaches the element and acts on one parked access. -/
  | handlerAnswerApply (el id : Nat)
  /-- VOLWIN_BLOCK_RECEIVE (R421): A link module receives a block and checks its CRC and acknowledgment. -/
  | volwinBlockReceive (sd md : Nat) (b : VBlock)
  /-- VOLWIN_RETRY_TIMEOUT (R422): ACK stops advancing for 128 UI and the sender resends from the bad block. -/
  | volwinRetryTimeout (sd md : Nat)
  /-- VOLWIN_MESSAGE (R423): A message is taken whole, discarded if malformed, and passed to its class. -/
  | volwinMessage (sd md : Nat) (toDie : Bool) (fl : List (BitVec 256))
  /-- CHANNEL_REQUEST (R433): A channel port queues a request or answers retry. -/
  | channelRequest (sd : Nat) (f : Frame) (q : Req)
  /-- PREDECESSOR_MARK (R433): A predecessor mark releases a request held for its predecessor. -/
  | predecessorMark (sd : Nat) (el oid : Nat)
  /-- CHANNEL_READ_RETURN (R433): A channel read returns its data after Lr cycles. -/
  | channelReadReturn (sd : Nat) (a : Ans)
  /-- REFRESH_DUE (R435): A refresh interval passes and a refresh is owed or forced. -/
  | refreshDue (sd ch : Nat)
  /-- RATE_STEP_DOWN (R434): A channel reaching TDOWN steps down one rate point. -/
  | rateStepDown (sd ch : Nat)
  /-- RATE_STEP_UP (R434): A channel below TUP for 1 ms steps up one point. -/
  | rateStepUp (sd ch : Nat)
  /-- RATE_SWITCH_END (R434): A rate switch ends and the port resumes its queued requests. -/
  | rateSwitchEnd (sd ch : Nat)
  /-- PATROL_STEP (R432): The patrol reads and corrects the next line. -/
  | patrolStep (sd : Nat)
  /-- CHANNEL_RETIREMENT (R436): A base die retires a channel and brings the new mapping into force. -/
  | channelRetirement (sd ch el id : Nat)
  /-- REBUILD_STEP (R437): The rebuild reconstructs the redirected members of one guarded row. -/
  | rebuildStep (sd : Nat)
  /-- GUARD_ZERO_DONE (R429): The zeroing of a guarded region ends and the new V takes effect. -/
  | guardZeroDone (sd n : Nat)
  /-- ENGINE_COMMAND (R439): A Fatik element takes an engine command at slot 0. -/
  | engineCommand (sd n : Nat) (q : Req) (pl : List DWord)
  /-- FATIK_IMAGE_LOAD (R440): A drained Fatik element loads its new image and resumes commands. -/
  | fatikImageLoad (sd n : Nat)
  /-- SCALEOUT_FRAME_RECEIVE (R446): A scale-out port receives a frame in or out of sequence. -/
  | scaleoutFrameReceive (port : Nat) (f : ScaleFrame)
  /-- SCALEOUT_RESEND_TIMEOUT (R446): ACK has not advanced for 2 µs and the sender resends. -/
  | scaleoutResendTimeout (port : Nat)
  /-- SCALEOUT_PORT_DEAD (R446): A port with 64 resends or 100 µs of link fault becomes dead. -/
  | scaleoutPortDead (port : Nat)
  /-- REPORT_FRAME (R447): A package root's wave report reaches the pod root. -/
  | reportFrame (r : Report)
  /-- DECLARE_FRAME (R447): A pod declaration reaches a package root and acts as a release. -/
  | declareFrame (line num : Nat)
  /-- HOST_BAR_ACCESS (R444): A host access through BAR2 is checked and translated as a SYS master. -/
  | hostBarAccess (q : Req)
  /-- RAIL_OUT_OF_TOLERANCE (R441): A supply rail leaving tolerance deasserts PWRGOOD and resets the sequencer. -/
  | railOutOfTolerance (rail : Nat)
  /-- THERMAL_TRIP (R442): A junction at 110 °C asserts THERMTRIP# and stops every clock. -/
  | thermalTrip 
  /-- SUPPLY_DROOP (R442): Local VDD_CORE below 94 % makes the block withhold issue. -/
  | supplyDroop (bk : Nat)
  /-- TEST (R450): With PWRGOOD and RESET# high the sequencer trains links and tests Lode wires. -/
  | test (good : BitVec 24)
  /-- FWLOAD (R450): The sequencer reads the firmware image into the lowest stack. -/
  | fwload 
  /-- FWCHECK (R451): The sequencer checks and measures the firmware image. -/
  | fwcheck 
  /-- FWAPPLY (R450): The sequencer writes base-die settings and loads Fatik images. -/
  | fwapply 
  /-- BDLOAD (R450): The sequencer reads, checks and measures the Bedrock image. -/
  | bdload 
  /-- BDSTART (R450): The sequencer loads Bedrock into block 0 of die 0 at HYP. -/
  | bdstart 
  /-- HANDOVER (R450): The sequencer sends Bedrock its start token and becomes the signer. -/
  | handover 
  /-- SIGNER_CHECK (R452): Signer command OP 1 checks and measures a partition image. -/
  | signerCheck (part : Nat) (img : BitVec 42)
  /-- SIGNER_CLEAR (R452): Signer command OP 2 clears a partition's measurement. -/
  | signerClear (part : Nat)
  /-- ATTEST_REPORT_SIGNED (R411): The signer finishes a report and writes its signature. -/
  | attestReportSigned (el id : Nat)
  /-- REGION_WRITE (R135): A write of BK.REGION rebinds the block and resets anchor counters at the next load. -/
  | regionWrite (w : CsrWr)
  /-- WINDOW_WRITE (R192): A write of EL.WINn sets a window's role, zeroing its header or ignoring faults. -/
  | windowWrite (w : CsrWr)
  /-- AFLAGS_WRITE (R90): A write of EL.AFLAGS clears the flags written as 1. -/
  | aflagsWrite (w : CsrWr)
  /-- SRSTATE_WRITE (R88): A write of EL.SRSTATE seeds the SR state, storing 1 for zero. -/
  | srstateWrite (w : CsrWr)
  /-- LODEEN_WRITE (R245): A write of EL.LODEEN enrolls taps on lines of the element's partition. -/
  | lodeenWrite (w : CsrWr)
  /-- LODE_LINE_WRITE (R255): A write changing a line register resets it and re-examines parked sets. -/
  | lodeLineWrite (w : CsrWr)
  /-- STAGES_WRITE (R327): A write changing BK.STAGES resets every stage's sequence number. -/
  | stagesWrite (w : CsrWr)
  /-- PTROOT_WRITE (R354): A write of BD.PTROOT invalidates the base die's TLB. -/
  | ptrootWrite (w : CsrWr)
  /-- GUARD_WRITE (R429): A write of BD.GUARDn starts zeroing a guarded region or is ignored. -/
  | guardWrite (w : CsrWr)
  /-- RATECFG_WRITE (R434): A write of BD.RATECFG sets thresholds and may step channels down to CAP. -/
  | ratecfgWrite (w : CsrWr)
  /-- FATIK_IMAGE_WRITE (R440): A write of BD.FATIKn stops a Fatik element to load or halt it. -/
  | fatikImageWrite (w : CsrWr)
  /-- CSR_REGISTER_WRITE (R401): A write to a register with no row of its own updates it under its field rules. -/
  | csrRegisterWrite (w : CsrWr)
  /-- POWER_DOWN (R431): An orderly power-down writes back every dirty parity line and lowers the rails in reverse order. -/
  | powerDown 
  /-- LANE_REPAIR (R422): A failing lane of a Volwin module is replaced by a redundant lane, and the module leaves service once no repair lanes remain. -/
  | laneRepair (sd md : Nat)
  /-- COPY_COMMAND (R225): A Fatik element's copy engine takes a CPY request into one of its command places and begins sending its pieces. -/
  | copyCommand (el id : Nat)
  deriving DecidableEq, Repr

end Sys2Proof
end

