-- ==== Sys2Proof/Decode.lean ====
section
/-! DEFINITION. Decoding of instruction words (R40, R60) and, after it, the encoder written from the same table. A word
decodes when its opcode is assigned and it holds the select codes that its form alone admits (MXUNPK R124, MRG R144,
ZIP R156, MERGEK R187, SINK and EXIT R143, the tag forms R147); every other word is rejected. Reserved select and tag
action codes decode: the checks of R51 and R54 judge them. -/

namespace Sys2Proof

/-- SRCA of a word (R40). -/
def fieldA (w : Word) : BitVec 5 := w.extractLsb' 19 5
/-- SRCB of a word (R40). -/
def fieldB (w : Word) : BitVec 5 := w.extractLsb' 14 5
/-- DSTA of a word (R40). -/
def fieldD (w : Word) : BitVec 5 := w.extractLsb' 9 5
/-- DSTB of a word (R40). -/
def fieldE (w : Word) : BitVec 5 := w.extractLsb' 4 5
/-- TAGACT of a word (R40). -/
def fieldT (w : Word) : BitVec 4 := w.extractLsb' 0 4
/-- OP of a word (R40). -/
def fieldOp (w : Word) : Byte := w.extractLsb' 24 8

/-- Does the opcode map assign a form to this opcode (R60)? -/
def assigned (op : Nat) : Bool :=
  [(0x00, 0x20), (0x28, 0x39), (0x40, 0x4B), (0x50, 0x59), (0x60, 0x69), (0x70, 0x76), (0x78, 0x7A), (0x7C, 0x7D), (0x80, 0x8C), (0x90, 0xA4), (0xA8, 0xC5), (0xC8, 0xD5), (0xD8, 0xDA), (0xE0, 0xE5), (0xE8, 0xEA), (0xF0, 0xFE)].any fun r => decide (r.1 ≤ op) && decide (op ≤ r.2)

/-- The instruction a word holds (R40, R60). -/
def decode (w : Word) : Option Instr :=
  match (fieldOp w).toNat with
  | 0x00 => some (.add (fieldA w) (fieldB w) (fieldD w) (fieldE w) (fieldT w))
  | 0x01 => some (.sub (fieldA w) (fieldB w) (fieldD w) (fieldE w) (fieldT w))
  | 0x02 => some (.mul (fieldA w) (fieldB w) (fieldD w) (fieldE w) (fieldT w))
  | 0x03 => some (.mulh (fieldA w) (fieldB w) (fieldD w) (fieldE w) (fieldT w))
  | 0x04 => some (.mad (fieldA w) (fieldB w) (fieldD w) (fieldE w) (fieldT w))
  | 0x05 => some (.div (fieldA w) (fieldB w) (fieldD w) (fieldE w) (fieldT w))
  | 0x06 => some (.rem (fieldA w) (fieldB w) (fieldD w) (fieldE w) (fieldT w))
  | 0x07 => some (.neg (fieldA w) (fieldB w) (fieldD w) (fieldE w) (fieldT w))
  | 0x08 => some (.abs (fieldA w) (fieldB w) (fieldD w) (fieldE w) (fieldT w))
  | 0x09 => some (.min (fieldA w) (fieldB w) (fieldD w) (fieldE w) (fieldT w))
  | 0x0A => some (.max (fieldA w) (fieldB w) (fieldD w) (fieldE w) (fieldT w))
  | 0x0B => some (.and (fieldA w) (fieldB w) (fieldD w) (fieldE w) (fieldT w))
  | 0x0C => some (.or (fieldA w) (fieldB w) (fieldD w) (fieldE w) (fieldT w))
  | 0x0D => some (.xor (fieldA w) (fieldB w) (fieldD w) (fieldE w) (fieldT w))
  | 0x0E => some (.not (fieldA w) (fieldB w) (fieldD w) (fieldE w) (fieldT w))
  | 0x0F => some (.shl (fieldA w) (fieldB w) (fieldD w) (fieldE w) (fieldT w))
  | 0x10 => some (.shr (fieldA w) (fieldB w) (fieldD w) (fieldE w) (fieldT w))
  | 0x11 => some (.sar (fieldA w) (fieldB w) (fieldD w) (fieldE w) (fieldT w))
  | 0x12 => some (.rot (fieldA w) (fieldB w) (fieldD w) (fieldE w) (fieldT w))
  | 0x13 => some (.clz (fieldA w) (fieldB w) (fieldD w) (fieldE w) (fieldT w))
  | 0x14 => some (.popc (fieldA w) (fieldB w) (fieldD w) (fieldE w) (fieldT w))
  | 0x15 => some (.brev (fieldA w) (fieldB w) (fieldD w) (fieldE w) (fieldT w))
  | 0x16 => some (.bfx (fieldA w) (fieldB w) (fieldD w) (fieldE w) (fieldT w))
  | 0x17 => some (.bfi (fieldA w) (fieldB w) (fieldD w) (fieldE w) (fieldT w))
  | 0x18 => some (.cmp (fieldA w) (fieldB w) (fieldD w) (fieldE w) (fieldT w))
  | 0x19 => some (.sel (fieldA w) (fieldB w) (fieldD w) (fieldE w) (fieldT w))
  | 0x1A => some (.addSat (fieldA w) (fieldB w) (fieldD w) (fieldE w) (fieldT w))
  | 0x1B => some (.subSat (fieldA w) (fieldB w) (fieldD w) (fieldE w) (fieldT w))
  | 0x1C => some (.mulSat (fieldA w) (fieldB w) (fieldD w) (fieldE w) (fieldT w))
  | 0x1D => some (.madSat (fieldA w) (fieldB w) (fieldD w) (fieldE w) (fieldT w))
  | 0x1E => some (.negSat (fieldA w) (fieldB w) (fieldD w) (fieldE w) (fieldT w))
  | 0x1F => some (.absSat (fieldA w) (fieldB w) (fieldD w) (fieldE w) (fieldT w))
  | 0x20 => some (.shlSat (fieldA w) (fieldB w) (fieldD w) (fieldE w) (fieldT w))
  | 0x28 => some (.fadd (fieldA w) (fieldB w) (fieldD w) (fieldE w) (fieldT w))
  | 0x29 => some (.fsub (fieldA w) (fieldB w) (fieldD w) (fieldE w) (fieldT w))
  | 0x2A => some (.fmul (fieldA w) (fieldB w) (fieldD w) (fieldE w) (fieldT w))
  | 0x2B => some (.ffma (fieldA w) (fieldB w) (fieldD w) (fieldE w) (fieldT w))
  | 0x2C => some (.fmin (fieldA w) (fieldB w) (fieldD w) (fieldE w) (fieldT w))
  | 0x2D => some (.fmax (fieldA w) (fieldB w) (fieldD w) (fieldE w) (fieldT w))
  | 0x2E => some (.fabs (fieldA w) (fieldB w) (fieldD w) (fieldE w) (fieldT w))
  | 0x2F => some (.fneg (fieldA w) (fieldB w) (fieldD w) (fieldE w) (fieldT w))
  | 0x30 => some (.fcmp (fieldA w) (fieldB w) (fieldD w) (fieldE w) (fieldT w))
  | 0x31 => some (.fdiv (fieldA w) (fieldB w) (fieldD w) (fieldE w) (fieldT w))
  | 0x32 => some (.fsqrt (fieldA w) (fieldB w) (fieldD w) (fieldE w) (fieldT w))
  | 0x33 => some (.frcp (fieldA w) (fieldB w) (fieldD w) (fieldE w) (fieldT w))
  | 0x34 => some (.frsq (fieldA w) (fieldB w) (fieldD w) (fieldE w) (fieldT w))
  | 0x35 => some (.fexp2 (fieldA w) (fieldB w) (fieldD w) (fieldE w) (fieldT w))
  | 0x36 => some (.flog2 (fieldA w) (fieldB w) (fieldD w) (fieldE w) (fieldT w))
  | 0x37 => some (.ftanh (fieldA w) (fieldB w) (fieldD w) (fieldE w) (fieldT w))
  | 0x38 => some (.fsigm (fieldA w) (fieldB w) (fieldD w) (fieldE w) (fieldT w))
  | 0x39 => some (.fclass (fieldA w) (fieldB w) (fieldD w) (fieldE w) (fieldT w))
  | 0x40 => some (.cvt (fieldA w) (fieldB w) (fieldD w) (fieldE w) (fieldT w))
  | 0x41 => some (.cvtSat (fieldA w) (fieldB w) (fieldD w) (fieldE w) (fieldT w))
  | 0x42 => some (.cvtS (fieldA w) (fieldB w) (fieldD w) (fieldE w) (fieldT w))
  | 0x43 => some (.cvtN (fieldA w) (fieldB w) (fieldD w) (fieldE w) (fieldT w))
  | 0x44 => some (.quant (fieldA w) (fieldB w) (fieldD w) (fieldE w) (fieldT w))
  | 0x45 => some (.quantS (fieldA w) (fieldB w) (fieldD w) (fieldE w) (fieldT w))
  | 0x46 => some (.quantN (fieldA w) (fieldB w) (fieldD w) (fieldE w) (fieldT w))
  | 0x47 => some (.mxpack (fieldA w) (fieldB w) (fieldD w) (fieldE w) (fieldT w))
  | 0x48 => some (.mxpackS (fieldA w) (fieldB w) (fieldD w) (fieldE w) (fieldT w))
  | 0x49 => some (.mxpackN (fieldA w) (fieldB w) (fieldD w) (fieldE w) (fieldT w))
  | 0x4A => if fieldB w = 0x1F then some (.mxunpk (fieldA w) (fieldD w) (fieldE w) (fieldT w)) else none
  | 0x4B => some (.keyx (fieldA w) (fieldB w) (fieldD w) (fieldE w) (fieldT w))
  | 0x50 => some (.vsum (fieldA w) (fieldB w) (fieldD w) (fieldE w) (fieldT w))
  | 0x51 => some (.vmax (fieldA w) (fieldB w) (fieldD w) (fieldE w) (fieldT w))
  | 0x52 => some (.vmin (fieldA w) (fieldB w) (fieldD w) (fieldE w) (fieldT w))
  | 0x53 => some (.vscan (fieldA w) (fieldB w) (fieldD w) (fieldE w) (fieldT w))
  | 0x54 => some (.vperm (fieldA w) (fieldB w) (fieldD w) (fieldE w) (fieldT w))
  | 0x55 => some (.vsplat (fieldA w) (fieldB w) (fieldD w) (fieldE w) (fieldT w))
  | 0x56 => some (.vpack (fieldA w) (fieldB w) (fieldD w) (fieldE w) (fieldT w))
  | 0x57 => some (.vunpk (fieldA w) (fieldB w) (fieldD w) (fieldE w) (fieldT w))
  | 0x58 => some (.vmask (fieldA w) (fieldB w) (fieldD w) (fieldE w) (fieldT w))
  | 0x59 => some (.vcount (fieldA w) (fieldB w) (fieldD w) (fieldE w) (fieldT w))
  | 0x60 => some (.sw (fieldA w) (fieldB w) (fieldD w) (fieldE w) (fieldT w))
  | 0x61 => if fieldA w = 0x0 ∧ fieldB w = 0x1 then some (.mrg (fieldD w) (fieldE w) (fieldT w)) else none
  | 0x62 => some (.gate (fieldA w) (fieldB w) (fieldD w) (fieldE w) (fieldT w))
  | 0x63 => some (.fan (fieldA w) (fieldB w) (fieldD w) (fieldE w) (fieldT w))
  | 0x64 => some (.mov (fieldA w) (fieldB w) (fieldD w) (fieldE w) (fieldT w))
  | 0x65 => if fieldD w = 0x1F ∧ fieldE w = 0x1F then some (.sink (fieldA w) (fieldB w) (fieldT w)) else none
  | 0x66 => if fieldD w = 0x1F ∧ fieldE w = 0x1F then some (.exit (fieldA w) (fieldB w) (fieldT w)) else none
  | 0x67 => some (.csw (fieldA w) (fieldB w) (fieldD w) (fieldE w) (fieldT w))
  | 0x68 => some (.trig (fieldA w) (fieldB w) (fieldD w) (fieldE w) (fieldT w))
  | 0x69 => some (.delay (fieldA w) (fieldB w) (fieldD w) (fieldE w) (fieldT w))
  | 0x70 => if fieldT w = 0x0 then some (.enter (fieldA w) (fieldB w) (fieldD w) (fieldE w)) else none
  | 0x71 => if fieldT w = 0x0 then some (.leave (fieldA w) (fieldB w) (fieldD w) (fieldE w)) else none
  | 0x72 => if fieldT w = 0x0 then some (.spawn (fieldA w) (fieldB w) (fieldD w) (fieldE w)) else none
  | 0x73 => if fieldT w = 0x0 then some (.retn (fieldA w) (fieldB w) (fieldD w) (fieldE w)) else none
  | 0x74 => if fieldT w = 0x0 then some (.tget (fieldA w) (fieldB w) (fieldD w) (fieldE w)) else none
  | 0x75 => if fieldT w = 0x0 then some (.tset (fieldA w) (fieldB w) (fieldD w) (fieldE w)) else none
  | 0x76 => if fieldT w = 0x0 then some (.renm (fieldA w) (fieldB w) (fieldD w) (fieldE w)) else none
  | 0x78 => some (.loop (fieldA w) (fieldB w) (fieldD w) (fieldE w) (fieldT w))
  | 0x79 => some (.sloop (fieldA w) (fieldB w) (fieldD w) (fieldE w) (fieldT w))
  | 0x7A => some (.stree (fieldA w) (fieldB w) (fieldD w) (fieldE w) (fieldT w))
  | 0x7C => some (.eos (fieldA w) (fieldB w) (fieldD w) (fieldE w) (fieldT w))
  | 0x7D => if fieldA w = 0x0 ∧ fieldB w = 0x1 then some (.zip (fieldD w) (fieldE w) (fieldT w)) else none
  | 0x80 => some (.mxmode (fieldA w) (fieldB w) (fieldD w) (fieldE w) (fieldT w))
  | 0x81 => some (.wload (fieldA w) (fieldB w) (fieldD w) (fieldE w) (fieldT w))
  | 0x82 => some (.mma (fieldA w) (fieldB w) (fieldD w) (fieldE w) (fieldT w))
  | 0x83 => some (.accrd (fieldA w) (fieldB w) (fieldD w) (fieldE w) (fieldT w))
  | 0x84 => some (.accz (fieldA w) (fieldB w) (fieldD w) (fieldE w) (fieldT w))
  | 0x85 => some (.scale (fieldA w) (fieldB w) (fieldD w) (fieldE w) (fieldT w))
  | 0x86 => some (.burst (fieldA w) (fieldB w) (fieldD w) (fieldE w) (fieldT w))
  | 0x87 => some (.mxexit (fieldA w) (fieldB w) (fieldD w) (fieldE w) (fieldT w))
  | 0x88 => some (.hist (fieldA w) (fieldB w) (fieldD w) (fieldE w) (fieldT w))
  | 0x89 => some (.hscan (fieldA w) (fieldB w) (fieldD w) (fieldE w) (fieldT w))
  | 0x8A => some (.rsel (fieldA w) (fieldB w) (fieldD w) (fieldE w) (fieldT w))
  | 0x8B => if fieldA w = 0x0 ∧ fieldB w = 0x1 then some (.mergek (fieldD w) (fieldE w) (fieldT w)) else none
  | 0x8C => some (.topk (fieldA w) (fieldB w) (fieldD w) (fieldE w) (fieldT w))
  | 0x90 => some (.ld (fieldA w) (fieldB w) (fieldD w) (fieldE w) (fieldT w))
  | 0x91 => some (.st (fieldA w) (fieldB w) (fieldD w) (fieldE w) (fieldT w))
  | 0x92 => some (.ldx (fieldA w) (fieldB w) (fieldD w) (fieldE w) (fieldT w))
  | 0x93 => some (.stx (fieldA w) (fieldB w) (fieldD w) (fieldE w) (fieldT w))
  | 0x94 => some (.agset (fieldA w) (fieldB w) (fieldD w) (fieldE w) (fieldT w))
  | 0x95 => some (.lda (fieldA w) (fieldB w) (fieldD w) (fieldE w) (fieldT w))
  | 0x96 => some (.sta (fieldA w) (fieldB w) (fieldD w) (fieldE w) (fieldT w))
  | 0x97 => some (.pref (fieldA w) (fieldB w) (fieldD w) (fieldE w) (fieldT w))
  | 0x98 => some (.iwrite (fieldA w) (fieldB w) (fieldD w) (fieldE w) (fieldT w))
  | 0x99 => some (.iread (fieldA w) (fieldB w) (fieldD w) (fieldE w) (fieldT w))
  | 0x9A => some (.feset (fieldA w) (fieldB w) (fieldD w) (fieldE w) (fieldT w))
  | 0x9B => some (.feclr (fieldA w) (fieldB w) (fieldD w) (fieldE w) (fieldT w))
  | 0x9C => some (.gld (fieldA w) (fieldB w) (fieldD w) (fieldE w) (fieldT w))
  | 0x9D => some (.gst (fieldA w) (fieldB w) (fieldD w) (fieldE w) (fieldT w))
  | 0x9E => some (.sld (fieldA w) (fieldB w) (fieldD w) (fieldE w) (fieldT w))
  | 0x9F => some (.sst (fieldA w) (fieldB w) (fieldD w) (fieldE w) (fieldT w))
  | 0xA0 => some (.igath (fieldA w) (fieldB w) (fieldD w) (fieldE w) (fieldT w))
  | 0xA1 => some (.iscat (fieldA w) (fieldB w) (fieldD w) (fieldE w) (fieldT w))
  | 0xA2 => some (.cpy (fieldA w) (fieldB w) (fieldD w) (fieldE w) (fieldT w))
  | 0xA3 => some (.igathOrd (fieldA w) (fieldB w) (fieldD w) (fieldE w) (fieldT w))
  | 0xA4 => some (.iscatOrd (fieldA w) (fieldB w) (fieldD w) (fieldE w) (fieldT w))
  | 0xA8 => some (.aadd (fieldA w) (fieldB w) (fieldD w) (fieldE w) (fieldT w))
  | 0xA9 => some (.amin (fieldA w) (fieldB w) (fieldD w) (fieldE w) (fieldT w))
  | 0xAA => some (.amax (fieldA w) (fieldB w) (fieldD w) (fieldE w) (fieldT w))
  | 0xAB => some (.aand (fieldA w) (fieldB w) (fieldD w) (fieldE w) (fieldT w))
  | 0xAC => some (.aor (fieldA w) (fieldB w) (fieldD w) (fieldE w) (fieldT w))
  | 0xAD => some (.axor (fieldA w) (fieldB w) (fieldD w) (fieldE w) (fieldT w))
  | 0xAE => some (.axchg (fieldA w) (fieldB w) (fieldD w) (fieldE w) (fieldT w))
  | 0xAF => some (.acas (fieldA w) (fieldB w) (fieldD w) (fieldE w) (fieldT w))
  | 0xB0 => some (.aaddAcq (fieldA w) (fieldB w) (fieldD w) (fieldE w) (fieldT w))
  | 0xB1 => some (.aminAcq (fieldA w) (fieldB w) (fieldD w) (fieldE w) (fieldT w))
  | 0xB2 => some (.amaxAcq (fieldA w) (fieldB w) (fieldD w) (fieldE w) (fieldT w))
  | 0xB3 => some (.aandAcq (fieldA w) (fieldB w) (fieldD w) (fieldE w) (fieldT w))
  | 0xB4 => some (.aorAcq (fieldA w) (fieldB w) (fieldD w) (fieldE w) (fieldT w))
  | 0xB5 => some (.axorAcq (fieldA w) (fieldB w) (fieldD w) (fieldE w) (fieldT w))
  | 0xB6 => some (.axchgAcq (fieldA w) (fieldB w) (fieldD w) (fieldE w) (fieldT w))
  | 0xB7 => some (.acasAcq (fieldA w) (fieldB w) (fieldD w) (fieldE w) (fieldT w))
  | 0xB8 => some (.aaddRel (fieldA w) (fieldB w) (fieldD w) (fieldE w) (fieldT w))
  | 0xB9 => some (.aminRel (fieldA w) (fieldB w) (fieldD w) (fieldE w) (fieldT w))
  | 0xBA => some (.amaxRel (fieldA w) (fieldB w) (fieldD w) (fieldE w) (fieldT w))
  | 0xBB => some (.aandRel (fieldA w) (fieldB w) (fieldD w) (fieldE w) (fieldT w))
  | 0xBC => some (.aorRel (fieldA w) (fieldB w) (fieldD w) (fieldE w) (fieldT w))
  | 0xBD => some (.axorRel (fieldA w) (fieldB w) (fieldD w) (fieldE w) (fieldT w))
  | 0xBE => some (.axchgRel (fieldA w) (fieldB w) (fieldD w) (fieldE w) (fieldT w))
  | 0xBF => some (.acasRel (fieldA w) (fieldB w) (fieldD w) (fieldE w) (fieldT w))
  | 0xC0 => some (.fence (fieldA w) (fieldB w) (fieldD w) (fieldE w) (fieldT w))
  | 0xC1 => some (.ordj (fieldA w) (fieldB w) (fieldD w) (fieldE w) (fieldT w))
  | 0xC2 => some (.barw (fieldA w) (fieldB w) (fieldD w) (fieldE w) (fieldT w))
  | 0xC3 => some (.bara (fieldA w) (fieldB w) (fieldD w) (fieldE w) (fieldT w))
  | 0xC4 => some (.qwait (fieldA w) (fieldB w) (fieldD w) (fieldE w) (fieldT w))
  | 0xC5 => some (.lodeq (fieldA w) (fieldB w) (fieldD w) (fieldE w) (fieldT w))
  | 0xC8 => some (.rbind (fieldA w) (fieldB w) (fieldD w) (fieldE w) (fieldT w))
  | 0xC9 => some (.rule (fieldA w) (fieldB w) (fieldD w) (fieldE w) (fieldT w))
  | 0xCA => some (.tins (fieldA w) (fieldB w) (fieldD w) (fieldE w) (fieldT w))
  | 0xCB => some (.tprobe (fieldA w) (fieldB w) (fieldD w) (fieldE w) (fieldT w))
  | 0xCC => some (.tprobeD (fieldA w) (fieldB w) (fieldD w) (fieldE w) (fieldT w))
  | 0xCD => some (.tprobeAll (fieldA w) (fieldB w) (fieldD w) (fieldE w) (fieldT w))
  | 0xCE => some (.tnot (fieldA w) (fieldB w) (fieldD w) (fieldE w) (fieldT w))
  | 0xCF => some (.round (fieldA w) (fieldB w) (fieldD w) (fieldE w) (fieldT w))
  | 0xD0 => some (.fixq (fieldA w) (fieldB w) (fieldD w) (fieldE w) (fieldT w))
  | 0xD1 => some (.rclose (fieldA w) (fieldB w) (fieldD w) (fieldE w) (fieldT w))
  | 0xD2 => some (.tdel (fieldA w) (fieldB w) (fieldD w) (fieldE w) (fieldT w))
  | 0xD3 => some (.tredr (fieldA w) (fieldB w) (fieldD w) (fieldE w) (fieldT w))
  | 0xD4 => some (.tgrad (fieldA w) (fieldB w) (fieldD w) (fieldE w) (fieldT w))
  | 0xD5 => some (.twit (fieldA w) (fieldB w) (fieldD w) (fieldE w) (fieldT w))
  | 0xD8 => some (.eprog (fieldA w) (fieldB w) (fieldD w) (fieldE w) (fieldT w))
  | 0xD9 => some (.edens (fieldA w) (fieldB w) (fieldD w) (fieldE w) (fieldT w))
  | 0xDA => some (.emode (fieldA w) (fieldB w) (fieldD w) (fieldE w) (fieldT w))
  | 0xE0 => some (.name (fieldA w) (fieldB w) (fieldD w) (fieldE w) (fieldT w))
  | 0xE1 => some (.claim (fieldA w) (fieldB w) (fieldD w) (fieldE w) (fieldT w))
  | 0xE2 => some (.fulfil (fieldA w) (fieldB w) (fieldD w) (fieldE w) (fieldT w))
  | 0xE3 => some (.abandon (fieldA w) (fieldB w) (fieldD w) (fieldE w) (fieldT w))
  | 0xE4 => some (.clinv (fieldA w) (fieldB w) (fieldD w) (fieldE w) (fieldT w))
  | 0xE5 => some (.clqry (fieldA w) (fieldB w) (fieldD w) (fieldE w) (fieldT w))
  | 0xE8 => some (.task (fieldA w) (fieldB w) (fieldD w) (fieldE w) (fieldT w))
  | 0xE9 => some (.tile (fieldA w) (fieldB w) (fieldD w) (fieldE w) (fieldT w))
  | 0xEA => some (.stageq (fieldA w) (fieldB w) (fieldD w) (fieldE w) (fieldT w))
  | 0xF0 => some (.trap (fieldA w) (fieldB w) (fieldD w) (fieldE w) (fieldT w))
  | 0xF1 => some (.resume (fieldA w) (fieldB w) (fieldD w) (fieldE w) (fieldT w))
  | 0xF2 => some (.discard (fieldA w) (fieldB w) (fieldD w) (fieldE w) (fieldT w))
  | 0xF3 => some (.kill (fieldA w) (fieldB w) (fieldD w) (fieldE w) (fieldT w))
  | 0xF4 => some (.csrr (fieldA w) (fieldB w) (fieldD w) (fieldE w) (fieldT w))
  | 0xF5 => some (.csrw (fieldA w) (fieldB w) (fieldD w) (fieldE w) (fieldT w))
  | 0xF6 => some (.hcall (fieldA w) (fieldB w) (fieldD w) (fieldE w) (fieldT w))
  | 0xF7 => some (.cfgld (fieldA w) (fieldB w) (fieldD w) (fieldE w) (fieldT w))
  | 0xF8 => some (.save (fieldA w) (fieldB w) (fieldD w) (fieldE w) (fieldT w))
  | 0xF9 => some (.restore (fieldA w) (fieldB w) (fieldD w) (fieldE w) (fieldT w))
  | 0xFA => some (.cfgfl (fieldA w) (fieldB w) (fieldD w) (fieldE w) (fieldT w))
  | 0xFB => some (.pgmig (fieldA w) (fieldB w) (fieldD w) (fieldE w) (fieldT w))
  | 0xFC => some (.scrub (fieldA w) (fieldB w) (fieldD w) (fieldE w) (fieldT w))
  | 0xFD => some (.retire (fieldA w) (fieldB w) (fieldD w) (fieldE w) (fieldT w))
  | 0xFE => some (.attest (fieldA w) (fieldB w) (fieldD w) (fieldE w) (fieldT w))
  | _ => none

/-- The instruction at the head of a byte string, its word stored least significant byte first (R8), with the rest. -/
def decodeBytes : List Byte → Option (Instr × List Byte)
  | b0 :: b1 :: b2 :: b3 :: rest => (decode (b3 ++ b2 ++ b1 ++ b0)).map fun i => (i, rest)
  | _ => none

/-- The host's question: the instruction of a table row's bits, laid out in bytes as the image stores them (R45). -/
def decodeTableWord (nbits w : Nat) : Option Instr :=
  let v : Word := BitVec.ofNat 32 (w % 2 ^ nbits)
  (decodeBytes [v.extractLsb' 0 8, v.extractLsb' 8 8, v.extractLsb' 16 8, v.extractLsb' 24 8]).map (·.1)

/-- A word from its six fields (R40). -/
def mkWord (op : Byte) (a b d e : BitVec 5) (t : BitVec 4) : Word := op ++ a ++ b ++ d ++ e ++ t

/-- The word of an instruction; an event has none. -/
def encode (i : Instr) : Option Word :=
  match i with
  | .add a b d e t => some (mkWord 0x00 a b d e t)
  | .sub a b d e t => some (mkWord 0x01 a b d e t)
  | .mul a b d e t => some (mkWord 0x02 a b d e t)
  | .mulh a b d e t => some (mkWord 0x03 a b d e t)
  | .mad a b d e t => some (mkWord 0x04 a b d e t)
  | .div a b d e t => some (mkWord 0x05 a b d e t)
  | .rem a b d e t => some (mkWord 0x06 a b d e t)
  | .neg a b d e t => some (mkWord 0x07 a b d e t)
  | .abs a b d e t => some (mkWord 0x08 a b d e t)
  | .min a b d e t => some (mkWord 0x09 a b d e t)
  | .max a b d e t => some (mkWord 0x0A a b d e t)
  | .and a b d e t => some (mkWord 0x0B a b d e t)
  | .or a b d e t => some (mkWord 0x0C a b d e t)
  | .xor a b d e t => some (mkWord 0x0D a b d e t)
  | .not a b d e t => some (mkWord 0x0E a b d e t)
  | .shl a b d e t => some (mkWord 0x0F a b d e t)
  | .shr a b d e t => some (mkWord 0x10 a b d e t)
  | .sar a b d e t => some (mkWord 0x11 a b d e t)
  | .rot a b d e t => some (mkWord 0x12 a b d e t)
  | .clz a b d e t => some (mkWord 0x13 a b d e t)
  | .popc a b d e t => some (mkWord 0x14 a b d e t)
  | .brev a b d e t => some (mkWord 0x15 a b d e t)
  | .bfx a b d e t => some (mkWord 0x16 a b d e t)
  | .bfi a b d e t => some (mkWord 0x17 a b d e t)
  | .cmp a b d e t => some (mkWord 0x18 a b d e t)
  | .sel a b d e t => some (mkWord 0x19 a b d e t)
  | .addSat a b d e t => some (mkWord 0x1A a b d e t)
  | .subSat a b d e t => some (mkWord 0x1B a b d e t)
  | .mulSat a b d e t => some (mkWord 0x1C a b d e t)
  | .madSat a b d e t => some (mkWord 0x1D a b d e t)
  | .negSat a b d e t => some (mkWord 0x1E a b d e t)
  | .absSat a b d e t => some (mkWord 0x1F a b d e t)
  | .shlSat a b d e t => some (mkWord 0x20 a b d e t)
  | .fadd a b d e t => some (mkWord 0x28 a b d e t)
  | .fsub a b d e t => some (mkWord 0x29 a b d e t)
  | .fmul a b d e t => some (mkWord 0x2A a b d e t)
  | .ffma a b d e t => some (mkWord 0x2B a b d e t)
  | .fmin a b d e t => some (mkWord 0x2C a b d e t)
  | .fmax a b d e t => some (mkWord 0x2D a b d e t)
  | .fabs a b d e t => some (mkWord 0x2E a b d e t)
  | .fneg a b d e t => some (mkWord 0x2F a b d e t)
  | .fcmp a b d e t => some (mkWord 0x30 a b d e t)
  | .fdiv a b d e t => some (mkWord 0x31 a b d e t)
  | .fsqrt a b d e t => some (mkWord 0x32 a b d e t)
  | .frcp a b d e t => some (mkWord 0x33 a b d e t)
  | .frsq a b d e t => some (mkWord 0x34 a b d e t)
  | .fexp2 a b d e t => some (mkWord 0x35 a b d e t)
  | .flog2 a b d e t => some (mkWord 0x36 a b d e t)
  | .ftanh a b d e t => some (mkWord 0x37 a b d e t)
  | .fsigm a b d e t => some (mkWord 0x38 a b d e t)
  | .fclass a b d e t => some (mkWord 0x39 a b d e t)
  | .cvt a b d e t => some (mkWord 0x40 a b d e t)
  | .cvtSat a b d e t => some (mkWord 0x41 a b d e t)
  | .cvtS a b d e t => some (mkWord 0x42 a b d e t)
  | .cvtN a b d e t => some (mkWord 0x43 a b d e t)
  | .quant a b d e t => some (mkWord 0x44 a b d e t)
  | .quantS a b d e t => some (mkWord 0x45 a b d e t)
  | .quantN a b d e t => some (mkWord 0x46 a b d e t)
  | .mxpack a b d e t => some (mkWord 0x47 a b d e t)
  | .mxpackS a b d e t => some (mkWord 0x48 a b d e t)
  | .mxpackN a b d e t => some (mkWord 0x49 a b d e t)
  | .mxunpk a d e t => some (mkWord 0x4A a 0x1F d e t)
  | .keyx a b d e t => some (mkWord 0x4B a b d e t)
  | .vsum a b d e t => some (mkWord 0x50 a b d e t)
  | .vmax a b d e t => some (mkWord 0x51 a b d e t)
  | .vmin a b d e t => some (mkWord 0x52 a b d e t)
  | .vscan a b d e t => some (mkWord 0x53 a b d e t)
  | .vperm a b d e t => some (mkWord 0x54 a b d e t)
  | .vsplat a b d e t => some (mkWord 0x55 a b d e t)
  | .vpack a b d e t => some (mkWord 0x56 a b d e t)
  | .vunpk a b d e t => some (mkWord 0x57 a b d e t)
  | .vmask a b d e t => some (mkWord 0x58 a b d e t)
  | .vcount a b d e t => some (mkWord 0x59 a b d e t)
  | .sw a b d e t => some (mkWord 0x60 a b d e t)
  | .mrg d e t => some (mkWord 0x61 0x0 0x1 d e t)
  | .gate a b d e t => some (mkWord 0x62 a b d e t)
  | .fan a b d e t => some (mkWord 0x63 a b d e t)
  | .mov a b d e t => some (mkWord 0x64 a b d e t)
  | .sink a b t => some (mkWord 0x65 a b 0x1F 0x1F t)
  | .exit a b t => some (mkWord 0x66 a b 0x1F 0x1F t)
  | .csw a b d e t => some (mkWord 0x67 a b d e t)
  | .trig a b d e t => some (mkWord 0x68 a b d e t)
  | .delay a b d e t => some (mkWord 0x69 a b d e t)
  | .enter a b d e => some (mkWord 0x70 a b d e 0x0)
  | .leave a b d e => some (mkWord 0x71 a b d e 0x0)
  | .spawn a b d e => some (mkWord 0x72 a b d e 0x0)
  | .retn a b d e => some (mkWord 0x73 a b d e 0x0)
  | .tget a b d e => some (mkWord 0x74 a b d e 0x0)
  | .tset a b d e => some (mkWord 0x75 a b d e 0x0)
  | .renm a b d e => some (mkWord 0x76 a b d e 0x0)
  | .loop a b d e t => some (mkWord 0x78 a b d e t)
  | .sloop a b d e t => some (mkWord 0x79 a b d e t)
  | .stree a b d e t => some (mkWord 0x7A a b d e t)
  | .eos a b d e t => some (mkWord 0x7C a b d e t)
  | .zip d e t => some (mkWord 0x7D 0x0 0x1 d e t)
  | .mxmode a b d e t => some (mkWord 0x80 a b d e t)
  | .wload a b d e t => some (mkWord 0x81 a b d e t)
  | .mma a b d e t => some (mkWord 0x82 a b d e t)
  | .accrd a b d e t => some (mkWord 0x83 a b d e t)
  | .accz a b d e t => some (mkWord 0x84 a b d e t)
  | .scale a b d e t => some (mkWord 0x85 a b d e t)
  | .burst a b d e t => some (mkWord 0x86 a b d e t)
  | .mxexit a b d e t => some (mkWord 0x87 a b d e t)
  | .hist a b d e t => some (mkWord 0x88 a b d e t)
  | .hscan a b d e t => some (mkWord 0x89 a b d e t)
  | .rsel a b d e t => some (mkWord 0x8A a b d e t)
  | .mergek d e t => some (mkWord 0x8B 0x0 0x1 d e t)
  | .topk a b d e t => some (mkWord 0x8C a b d e t)
  | .ld a b d e t => some (mkWord 0x90 a b d e t)
  | .st a b d e t => some (mkWord 0x91 a b d e t)
  | .ldx a b d e t => some (mkWord 0x92 a b d e t)
  | .stx a b d e t => some (mkWord 0x93 a b d e t)
  | .agset a b d e t => some (mkWord 0x94 a b d e t)
  | .lda a b d e t => some (mkWord 0x95 a b d e t)
  | .sta a b d e t => some (mkWord 0x96 a b d e t)
  | .pref a b d e t => some (mkWord 0x97 a b d e t)
  | .iwrite a b d e t => some (mkWord 0x98 a b d e t)
  | .iread a b d e t => some (mkWord 0x99 a b d e t)
  | .feset a b d e t => some (mkWord 0x9A a b d e t)
  | .feclr a b d e t => some (mkWord 0x9B a b d e t)
  | .gld a b d e t => some (mkWord 0x9C a b d e t)
  | .gst a b d e t => some (mkWord 0x9D a b d e t)
  | .sld a b d e t => some (mkWord 0x9E a b d e t)
  | .sst a b d e t => some (mkWord 0x9F a b d e t)
  | .igath a b d e t => some (mkWord 0xA0 a b d e t)
  | .iscat a b d e t => some (mkWord 0xA1 a b d e t)
  | .cpy a b d e t => some (mkWord 0xA2 a b d e t)
  | .igathOrd a b d e t => some (mkWord 0xA3 a b d e t)
  | .iscatOrd a b d e t => some (mkWord 0xA4 a b d e t)
  | .aadd a b d e t => some (mkWord 0xA8 a b d e t)
  | .amin a b d e t => some (mkWord 0xA9 a b d e t)
  | .amax a b d e t => some (mkWord 0xAA a b d e t)
  | .aand a b d e t => some (mkWord 0xAB a b d e t)
  | .aor a b d e t => some (mkWord 0xAC a b d e t)
  | .axor a b d e t => some (mkWord 0xAD a b d e t)
  | .axchg a b d e t => some (mkWord 0xAE a b d e t)
  | .acas a b d e t => some (mkWord 0xAF a b d e t)
  | .aaddAcq a b d e t => some (mkWord 0xB0 a b d e t)
  | .aminAcq a b d e t => some (mkWord 0xB1 a b d e t)
  | .amaxAcq a b d e t => some (mkWord 0xB2 a b d e t)
  | .aandAcq a b d e t => some (mkWord 0xB3 a b d e t)
  | .aorAcq a b d e t => some (mkWord 0xB4 a b d e t)
  | .axorAcq a b d e t => some (mkWord 0xB5 a b d e t)
  | .axchgAcq a b d e t => some (mkWord 0xB6 a b d e t)
  | .acasAcq a b d e t => some (mkWord 0xB7 a b d e t)
  | .aaddRel a b d e t => some (mkWord 0xB8 a b d e t)
  | .aminRel a b d e t => some (mkWord 0xB9 a b d e t)
  | .amaxRel a b d e t => some (mkWord 0xBA a b d e t)
  | .aandRel a b d e t => some (mkWord 0xBB a b d e t)
  | .aorRel a b d e t => some (mkWord 0xBC a b d e t)
  | .axorRel a b d e t => some (mkWord 0xBD a b d e t)
  | .axchgRel a b d e t => some (mkWord 0xBE a b d e t)
  | .acasRel a b d e t => some (mkWord 0xBF a b d e t)
  | .fence a b d e t => some (mkWord 0xC0 a b d e t)
  | .ordj a b d e t => some (mkWord 0xC1 a b d e t)
  | .barw a b d e t => some (mkWord 0xC2 a b d e t)
  | .bara a b d e t => some (mkWord 0xC3 a b d e t)
  | .qwait a b d e t => some (mkWord 0xC4 a b d e t)
  | .lodeq a b d e t => some (mkWord 0xC5 a b d e t)
  | .rbind a b d e t => some (mkWord 0xC8 a b d e t)
  | .rule a b d e t => some (mkWord 0xC9 a b d e t)
  | .tins a b d e t => some (mkWord 0xCA a b d e t)
  | .tprobe a b d e t => some (mkWord 0xCB a b d e t)
  | .tprobeD a b d e t => some (mkWord 0xCC a b d e t)
  | .tprobeAll a b d e t => some (mkWord 0xCD a b d e t)
  | .tnot a b d e t => some (mkWord 0xCE a b d e t)
  | .round a b d e t => some (mkWord 0xCF a b d e t)
  | .fixq a b d e t => some (mkWord 0xD0 a b d e t)
  | .rclose a b d e t => some (mkWord 0xD1 a b d e t)
  | .tdel a b d e t => some (mkWord 0xD2 a b d e t)
  | .tredr a b d e t => some (mkWord 0xD3 a b d e t)
  | .tgrad a b d e t => some (mkWord 0xD4 a b d e t)
  | .twit a b d e t => some (mkWord 0xD5 a b d e t)
  | .eprog a b d e t => some (mkWord 0xD8 a b d e t)
  | .edens a b d e t => some (mkWord 0xD9 a b d e t)
  | .emode a b d e t => some (mkWord 0xDA a b d e t)
  | .name a b d e t => some (mkWord 0xE0 a b d e t)
  | .claim a b d e t => some (mkWord 0xE1 a b d e t)
  | .fulfil a b d e t => some (mkWord 0xE2 a b d e t)
  | .abandon a b d e t => some (mkWord 0xE3 a b d e t)
  | .clinv a b d e t => some (mkWord 0xE4 a b d e t)
  | .clqry a b d e t => some (mkWord 0xE5 a b d e t)
  | .task a b d e t => some (mkWord 0xE8 a b d e t)
  | .tile a b d e t => some (mkWord 0xE9 a b d e t)
  | .stageq a b d e t => some (mkWord 0xEA a b d e t)
  | .trap a b d e t => some (mkWord 0xF0 a b d e t)
  | .resume a b d e t => some (mkWord 0xF1 a b d e t)
  | .discard a b d e t => some (mkWord 0xF2 a b d e t)
  | .kill a b d e t => some (mkWord 0xF3 a b d e t)
  | .csrr a b d e t => some (mkWord 0xF4 a b d e t)
  | .csrw a b d e t => some (mkWord 0xF5 a b d e t)
  | .hcall a b d e t => some (mkWord 0xF6 a b d e t)
  | .cfgld a b d e t => some (mkWord 0xF7 a b d e t)
  | .save a b d e t => some (mkWord 0xF8 a b d e t)
  | .restore a b d e t => some (mkWord 0xF9 a b d e t)
  | .cfgfl a b d e t => some (mkWord 0xFA a b d e t)
  | .pgmig a b d e t => some (mkWord 0xFB a b d e t)
  | .scrub a b d e t => some (mkWord 0xFC a b d e t)
  | .retire a b d e t => some (mkWord 0xFD a b d e t)
  | .attest a b d e t => some (mkWord 0xFE a b d e t)
  | .tokenArrive _ _ _ => none
  | .frameProbeEnd _ => none
  | .configMissServe _ _ => none
  | .missReplay _ _ => none
  | .cfgldEntry _ _ => none
  | .contextEvict _ _ => none
  | .signalRelease _ => none
  | .deferRelease _ => none
  | .memoryAnswer _ => none
  | .faultAnswer _ _ _ => none
  | .retryAnswer _ => none
  | .levelCreditRequest _ _ _ _ _ => none
  | .poolRequest _ _ _ _ _ => none
  | .levelCreditReturn _ _ _ => none
  | .poolReturn _ _ _ => none
  | .grantArrive _ _ _ => none
  | .cswRequest _ _ _ => none
  | .regionWave _ => none
  | .loopGeneratorEmit _ => none
  | .delayDue _ => none
  | .scaleTokenArrive _ _ => none
  | .groupLanding _ => none
  | .warmupDone _ => none
  | .burstTimeout _ => none
  | .slabCool _ => none
  | .routeSetup _ _ => none
  | .routeAccess _ _ _ => none
  | .stripeAccess _ => none
  | .rmwComplete _ => none
  | .waveRelease _ => none
  | .indirectStreamCommand _ _ => none
  | .indirectLaneComplete _ _ _ => none
  | .copyPieceComplete _ _ _ => none
  | .lodeWave _ => none
  | .barrierRelease _ => none
  | .podWave _ => none
  | .fixqPass _ _ => none
  | .relationScanVisit _ _ => none
  | .relationSweepStep _ _ => none
  | .tupleInsertAtHome _ _ => none
  | .tupleDeleteAtHome _ _ => none
  | .probeAtHome _ _ => none
  | .roundAtMember _ _ _ => none
  | .closeAtMember _ _ _ => none
  | .rbindMember _ _ _ => none
  | .gradientStep _ _ => none
  | .pushSourceVisit _ _ _ => none
  | .pullVertexVisit _ _ _ => none
  | .edgeContributionCombine _ _ _ => none
  | .edensCount _ _ _ => none
  | .hostPacketWrite _ _ _ => none
  | .bridgeForward _ _ => none
  | .queueAccept _ => none
  | .stageFire _ => none
  | .stageEntrySend _ _ => none
  | .successorForward _ => none
  | .saveWrite _ _ => none
  | .translationRequest _ _ => none
  | .pageWalkLevel _ => none
  | .apertureStore _ => none
  | .tableApply _ _ => none
  | .applyAck _ _ => none
  | .apertureLoad _ => none
  | .peerAccess _ _ => none
  | .geodeSliceOperation _ _ => none
  | .clinvSetStep _ _ => none
  | .contextEndNotice _ _ _ _ => none
  | .trapRecordDeliver _ => none
  | .handlerAnswerApply _ _ => none
  | .volwinBlockReceive _ _ _ => none
  | .volwinRetryTimeout _ _ => none
  | .volwinMessage _ _ _ _ => none
  | .channelRequest _ _ _ => none
  | .predecessorMark _ _ _ => none
  | .channelReadReturn _ _ => none
  | .refreshDue _ _ => none
  | .rateStepDown _ _ => none
  | .rateStepUp _ _ => none
  | .rateSwitchEnd _ _ => none
  | .patrolStep _ => none
  | .channelRetirement _ _ _ _ => none
  | .rebuildStep _ => none
  | .guardZeroDone _ _ => none
  | .engineCommand _ _ _ _ => none
  | .fatikImageLoad _ _ => none
  | .scaleoutFrameReceive _ _ => none
  | .scaleoutResendTimeout _ => none
  | .scaleoutPortDead _ => none
  | .reportFrame _ => none
  | .declareFrame _ _ => none
  | .hostBarAccess _ => none
  | .railOutOfTolerance _ => none
  | .thermalTrip => none
  | .supplyDroop _ => none
  | .test _ => none
  | .fwload => none
  | .fwcheck => none
  | .fwapply => none
  | .bdload => none
  | .bdstart => none
  | .handover => none
  | .signerCheck _ _ => none
  | .signerClear _ => none
  | .attestReportSigned _ _ => none
  | .regionWrite _ => none
  | .windowWrite _ => none
  | .aflagsWrite _ => none
  | .srstateWrite _ => none
  | .lodeenWrite _ => none
  | .lodeLineWrite _ => none
  | .stagesWrite _ => none
  | .ptrootWrite _ => none
  | .guardWrite _ => none
  | .ratecfgWrite _ => none
  | .fatikImageWrite _ => none
  | .csrRegisterWrite _ => none
  | .powerDown => none
  | .laneRepair _ _ => none
  | .copyCommand _ _ => none

end Sys2Proof
end

