-- ==== Sys2Proof/Config.lean ====
section
/-! DEFINITION. What one Solben fixes (R1, R4, R14), and what its spec leaves open: opaque, so that nothing can evaluate it. -/

namespace Sys2Proof.Config

/-- Bytes of element memory, 384 KiB (R190). -/
abbrev elemBytes : Nat := 393216
/-- Banks of an element (R190). -/
abbrev banks : Nat := 96
/-- Matching-store entries of an element (R14). -/
abbrev storeEntries : Nat := 64
/-- Base dies, and stacks, of a package (R1). -/
abbrev nStacks : Nat := 24
/-- LPC of the standard 64 GB stack (R4, R427), with which a module starts: the package of State.reset. The stacks of 48 GB have 24
and those of 96 GB have 48 (Fabric.lpc). -/
abbrev lpc : Nat := 32
/-- Bytes of a save area (R407). -/
abbrev saveAreaBytes : Nat := 0x1AB0000
/-- What a count beyond 32 bits gives as an N32 value and in EL.SELK: the spec states none (R183, log 12). -/
opaque beyond32 : Nat → Word
/-- Package serial number, read at the management interface (R453). A number of the part, not given by the spec. -/
opaque serial : BitVec 64
/-- The base-die register writes (stack, number, value) that a firmware image's body holds for FWAPPLY: its layout is not given
(R450, log 9). -/
opaque fwWrites : List Byte → List (Nat × Nat × DWord)

end Sys2Proof.Config
end

