-- ==== Sys2Proof/Machine/Ev.lean ====
section
/-! DEFINITION. Ev: an event of the opcode table as the machine keeps it on its agenda. The constructors and their fields are
those of Instr's event rows, one for one, and Ev.instr says which; the machine stores Ev because Lean's compiler cannot build
a constructor of Instr past its 245th, and Ev.instr is the one definition that is not compiled for that reason. -/

namespace Sys2Proof

/-- A pending event: the event rows of Instr, with the same names and fields. -/
inductive Ev where
  | tokenArrive (el : Nat) (p : Port) (t : Tok)
  | frameProbeEnd (el : Nat)
  | configMissServe (el ctx : Nat)
  | missReplay (el ctx : Nat)
  | cfgldEntry (el id : Nat)
  | contextEvict (el ctx : Nat)
  | signalRelease (el : Nat)
  | deferRelease (el : Nat)
  | memoryAnswer (a : Ans)
  | faultAnswer (q : Req) (c : Cause) (info : Word)
  | retryAnswer (q : Req)
  | levelCreditRequest (bk el id ctx lvl : Nat)
  | poolRequest (bk el id ctx wid : Nat)
  | levelCreditReturn (way : ToAnchor) (ctx lvl : Nat)
  | poolReturn (way : ToAnchor) (ctx num : Nat)
  | grantArrive (el id num : Nat)
  | cswRequest (bk el id : Nat)
  | regionWave (bk : Nat)
  | loopGeneratorEmit (el : Nat)
  | delayDue (el : Nat)
  | scaleTokenArrive (el : Nat) (t : ScaleTok)
  | groupLanding (el : Nat)
  | warmupDone (el : Nat)
  | burstTimeout (el : Nat)
  | slabCool (el : Nat)
  | routeSetup (el route : Nat)
  | routeAccess (dst win : Nat) (q : Req)
  | stripeAccess (q : Req)
  | rmwComplete (el : Nat)
  | waveRelease (bk : Nat)
  | indirectStreamCommand (el id : Nat)
  | indirectLaneComplete (el id lane : Nat)
  | copyPieceComplete (el id piece : Nat)
  | lodeWave (n : Nat)
  | barrierRelease (n : Nat)
  | podWave (n : Nat)
  | fixqPass (el id : Nat)
  | relationScanVisit (el id : Nat)
  | relationSweepStep (el win : Nat)
  | tupleInsertAtHome (el id : Nat)
  | tupleDeleteAtHome (el id : Nat)
  | probeAtHome (el id : Nat)
  | roundAtMember (el id mem : Nat)
  | closeAtMember (el id mem : Nat)
  | rbindMember (el id mem : Nat)
  | gradientStep (el id : Nat)
  | pushSourceVisit (el id mem : Nat)
  | pullVertexVisit (el id mem : Nat)
  | edgeContributionCombine (el id : Nat) (c : Contrib)
  | edensCount (el id mem : Nat)
  | hostPacketWrite (part off : Nat) (bs : List Byte)
  | bridgeForward (part stage : Nat)
  | queueAccept (q : Item)
  | stageFire (bk : Nat)
  | stageEntrySend (el : Nat) (t : Tok)
  | successorForward (q : Item)
  | saveWrite (el id : Nat)
  | translationRequest (sd : Nat) (q : Req)
  | pageWalkLevel (sd : Nat)
  | apertureStore (q : Req)
  | tableApply (sd : Nat) (st : ApStore)
  | applyAck (sd num : Nat)
  | apertureLoad (q : Req)
  | peerAccess (port : Nat) (q : Req)
  | geodeSliceOperation (sd : Nat) (g : GReq)
  | clinvSetStep (sd : Nat) (g : GReq)
  | contextEndNotice (sd pkg part ctx : Nat)
  | trapRecordDeliver (el : Nat)
  | handlerAnswerApply (el id : Nat)
  | volwinBlockReceive (sd md : Nat) (b : VBlock)
  | volwinRetryTimeout (sd md : Nat)
  | volwinMessage (sd md : Nat) (toDie : Bool) (fl : List (BitVec 256))
  | channelRequest (sd : Nat) (f : Frame) (q : Req)
  | predecessorMark (sd : Nat) (el oid : Nat)
  | channelReadReturn (sd : Nat) (a : Ans)
  | refreshDue (sd ch : Nat)
  | rateStepDown (sd ch : Nat)
  | rateStepUp (sd ch : Nat)
  | rateSwitchEnd (sd ch : Nat)
  | patrolStep (sd : Nat)
  | channelRetirement (sd ch el id : Nat)
  | rebuildStep (sd : Nat)
  | guardZeroDone (sd n : Nat)
  | engineCommand (sd n : Nat) (q : Req) (pl : List DWord)
  | fatikImageLoad (sd n : Nat)
  | scaleoutFrameReceive (port : Nat) (f : ScaleFrame)
  | scaleoutResendTimeout (port : Nat)
  | scaleoutPortDead (port : Nat)
  | reportFrame (r : Report)
  | declareFrame (line num : Nat)
  | hostBarAccess (q : Req)
  | railOutOfTolerance (rail : Nat)
  | thermalTrip
  | supplyDroop (bk : Nat)
  | test (good : BitVec 24)
  | fwload
  | fwcheck
  | fwapply
  | bdload
  | bdstart
  | handover
  | signerCheck (part : Nat) (img : BitVec 42)
  | signerClear (part : Nat)
  | attestReportSigned (el id : Nat)
  | regionWrite (w : CsrWr)
  | windowWrite (w : CsrWr)
  | aflagsWrite (w : CsrWr)
  | srstateWrite (w : CsrWr)
  | lodeenWrite (w : CsrWr)
  | lodeLineWrite (w : CsrWr)
  | stagesWrite (w : CsrWr)
  | ptrootWrite (w : CsrWr)
  | guardWrite (w : CsrWr)
  | ratecfgWrite (w : CsrWr)
  | fatikImageWrite (w : CsrWr)
  | csrRegisterWrite (w : CsrWr)
  | powerDown
  | laneRepair (sd md : Nat)
  | copyCommand (el id : Nat)
  deriving DecidableEq, Repr

/-- The instruction that an event is. -/
noncomputable def Ev.instr (e : Ev) : Instr :=
  match e with
  | .tokenArrive el p t => .tokenArrive el p t
  | .frameProbeEnd el => .frameProbeEnd el
  | .configMissServe el ctx => .configMissServe el ctx
  | .missReplay el ctx => .missReplay el ctx
  | .cfgldEntry el id => .cfgldEntry el id
  | .contextEvict el ctx => .contextEvict el ctx
  | .signalRelease el => .signalRelease el
  | .deferRelease el => .deferRelease el
  | .memoryAnswer a => .memoryAnswer a
  | .faultAnswer q c info => .faultAnswer q c info
  | .retryAnswer q => .retryAnswer q
  | .levelCreditRequest bk el id ctx lvl => .levelCreditRequest bk el id ctx lvl
  | .poolRequest bk el id ctx wid => .poolRequest bk el id ctx wid
  | .levelCreditReturn w ctx lvl => .levelCreditReturn w ctx lvl
  | .poolReturn w ctx num => .poolReturn w ctx num
  | .grantArrive el id num => .grantArrive el id num
  | .cswRequest bk el id => .cswRequest bk el id
  | .regionWave bk => .regionWave bk
  | .loopGeneratorEmit el => .loopGeneratorEmit el
  | .delayDue el => .delayDue el
  | .scaleTokenArrive el t => .scaleTokenArrive el t
  | .groupLanding el => .groupLanding el
  | .warmupDone el => .warmupDone el
  | .burstTimeout el => .burstTimeout el
  | .slabCool el => .slabCool el
  | .routeSetup el route => .routeSetup el route
  | .routeAccess dst win q => .routeAccess dst win q
  | .stripeAccess q => .stripeAccess q
  | .rmwComplete el => .rmwComplete el
  | .waveRelease bk => .waveRelease bk
  | .indirectStreamCommand el id => .indirectStreamCommand el id
  | .indirectLaneComplete el id lane => .indirectLaneComplete el id lane
  | .copyPieceComplete el id piece => .copyPieceComplete el id piece
  | .lodeWave n => .lodeWave n
  | .barrierRelease n => .barrierRelease n
  | .podWave n => .podWave n
  | .fixqPass el id => .fixqPass el id
  | .relationScanVisit el id => .relationScanVisit el id
  | .relationSweepStep el win => .relationSweepStep el win
  | .tupleInsertAtHome el id => .tupleInsertAtHome el id
  | .tupleDeleteAtHome el id => .tupleDeleteAtHome el id
  | .probeAtHome el id => .probeAtHome el id
  | .roundAtMember el id mem => .roundAtMember el id mem
  | .closeAtMember el id mem => .closeAtMember el id mem
  | .rbindMember el id mem => .rbindMember el id mem
  | .gradientStep el id => .gradientStep el id
  | .pushSourceVisit el id mem => .pushSourceVisit el id mem
  | .pullVertexVisit el id mem => .pullVertexVisit el id mem
  | .edgeContributionCombine el id c => .edgeContributionCombine el id c
  | .edensCount el id mem => .edensCount el id mem
  | .hostPacketWrite part off bs => .hostPacketWrite part off bs
  | .bridgeForward part stage => .bridgeForward part stage
  | .queueAccept q => .queueAccept q
  | .stageFire bk => .stageFire bk
  | .stageEntrySend el t => .stageEntrySend el t
  | .successorForward q => .successorForward q
  | .saveWrite el id => .saveWrite el id
  | .translationRequest sd q => .translationRequest sd q
  | .pageWalkLevel sd => .pageWalkLevel sd
  | .apertureStore q => .apertureStore q
  | .tableApply sd st => .tableApply sd st
  | .applyAck sd num => .applyAck sd num
  | .apertureLoad q => .apertureLoad q
  | .peerAccess port q => .peerAccess port q
  | .geodeSliceOperation sd g => .geodeSliceOperation sd g
  | .clinvSetStep sd g => .clinvSetStep sd g
  | .contextEndNotice sd pkg part ctx => .contextEndNotice sd pkg part ctx
  | .trapRecordDeliver el => .trapRecordDeliver el
  | .handlerAnswerApply el id => .handlerAnswerApply el id
  | .volwinBlockReceive sd md b => .volwinBlockReceive sd md b
  | .volwinRetryTimeout sd md => .volwinRetryTimeout sd md
  | .volwinMessage sd md toDie fl => .volwinMessage sd md toDie fl
  | .channelRequest sd f q => .channelRequest sd f q
  | .predecessorMark sd el oid => .predecessorMark sd el oid
  | .channelReadReturn sd a => .channelReadReturn sd a
  | .refreshDue sd ch => .refreshDue sd ch
  | .rateStepDown sd ch => .rateStepDown sd ch
  | .rateStepUp sd ch => .rateStepUp sd ch
  | .rateSwitchEnd sd ch => .rateSwitchEnd sd ch
  | .patrolStep sd => .patrolStep sd
  | .channelRetirement sd ch el id => .channelRetirement sd ch el id
  | .rebuildStep sd => .rebuildStep sd
  | .guardZeroDone sd n => .guardZeroDone sd n
  | .engineCommand sd n q pl => .engineCommand sd n q pl
  | .fatikImageLoad sd n => .fatikImageLoad sd n
  | .scaleoutFrameReceive port f => .scaleoutFrameReceive port f
  | .scaleoutResendTimeout port => .scaleoutResendTimeout port
  | .scaleoutPortDead port => .scaleoutPortDead port
  | .reportFrame r => .reportFrame r
  | .declareFrame line num => .declareFrame line num
  | .hostBarAccess q => .hostBarAccess q
  | .railOutOfTolerance rail => .railOutOfTolerance rail
  | .thermalTrip => .thermalTrip
  | .supplyDroop bk => .supplyDroop bk
  | .test good => .test good
  | .fwload => .fwload
  | .fwcheck => .fwcheck
  | .fwapply => .fwapply
  | .bdload => .bdload
  | .bdstart => .bdstart
  | .handover => .handover
  | .signerCheck part img => .signerCheck part img
  | .signerClear part => .signerClear part
  | .attestReportSigned el id => .attestReportSigned el id
  | .regionWrite w => .regionWrite w
  | .windowWrite w => .windowWrite w
  | .aflagsWrite w => .aflagsWrite w
  | .srstateWrite w => .srstateWrite w
  | .lodeenWrite w => .lodeenWrite w
  | .lodeLineWrite w => .lodeLineWrite w
  | .stagesWrite w => .stagesWrite w
  | .ptrootWrite w => .ptrootWrite w
  | .guardWrite w => .guardWrite w
  | .ratecfgWrite w => .ratecfgWrite w
  | .fatikImageWrite w => .fatikImageWrite w
  | .csrRegisterWrite w => .csrRegisterWrite w
  | .powerDown => .powerDown
  | .laneRepair sd md => .laneRepair sd md
  | .copyCommand el id => .copyCommand el id

end Sys2Proof
end

