-- ==== Sys2Proof/Machine/State.lean ====
section
/-! DEFINITION. The state of the package as plain data: elements, block controllers, base dies, the Lode, the host bridge,
the scale-out ports (Fabric), and the module around them (sequencer, pins, flash, fuses, signer keys). Sparse parts are
lists sorted by key; what an unlisted key holds is the reset record or register value named beside the part. -/

namespace Sys2Proof.Machine

/-- A sparse table: pairs of a key and a value, keys rising. -/
abbrev Table (α : Type) := List (Nat × α)

/-- Byte memory in one canonical form: addresses rising, no entry equal to 0, which an unlisted address reads as (log 3, 4). -/
abbrev Memory := List Host.Cell

/-- Why a set waits without a trap, and `trap` for one that waits for a handler's answer (R11, R249). -/
inductive ParkReason where
  | trap | freeList | pool | commit | delay | scale | buf | fifo | defer | rmw | wave | queue | order | fence | lode | migrate
  deriving DecidableEq, Repr

/-- A matched set (R22, R24): the operand tokens under one key with the stamp of the completing token.
`note` is the model's mark of what already happened to the set, and `arg` goes with it: 0 nothing; 1 its arrival at a barrier
is registered, or it waits since wave `arg`; 2 TRAP was resumed; 3 ARITH was resumed; 5 a stopped loop generator (its firing);
6 a release or declaration answered it (the value); 7 a FIXQ whose pass runs; 8 an HCALL's answer (the value); 9 the release
came while it waited for a trap's answer (Φ); 10 a memory, relation or edge form's trap was discarded (R231, R285); 11 a FIXQ that waits for the result of
every package's pass. -/
structure MSet where
  ctx : Nat
  slot : Nat
  tag : DWord
  stamp : Nat
  a : Option Tok
  b : Option Tok
  note : Nat
  arg : DWord
  deriving DecidableEq, Repr

/-- A token with its arrival stamp (R21). -/
structure Waiting where
  tok : Tok
  stamp : Nat
  deriving DecidableEq, Repr

/-- A set parked at issue (R24): it issues again from the start when its reason clears. `on` names what it waits for (a line, a buffer),
or, for a trap, is the instruction word that raised it; `cause` and `info` are the trap's. -/
structure Parked where
  set : MSet
  reason : ParkReason
  cause : Cause
  info : Word
  on : Nat
  deriving DecidableEq, Repr

/-- A token parked by itself: stray, bad, or without a place in its frame (R23, R37). -/
structure ParkedTok where
  tok : Tok
  port : Port
  stamp : Nat
  cause : Cause
  info : Word
  raised : Bool
  deriving DecidableEq, Repr

/-- A token that waits at its port because the element has no place for it (R35, R37): whether SPILLFULL was raised for it, the
stamp of its latest offer, and its context's frame directory entry at that offer. -/
structure Offer where
  tok : Tok
  port : Port
  raised : Bool
  stamp : Nat
  frame : Word
  deriving DecidableEq, Repr

/-- One token to send (R42): destination select, format, lanes, and how its tag departs from the result tag. -/
structure Out where
  dst : Nat
  fmt : Nat
  vec : Bool
  valid : BitVec 32
  lanes : List DWord
  ord : Bool
  eos : Nat
  /-- F0 of the tag, where it is not the result tag's -/
  f0 : Option Nat
  /-- sent under the firing tag -/
  firing : Bool
  /-- the lane is the granted pool number (SPAWN) -/
  pool : Bool
  /-- a scale token of this value instead of a data token -/
  scale : Option (BitVec 16)
  deriving DecidableEq, Repr

/-- A parked access of an issued firing (R366): its lane or piece, why, the information word, and whether it is parked away. -/
structure PAcc where
  lane : Nat
  reason : ParkReason
  cause : Cause
  info : Word
  away : Bool
  q : Option Req
  deriving DecidableEq, Repr

/-- An issued firing that has not retired (R340): the set, its fields, operands, what it still waits for, what it gathered. -/
structure Pend where
  id : Nat
  set : MSet
  op : Nat
  d : Nat
  e : Nat
  t : BitVec 4
  fin : Nat
  fout : Nat
  /-- the result tag (formed at the grant where one is owed) -/
  tag : DWord
  grant : Bool
  left : Nat
  a : DWord
  b : DWord
  c : DWord
  args : List DWord
  base : Nat
  vec : Bool
  valid : BitVec 32
  vals : List DWord
  fail : Bool
  cause : BitVec 2
  cnt : Nat
  cur : Nat
  phase : Nat
  outs : List Out
  accs : List PAcc
  /-- counted as a masked store in the commit table -/
  masked : Bool
  /-- a store or atomic, for fences, releases and barriers -/
  store : Bool
  /-- bytes 47:0 of its target and the scope it lies in (R237) -/
  target : Nat
  scope : Nat
  /-- its emits onto stream routes leave in order of issue, behind the places taken before it (R367) -/
  ordered : Bool
  /-- holds one of the 16 places of the reorder unit (R367) -/
  placed : Bool
  /-- the privilege that its context's image had at issue -/
  priv : Nat
  /-- the flags that a CSRW of EL.AFLAGS has cleared since, while this load's own are not known yet (R92) -/
  cleared : Word
  /-- KILL has ended its context: what it has sent runs to completion, and its answers are dropped (R405) -/
  dead : Bool
  deriving DecidableEq, Repr

/-- A loop generator in progress (R148): its firing, header form, iteration values still to emit and its next ordinal. -/
structure LoopGen where
  pend : Pend
  ordinal : Nat
  chunk : Nat
  todo : List Nat
  sent : Nat
  deriving DecidableEq, Repr

/-- A commit table entry (R140): masked stores incomplete, exits held with their result tag, and the slot that opened it. -/
structure Commit where
  ctx : Nat
  tag : DWord
  slot : Nat
  pending : Nat
  held : Option (DWord × List Out)
  deriving DecidableEq, Repr

/-- A failure record (R239). -/
structure FailRec where
  count : Nat
  causes : BitVec 3
  first : BitVec 2
  addr : BitVec 48
  deriving DecidableEq, Repr

/-- An address generator (R199). -/
structure Gen where
  w0 : DWord
  w1 : DWord
  i0 : Nat
  i1 : Nat
  deriving DecidableEq, Repr

/-- A resident slot (R14): context number, the image's 48 words, pinned, and the stamp of the last issue (R161). -/
structure Resident where
  ctx : Nat
  image : List DWord
  pinned : Bool
  last : Nat
  fail : FailRec
  deriving DecidableEq, Repr

/-- A deferred reader of an I-structure word (R196, R197): word address, record index, and the load that waits. -/
structure Deferred where
  addr : Nat
  rcd : Nat
  q : Req
  deriving DecidableEq, Repr

/-- An element (R14). -/
structure Element where
  slots : Table Resident
  store : List Waiting
  parked : List Parked
  parkedToks : List ParkedTok
  ready : List MSet
  /-- completing tokens under frame probe, with the port that each came by (R34, R36, R37) -/
  probes : List (Waiting × Port)
  missBuf : List Waiting
  arrivals : Nat
  mem : Memory
  framedir : Word
  stray : Word
  badtok : Word
  mismatch : Word
  aflags : Word
  aftrap : Word
  srstate : Word
  wins : Table Word
  gens : Table Gen
  lodeen0 : Word
  lodeen1 : Word
  weights : Table (BitVec 16)
  sw : Table Byte
  acc : Table Word
  /-- computed groups of the slab that have not landed: ACC words to write (R177) -/
  landing : List (List (Nat × Word))
  mxOn : Bool
  mxWarm : Bool
  mxBurst : Nat
  mxFmt : BitVec 4
  mxWarming : Bool
  mxSince : Bool
  scales : List ScaleTok
  hist : Table Word
  selctl : Word
  selk : Word
  selpfx : DWord
  delays : List (Nat × Pend)
  loops : List LoopGen
  commits : List Commit
  pend : List Pend
  nextId : Nat
  sink : List Tok
  rmw : List Req
  defers : List Deferred
  owners : Table Nat
  /-- dirty bits of the 96 banks (R347) -/
  dirty : BitVec 96
  arrived : BitVec 64
  /-- the context whose set arrived at each line (R405) -/
  arrivedBy : Table Nat
  sentAt : Table Nat
  routes : List Nat
  /-- tokens that arrived while the block is stopped: the token area of a save (R348) -/
  area : List Waiting
  /-- tokens that wait at their port for a place (R35, R37) -/
  offered : List Offer
  /-- the output queue (R340): targets and tokens that the data channel holds back -/
  outq : List (Nat × Tok)
  /-- Fatik: commands held, stopped (R439, R440) -/
  cmds : List (Req × List DWord)
  halted : Bool
  deriving DecidableEq, Repr

/-- A credit or pool request held at an anchor (R136). -/
structure Held where
  el : Nat
  id : Nat
  ctx : Nat
  pool : Bool
  arg : Nat
  raised : Bool
  deriving DecidableEq, Repr

/-- What an anchor keeps for one context of its region (R135). -/
structure AnchorCtx where
  credits : List Nat
  pool : BitVec 256
  priv : Nat
  levels : Nat
  h1 : DWord
  h2 : DWord
  poolSize : Nat
  /-- BK.REGION was written since; the next image sets the counters anew -/
  stale : Bool
  deriving DecidableEq, Repr

/-- A context switch in progress (R160). -/
structure CswJob where
  el : Nat
  id : Nat
  ctl : Word
  clean : Nat
  deriving DecidableEq, Repr

/-- A live firing (R332, R334): stage, sequence number and successor handles. -/
structure Live where
  stage : Nat
  seq : Word
  succ : List DWord
  deriving DecidableEq, Repr

/-- A queue place (R331). -/
structure Place where
  stage : Nat
  port : Nat
  stamp : Nat
  words : List DWord
  deriving DecidableEq, Repr

/-- An access in a block's store buffer (R227). -/
structure WaveAcc where
  el : Nat
  id : Nat
  ctx : Nat
  tag : DWord
  lit : Word
  load : Bool
  deriving DecidableEq, Repr

/-- A wave's last released access (R227). -/
structure Wave where
  ctx : Nat
  tag : DWord
  last : Option Word
  lastEl : Nat
  lastId : Nat
  lastLoad : Bool
  deriving DecidableEq, Repr

/-- A block controller. `regs` holds BK registers by number; an unlisted one holds its reset value. -/
structure Block where
  regs : Table DWord
  anchors : Table AnchorCtx
  held : List Held
  csws : List CswJob
  waves : Nat
  sampledAt : Nat
  accStamp : Nat
  places : List Place
  lives : List Live
  seqs : Table Word
  buffer : List WaveAcc
  waveTab : List Wave
  /-- released accesses (element, firing) that their memory side holds back, in release order (R227) -/
  late : List (Nat × Nat)
  stopped : Bool
  /-- the stop is that of a successful SAVE (R407) -/
  saved : Bool
  /-- stack and offset of the area that a SAVE has written, while the block is stopped after it (R348, R353) -/
  savedAt : Option (Nat × Nat)
  scrubbed : Bool
  misses : List (Nat × Nat)
  withheld : Bool
  deriving DecidableEq, Repr

/-- A TLB entry (R364): page size in address bits, page number, leaf, and the table words its translation used. -/
structure TlbEntry where
  bits : Nat
  page : Nat
  leaf : DWord
  used : List Nat
  deriving DecidableEq, Repr

/-- A walk in progress (R364, R365). -/
structure Walk where
  piece : Nat
  level : Nat
  table : Nat
  used : List Nat
  reqs : List Req
  deriving DecidableEq, Repr

/-- A waiter of a Geode entry (R380). -/
structure Waiter where
  pkg : Nat
  el : Nat
  id : Nat
  ctx : Nat
  part : Nat
  deriving DecidableEq, Repr

/-- A way of a Geode set (R376); `state` 0 INVALID, 1 MAKING, 2 DONE. -/
structure Way where
  dig : DWord
  ver : Word
  fn : Word
  state : Nat
  cls : BitVec 4
  ref : Bool
  gen : BitVec 16
  makerPkg : Nat
  makerCtx : Nat
  part : Nat
  addr : DWord
  len : Word
  waiters : List Waiter
  /-- erroneous bytes of the entry in the slice's SRAM (R432) -/
  errs : Nat
  deriving DecidableEq, Repr

/-- One end of a module of a Volwin link (R421-R424). -/
structure VEnd where
  /-- the next sequence number to send, and the next expected -/
  tx : Nat
  rx : Nat
  unacked : List VBlock
  /-- bad blocks received in a row, and resends of the oldest unacknowledged one -/
  fails : Nat
  resends : Nat
  /-- the first flits of a message whose last ones are still to come (R423) -/
  rest : List (BitVec 256)
  /-- flits of credit that the other side has returned, by class, and at 8 above the class those still to be returned to it (R423, R424) -/
  cred : Table Nat
  deriving DecidableEq, Repr

/-- One module of a Volwin link (R420-R422): its end at the base die, its end at the compute die, its repair lanes. -/
structure VModule where
  base : VEnd
  die : VEnd
  repairs : Nat
  deriving DecidableEq, Repr

/-- A request that came as a message, by a link or in a peer's frame, until its answer has left (R425): its issuer and order id, the stack
whose link it crossed, its answer place, and the words of its answer as they come. -/
structure RawReq where
  el : Nat
  oid : Nat
  sd : Nat
  apl : Nat
  part : Nat
  /-- the module that its message came on -/
  md : Nat
  /-- the words that it reads or writes, and how many are not done -/
  n : Nat
  left : Nat
  /-- its answer carries data -/
  data : Bool
  words : Table DWord
  fail : Bool
  cause : BitVec 2
  /-- a fault answer or a retry has left in place of its answer -/
  said : Bool
  deriving DecidableEq, Repr

/-- A base die. `regs` holds BD registers by number; an unlisted one holds its reset value. -/
structure BaseDie where
  regs : Table DWord
  mem : Memory
  full : List Nat
  deferred : List (Nat × Req)
  tlb : List TlbEntry
  walks : List Walk
  walkQ : List Req
  park : List (Req × Cause × Word)
  apNext : Nat
  apDone : Nat
  /-- stores that some base die has not acknowledged, with how many have not -/
  apAcks : List (ApStore × Nat)
  /-- the accesses (element, firing, lane) that the store being applied waits for (R360) -/
  apWait : Option (List (Nat × Nat × Nat))
  ways : Table Way
  hands : Table Nat
  waitersUsed : Nat
  /-- eviction records not written yet, oldest first, and how many stores of the first one a peer package has still to answer, and
  whether one of them failed (R388) -/
  reports : List (List DWord)
  reportLeft : Nat
  reportBad : Bool
  /-- dirty lines of the parity cache, oldest first: row and parity line (R431). A parity line that is not there stands in `mem`, in its
  row's place in the parity shadow of its region (R430) -/
  parCache : List (Nat × Nat)
  /-- bytes of the stack that hold an error, by the offset under which the line is kept (R432) -/
  errs : List Nat
  switching : List Nat
  owed : Table Nat
  patrol : Nat
  /-- guarded regions being zeroed: number, value to come, and the firing that wrote it (R429) -/
  zeroing : List (Nat × DWord × Option (Nat × Nat))
  mods : Table VModule
  queued : List (Nat × Frame × Req)
  outst : List (Nat × Nat)
  /-- reads performed whose data are on their way out of their channel (R433) -/
  reads : List Req
  deriving DecidableEq, Repr

/-- A Lode line's root (R247, R250, R254). -/
structure LodeRoot where
  phi : BitVec 16
  decl : BitVec 16
  /-- consecutive clean waves -/
  clean : Nat
  waves : Nat
  /-- a wave is on the agenda -/
  running : Bool
  /-- a LODEQ asked for sampling and no declaration has come since -/
  asked : Bool
  sampledAt : Nat
  /-- what the last release carried to every block (R254) -/
  lastBusy : Bool
  lastClean : Bool
  lastCount : BitVec 16
  /-- latest reports by package, pod waves, their sums and clean count, where this package is the pod root (R251) -/
  reports : Table Report
  podWaves : Nat
  podSums : Option (DWord × DWord)
  podClean : Nat
  /-- tokens of enrolled contexts sent and received through scale-out ports (R251) -/
  sent : DWord
  recv : DWord
  /-- the other packages of the pod whose line is PODQUIET (log 15) -/
  members : List Nat
  /-- the result of this package's pass of a FIXQ, until its next report carries it (R281) -/
  pass : Option Bool
  /-- at the pod root: the pod waves that had run when each of a member's reports came since the last declaration (R252) -/
  firsts : Table (List Nat)
  deriving DecidableEq, Repr

/-- A port pair (R445, R446): what a scale-out port keeps of its traffic with one package. -/
structure PortPair where
  /-- the next sequence number to send, and the next expected -/
  seq : BitVec 16
  rx : BitVec 16
  unacked : List ScaleFrame
  resends : Nat
  /-- the ACK of the last frame sent -/
  told : BitVec 16
  deriving DecidableEq, Repr

/-- A scale-out port (R445, R446): its pairs by package. -/
structure OutPort where
  pairs : Table PortPair
  dead : Bool
  deriving DecidableEq, Repr

/-- A partition's launch window (R324, R325). -/
structure Launch where
  places : List Item
  refused : Nat
  dropped : Nat
  posted : Nat
  /-- the data of the last read that the function answered (R324, R444) -/
  readout : DWord
  deriving DecidableEq, Repr

/-- What moves next (log 1): the k-th entry of the agenda, or the lowest-stamped ready set of an element. -/
inductive Turn where
  | event (k : Nat)
  | issue (el : Nat)
  deriving DecidableEq, Repr

/-- The fabric: everything but the module around it. -/
structure Fabric where
  els : Table Element
  blks : Table Block
  dies : Table BaseDie
  lode : Table LodeRoot
  ports : Table OutPort
  launch : Table Launch
  hostMem : Memory
  rels : Table (List DWord)
  diePart : Table Nat
  stackPart : Table Nat
  portPart : Table Nat
  pkg : Nat
  /-- LPC of the package's stacks: rows of a channel divided by 2^20, 24, 32 or 48 by the size of the stacks (R4, R427) -/
  lpc : Nat
  /-- signer aperture words 0x08 and MEAS (R452) -/
  sigStat : DWord
  sigMeas : BitVec 512
  /-- requests sent to other packages and not yet answered -/
  peers : List (Nat × Req)
  raws : List RawReq
  agenda : List Ev
  sched : List Turn
  clock : Nat
  cur : Nat
  fire : MSet
  deriving DecidableEq, Repr

/-- The module around the fabric (R441-R453). -/
structure Module where
  seqState : Byte
  seqFail : Byte
  seqStacks : BitVec 16
  pwrgood : Bool
  resetHigh : Bool
  bootsel : BitVec 2
  thermtrip : Bool
  rails : BitVec 9
  flash : Memory
  /-- the flash does not answer a read (R449) -/
  flashBad : Bool
  fwHash : BitVec 512
  bdHash : BitVec 512
  fwMin : Word
  bdMin : Word
  partMin : Word
  secret : BitVec 768
  pubKey : BitVec 512
  measFw : BitVec 512
  measBd : BitVec 512
  measPart : Table (BitVec 512)
  deriving DecidableEq, Repr

/-- The machine. -/
structure State where
  fab : Fabric
  mod : Module
  deriving DecidableEq, Repr

/-- Why the machine stops. -/
inductive Fault where
  /-- Raised by step once a thermal trip has stopped every clock (R442): only a power cycle restarts the module. Safe. -/
  | clockStopped
  /-- Raised by step for a ready set whose context is resident in no slot: no run reaches it, since a context with a ready
  set is not idle and is never evicted (R161). Safe. -/
  | imageMissing
  deriving DecidableEq, Repr

/-- Why an instruction has no meaning. -/
inductive Refusal where
  /-- An instruction that the model does not give a meaning yet, by its mnemonic. Safe. -/
  | notModelled (mnemonic : String)
  deriving DecidableEq, Repr

/-- An empty matched set: what `fire` holds before any issue. -/
def MSet.none : MSet := ⟨0, 0, 0, 0, .none, .none, 0, 0⟩

/-- A failure record with nothing in it. -/
def FailRec.empty : FailRec := ⟨0, 0, 0, 0⟩

/-- An element after reset (R14, R31, R39, R88, R90, R154, R163, R164, R180, R181, R192, R199, R245; log 3, 6). -/
def Element.reset : Element where
  slots := []
  store := []
  parked := []
  parkedToks := []
  ready := []
  probes := []
  missBuf := []
  arrivals := 0
  mem := []
  framedir := 0
  stray := 0
  badtok := 0
  mismatch := 0
  aflags := 0
  aftrap := 0
  srstate := 1
  wins := []
  gens := []
  lodeen0 := 0
  lodeen1 := 0
  weights := []
  sw := []
  acc := []
  landing := []
  mxOn := false
  mxWarm := false
  mxBurst := 0
  mxFmt := 0
  mxWarming := false
  mxSince := false
  scales := []
  hist := []
  selctl := 0
  selk := 0
  selpfx := 0
  delays := []
  loops := []
  commits := []
  pend := []
  nextId := 0
  sink := []
  rmw := []
  defers := []
  owners := []
  dirty := 0
  arrived := 0
  arrivedBy := []
  sentAt := []
  routes := []
  area := []
  offered := []
  outq := []
  cmds := []
  halted := false

/-- A block controller after reset (log 6). -/
def Block.reset : Block where
  regs := []
  anchors := []
  held := []
  csws := []
  waves := 0
  sampledAt := 0
  accStamp := 0
  places := []
  lives := []
  seqs := []
  buffer := []
  waveTab := []
  late := []
  stopped := false
  saved := false
  savedAt := none
  scrubbed := false
  misses := []
  withheld := false

/-- A Geode way after reset: free, GEN 0 (R376). -/
def Way.reset : Way := ⟨0, 0, 0, 0, 0, false, 0, 0, 0, 0, 0, 0, [], 0⟩

/-- An end of a link module after reset. -/
def VEnd.reset : VEnd := ⟨0, 0, [], 0, 0, [], []⟩

/-- A link module after reset; four redundant lanes (log 10). -/
def VModule.reset : VModule := ⟨VEnd.reset, VEnd.reset, 4⟩

/-- A base die after reset (log 4, 6). -/
def BaseDie.reset : BaseDie where
  regs := []
  mem := []
  full := []
  deferred := []
  tlb := []
  walks := []
  walkQ := []
  park := []
  apNext := 0
  apDone := 0
  apAcks := []
  apWait := none
  ways := []
  hands := []
  waitersUsed := 0
  reports := []
  reportLeft := 0
  reportBad := false
  parCache := []
  errs := []
  switching := []
  owed := []
  patrol := 0
  zeroing := []
  mods := []
  queued := []
  outst := []
  reads := []

/-- A line root after reset. -/
def LodeRoot.reset : LodeRoot := ⟨0, 0, 0, 0, false, false, 0, false, false, 0, [], 0, none, 0, 0, 0, [], none, []⟩

/-- A port pair before its first frame. -/
def PortPair.reset : PortPair := ⟨0, 0, [], 0, 0xFFFF⟩

/-- A scale-out port after reset. -/
def OutPort.reset : OutPort := ⟨[], false⟩

/-- A launch window after reset: 64 places free, no counts (R325). -/
def Launch.reset : Launch := ⟨[], 0, 0, 0, 0⟩

/-- The fabric after reset. -/
def Fabric.reset : Fabric where
  els := []
  blks := []
  dies := []
  lode := []
  ports := []
  launch := []
  hostMem := []
  rels := []
  diePart := []
  stackPart := []
  portPart := []
  pkg := 0
  lpc := Config.lpc
  sigStat := 0
  sigMeas := 0
  peers := []
  raws := []
  agenda := []
  sched := []
  clock := 0
  cur := 0
  fire := MSet.none

/-- The module after reset: the sequencer in RESET (R449, R450; log 8, 9). -/
def Module.reset : Module where
  seqState := 0
  seqFail := 0
  seqStacks := 0
  pwrgood := false
  resetHigh := false
  bootsel := 0
  thermtrip := false
  rails := 0
  flash := []
  flashBad := false
  fwHash := 0
  bdHash := 0
  fwMin := 0
  bdMin := 0
  partMin := 0
  secret := 0
  pubKey := 0
  measFw := 0
  measBd := 0
  measPart := []

/-- The machine right after reset. -/
def State.reset : State := ⟨Fabric.reset, Module.reset⟩

end Sys2Proof.Machine
end

