-- ==== Sys2Proof/Machine/Ops.lean ====
section
/-! DEFINITION. Named operations over the state: tables, byte memory, bit fields, tokens, tags, images, the units of the
fabric and where they stand, parking, and taking a trap (R11, R24, R393-R395, R439) as one shared operation. -/

namespace Sys2Proof.Machine

/-! ## Tables -/

/-- The value listed under a key. -/
def tfind {α : Type} (t : Table α) (k : Nat) : Option α :=
  match t with
  | [] => none
  | (j, v) :: r => if j = k then some v else tfind r k

/-- The value under a key, `d` where none is listed. -/
def tget {α : Type} (d : α) (t : Table α) (k : Nat) : α := (tfind t k).getD d

/-- The table with a value under a key. -/
def tset {α : Type} (t : Table α) (k : Nat) (v : α) : Table α :=
  match t with
  | [] => [(k, v)]
  | (j, w) :: r => if j < k then (j, w) :: tset r k v else if j = k then (k, v) :: r else (k, v) :: (j, w) :: r

/-- The table without a key. -/
def tdel {α : Type} (t : Table α) (k : Nat) : Table α := t.filter fun p => p.1 ≠ k

/-! ## Byte memory -/

/-- Canonical form: addresses rising, no listed zero. -/
def Memory.wf : Memory → Bool
  | [] => true
  | (_, b) :: [] => b != 0
  | (a, b) :: (a', b') :: r => b != 0 && decide (a < a') && Memory.wf ((a', b') :: r)

/-- One byte; an unlisted address reads 0 (log 3, 4). -/
def Memory.read (m : Memory) (a : Nat) : Byte :=
  match m with
  | [] => 0
  | (x, b) :: r => if x = a then b else if a < x then 0 else Memory.read r a

/-- One byte written, the canonical form kept. -/
def Memory.write (m : Memory) (a : Nat) (v : Byte) : Memory :=
  match m with
  | [] => if v = 0 then [] else [(a, v)]
  | (x, b) :: r =>
    if x < a then (x, b) :: Memory.write r a v
    else if x = a then (if v = 0 then r else (a, v) :: r)
    else if v = 0 then (x, b) :: r else (a, v) :: (x, b) :: r

/-- n bytes, least significant first (R8). -/
def Memory.readN (m : Memory) (a : Nat) : Nat → Nat
  | 0 => 0
  | n + 1 => (m.read a).toNat + 256 * Memory.readN m (a + 1) n

/-- n bytes of a number, least significant first (R8). -/
def Memory.writeN (m : Memory) (a v : Nat) : Nat → Memory
  | 0 => m
  | n + 1 => Memory.writeN (m.write a (BitVec.ofNat 8 v)) (a + 1) (v / 256) n

/-- An 8-byte word. -/
def Memory.word (m : Memory) (a : Nat) : DWord := BitVec.ofNat 64 (m.readN a 8)

/-- An 8-byte word written. -/
def Memory.setWord (m : Memory) (a : Nat) (v : DWord) : Memory := m.writeN a v.toNat 8

/-- Consecutive 8-byte words. -/
def Memory.words (m : Memory) (a : Nat) : Nat → List DWord
  | 0 => []
  | n + 1 => m.word a :: Memory.words m (a + 8) n

/-- Consecutive 8-byte words written. -/
def Memory.setWords (m : Memory) (a : Nat) : List DWord → Memory
  | [] => m
  | w :: r => Memory.setWords (m.setWord a w) (a + 8) r

/-- A byte string. -/
def Memory.bytes (m : Memory) (a n : Nat) : List Byte := (List.range n).map fun i => m.read (a + i)

/-- The addresses from a below a + n hold zero. -/
def Memory.clear (m : Memory) (a n : Nat) : Memory := m.filter fun c => decide (c.1 < a) || decide (a + n ≤ c.1)

/-! ## Bit fields -/

/-- Bits hi:lo of a word (R7). -/
def fld {n : Nat} (w : BitVec n) (hi lo : Nat) : Nat := w.toNat / 2 ^ lo % 2 ^ (hi + 1 - lo)

/-- Bit i of a word. -/
def bit {n : Nat} (w : BitVec n) (i : Nat) : Bool := w.getLsbD i

/-- A word with bits hi:lo replaced. -/
def setFld {n : Nat} (w : BitVec n) (hi lo v : Nat) : BitVec n :=
  BitVec.ofNat n (w.toNat - fld w hi lo * 2 ^ lo + v % 2 ^ (hi + 1 - lo) * 2 ^ lo)

/-- A 32-bit word of a number. -/
def w32 (n : Nat) : Word := BitVec.ofNat 32 n
/-- A 64-bit word of a number. -/
def w64 (n : Nat) : DWord := BitVec.ofNat 64 n
/-- The count with n added, held at the word's greatest value (the saturating counters of R39, R138, R154, R387). -/
def satAdd {n : Nat} (w : BitVec n) (k : Nat) : BitVec n := BitVec.ofNat n (min (w.toNat + k) (2 ^ n - 1))

/-- A mask of the low n bits (a lane-valid word of n lanes). -/
def lanesMask (n : Nat) : BitVec 32 := BitVec.ofNat 32 (2 ^ n - 1)

/-! ## Tokens (R16-R18) -/

/-- A routing header from its fields (R16). -/
def mkHdr (dest hint slot : Nat) (side : Bool) (fmt len eos : Nat) (vec ord sig trapTok : Bool) : DWord :=
  w64 (dest * 2 ^ 48 + hint * 2 ^ 46 + slot * 2 ^ 41 + side.toNat * 2 ^ 40 + fmt * 2 ^ 36 + (len - 1) * 2 ^ 31
    + eos * 2 ^ 29 + vec.toNat * 2 ^ 28 + ord.toNat * 2 ^ 27 + sig.toNat * 2 ^ 26 + trapTok.toNat * 2 ^ 25)

end Sys2Proof.Machine

namespace Sys2Proof
open Machine

def Tok.slot (t : Tok) : Nat := fld t.hdr 45 41
/-- Side of a token: false A, true B. -/
def Tok.side (t : Tok) : Bool := bit t.hdr 40
def Tok.fmt (t : Tok) : Nat := fld t.hdr 39 36
def Tok.hint (t : Tok) : Nat := fld t.hdr 47 46
def Tok.len (t : Tok) : Nat := fld t.hdr 35 31 + 1
def Tok.eos (t : Tok) : Nat := fld t.hdr 30 29
def Tok.vec (t : Tok) : Bool := bit t.hdr 28
def Tok.ord (t : Tok) : Bool := bit t.hdr 27
def Tok.trapTok (t : Tok) : Bool := bit t.hdr 25
/-- Bits 45:40 of the header, the slot and the side. -/
def Tok.slotSide (t : Tok) : Nat := fld t.hdr 45 40
def Tok.ctx (t : Tok) : Nat := fld t.tag 63 56
/-- The element and the firing of an access. A peer's request carries its order id as the lane, which holds the firing's number. -/
def Req.firing (q : Req) : Nat × Nat := if 131072 ≤ q.el ∧ q.el < 131072 + 65536 * 1024 then (q.el, q.lane % 65536 / 64) else (q.el, q.id)
/-- The context of a claim's request: package, partition, number. -/
def GReq.owner (g : GReq) : Nat × Nat × Nat := (g.pkg, g.part, g.ctx)
/-- Lane k's raw bits. -/
def Tok.lane (t : Tok) (k : Nat) : DWord := t.lanes.getD k 0

end Sys2Proof

namespace Sys2Proof.Machine

/-- DEPTH of a tag (R18). -/
def depth (tag : DWord) : Nat := fld tag 55 52

/-! ## Images (R45-R50) -/

/-- An image's 48 words. -/
abbrev Image := List DWord

def Image.word (m : Image) (i : Nat) : DWord := m.getD i 0
/-- The 32-bit word at byte offset 4i. -/
def Image.half (m : Image) (i : Nat) : Word := BitVec.ofNat 32 ((Image.word m (i / 2)).toNat / 2 ^ (32 * (i % 2)))
/-- The byte at byte offset i. -/
def Image.byte (m : Image) (i : Nat) : Byte := BitVec.ofNat 8 ((Image.word m (i / 8)).toNat / 2 ^ (8 * (i % 8)))
/-- Header word Hi. -/
def Image.h (m : Image) (i : Nat) : DWord := Image.word m i
def Image.ctx (m : Image) : Nat := fld (Image.h m 0) 63 56
def Image.priv (m : Image) : Nat := fld (Image.h m 0) 55 54
def Image.lazy (m : Image) : Bool := bit (Image.h m 0) 53
def Image.roundCode (m : Image) : Nat := fld (Image.h m 0) 50 48
def Image.b8mode (m : Image) : Byte := BitVec.ofNat 8 (fld (Image.h m 0) 47 40)
def Image.wave (m : Image) : Bool := bit (Image.h m 0) 39
def Image.fatik (m : Image) : Bool := bit (Image.h m 0) 38
def Image.exits (m : Image) : Nat := fld (Image.h m 0) 37 36 + 1
def Image.levels (m : Image) : Nat := fld (Image.h m 0) 35 32
def Image.stmask (m : Image) : Word := BitVec.ofNat 32 (Image.h m 0).toNat
/-- The width W(d) of level d, 1 or more (R48). -/
def Image.width (m : Image) (d : Nat) : Nat := fld (Image.h m 1) (4 * d - 1) (4 * d - 4) + 1
/-- The free-list bound of level d (R48). -/
def Image.bound (m : Image) (d : Nat) : Nat := fld (Image.h m 2) (4 * d - 1) (4 * d - 4) + 1
def Image.poolSize (m : Image) : Nat := fld (Image.h m 3) 63 56
def Image.frame (m : Image) : Word := BitVec.ofNat 32 (Image.h m 3).toNat
def Image.trapd (m : Image) : Word := BitVec.ofNat 32 (Image.h m 4).toNat
def Image.used (m : Image) : Word := BitVec.ofNat 32 (Image.h m 5).toNat
/-- The instruction word of slot s. -/
def Image.instr (m : Image) (s : Nat) : Word := Image.half m (16 + s)
/-- Literal Kj. -/
def Image.lit (m : Image) (j : Nat) : Word := Image.half m (48 + j)
/-- The type code of Kj (R46). -/
def Image.litType (m : Image) (j : Nat) : Nat := fld (Image.word m 32) (4 * j + 3) (4 * j)
/-- Destination-table entry Dj (R43). -/
def Image.dest (m : Image) (j : Nat) : Word := Image.half m (68 + j)
/-- The slot-format byte of slot s (R50). -/
def Image.fmtByte (m : Image) (s : Nat) : Byte := Image.byte m (0x150 + s)
def Image.fin (m : Image) (s : Nat) : Nat := fld (Image.fmtByte m s) 7 4
def Image.fout (m : Image) (s : Nat) : Nat := fld (Image.fmtByte m s) 3 0
/-- Is slot s in use? -/
def Image.uses (m : Image) (s : Nat) : Bool := bit (Image.used m) s

/-- The lowest bit of level d's field: level 1 lies lowest (R19). -/
def Image.fieldLo (m : Image) : Nat → Nat
  | 0 => 0
  | 1 => 0
  | d + 2 => Image.fieldLo m (d + 1) + Image.width m (d + 1)

/-- The field of level d in a tag. -/
def Image.level (m : Image) (tag : DWord) (d : Nat) : Nat :=
  fld tag (Image.fieldLo m d + Image.width m d - 1) (Image.fieldLo m d)

/-- Field Fj of a tag: level DEPTH - j; zero for j at or above DEPTH (R19). -/
def Image.f (m : Image) (tag : DWord) (j : Nat) : Nat :=
  if j < depth tag then Image.level m tag (depth tag - j) else 0

/-- A tag with level d's field replaced by the low W(d) bits of v. -/
def Image.setLevel (m : Image) (tag : DWord) (d v : Nat) : DWord :=
  setFld tag (Image.fieldLo m d + Image.width m d - 1) (Image.fieldLo m d) v

/-- A tag with F0 replaced; at depth 0 there is no field. -/
def Image.setF0 (m : Image) (tag : DWord) (v : Nat) : DWord :=
  if depth tag = 0 then tag else Image.setLevel m tag (depth tag) v

/-- A tag with a field pushed (R137). -/
def Image.push (m : Image) (tag : DWord) (v : Nat) : DWord :=
  Image.setLevel m (setFld tag 55 52 (depth tag + 1)) (depth tag + 1) v

/-- A tag with its inner field popped, zero bits left behind (R137). -/
def Image.pop (m : Image) (tag : DWord) : DWord :=
  if depth tag = 0 then tag else setFld (Image.setLevel m tag (depth tag) 0) 55 52 (depth tag - 1)

/-- The largest value F0 of a tag can hold (R27). -/
def Image.f0Max (m : Image) (tag : DWord) : Nat := 2 ^ Image.width m (depth tag) - 1

/-! ## Units -/

def Fabric.el (f : Fabric) (k : Nat) : Element := tget Element.reset f.els k
def Fabric.setEl (f : Fabric) (k : Nat) (e : Element) : Fabric := { f with els := tset f.els k e }
def Fabric.modEl (f : Fabric) (k : Nat) (g : Element → Element) : Fabric := f.setEl k (g (f.el k))
def Fabric.blk (f : Fabric) (k : Nat) : Block := tget Block.reset f.blks k
def Fabric.setBlk (f : Fabric) (k : Nat) (b : Block) : Fabric := { f with blks := tset f.blks k b }
def Fabric.modBlk (f : Fabric) (k : Nat) (g : Block → Block) : Fabric := f.setBlk k (g (f.blk k))
def Fabric.die (f : Fabric) (k : Nat) : BaseDie := tget BaseDie.reset f.dies k
def Fabric.setDie (f : Fabric) (k : Nat) (d : BaseDie) : Fabric := { f with dies := tset f.dies k d }
def Fabric.modDie (f : Fabric) (k : Nat) (g : BaseDie → BaseDie) : Fabric := f.setDie k (g (f.die k))
def Fabric.root (f : Fabric) (n : Nat) : LodeRoot := tget LodeRoot.reset f.lode n
def Fabric.modRoot (f : Fabric) (n : Nat) (g : LodeRoot → LodeRoot) : Fabric := { f with lode := tset f.lode n (g (f.root n)) }
def Fabric.portAt (f : Fabric) (n : Nat) : OutPort := tget OutPort.reset f.ports n
def Fabric.modPort (f : Fabric) (n : Nat) (g : OutPort → OutPort) : Fabric := { f with ports := tset f.ports n (g (f.portAt n)) }
/-- The pair of port n and package d. -/
def Fabric.pairAt (f : Fabric) (n d : Nat) : PortPair := tget PortPair.reset (f.portAt n).pairs d
def Fabric.modPair (f : Fabric) (n d : Nat) (g : PortPair → PortPair) : Fabric :=
  f.modPort n fun o => { o with pairs := tset o.pairs d (g (tget PortPair.reset o.pairs d)) }
def Fabric.launchOf (f : Fabric) (p : Nat) : Launch := tget Launch.reset f.launch p
def Fabric.modLaunch (f : Fabric) (p : Nat) (g : Launch → Launch) : Fabric := { f with launch := tset f.launch p (g (f.launchOf p)) }

/-- An event joins the end of the agenda (log 1). -/
def Fabric.post (f : Fabric) (i : Ev) : Fabric := { f with agenda := f.agenda ++ [i] }

/-- Several events join the agenda in order. -/
def Fabric.postAll (f : Fabric) (is : List Ev) : Fabric := { f with agenda := f.agenda ++ is }

/-- The sender and the anchor of a credit, pool or CSW message. -/
def anchorPair : Ev → Option (Nat × Nat)
  | .levelCreditRequest bk el _ _ _ => some (bk, el)
  | .poolRequest bk el _ _ _ => some (bk, el)
  | .levelCreditReturn w _ _ => some (w.bk, w.el)
  | .poolReturn w _ _ => some (w.bk, w.el)
  | .cswRequest bk el _ => some (bk, el)
  | _ => none

/-- Work of the signer (R452). -/
def isSigner : Ev → Bool
  | .signerCheck _ _ => true
  | .signerClear _ => true
  | .attestReportSigned _ _ => true
  | _ => false

/-- Do two frames lie in one 64-byte line? -/
def sameLine (x y : Frame) : Bool :=
  match x, y with
  | .stack a o, .stack b p => decide (a = b) && decide (o / 64 = p / 64)
  | .host a, .host b => decide (a / 64 = b / 64)
  | _, _ => false

/-- Two events that keep their order: the results an element sends to itself, which arrive in the cycle after their issue
(R21); tokens of one stream route and accesses of one sender over one route (R203); scale tokens for one slot (R165, R234); an
element's messages to one anchor, and its anchor's grants to it, which all travel alike (R136, R160); the accesses of one firing at one base die, over
the stripe or at one peer (R213); the signer's work, which it takes in arrival order (R452); requests that a base die passes on for one line (R365, R433); aperture stores of one firing, and those that one base die is to
apply (R360); a claim's request and the notice of its context's end (R386); blocks and
messages of one link module (R423). Where the fields of an event do not tell two senders apart, the model keeps the order of
more events than the rule does (log 39). -/
def sameOrder (x y : Ev) : Bool :=
  match x, y with
  | .tokenArrive a .loopback _, .tokenArrive b .loopback _ => decide (a = b)
  | .tokenArrive a .stream t, .tokenArrive b .stream u => decide (a = b) && decide (Tok.slotSide t = Tok.slotSide u)
  | .scaleTokenArrive a t, .scaleTokenArrive b u => decide (a = b) && decide (t.slot = u.slot)
  | .grantArrive a _ _, .grantArrive b _ _ => decide (a = b)
  | .routeAccess _ _ q, .routeAccess _ _ r => decide (q.el = r.el) && decide (q.route = r.route)
  | .stripeAccess q, .stripeAccess r => decide (q.firing = r.firing)
  | .peerAccess a q, .peerAccess b r => decide (a = b) && decide (q.firing = r.firing)
  | .translationRequest a q, .translationRequest b r => decide (a = b) && decide (q.firing = r.firing)
  | .channelRequest a x q, .channelRequest b y r => (decide (a = b) && decide (q.firing = r.firing)) || sameLine x y
  | .apertureStore q, .apertureStore r => decide (q.firing = r.firing)
  | .tableApply a _, .tableApply b _ => decide (a = b)
  | .volwinBlockReceive a m x, .volwinBlockReceive b n y => decide (a = b) && decide (m = n) && x.toDie == y.toDie
  | .volwinMessage a m x _, .volwinMessage b n y _ => decide (a = b) && decide (m = n) && x == y
  | .signerCheck _ _, y => isSigner y
  | .signerClear _, y => isSigner y
  | .attestReportSigned _ _, y => isSigner y
  | .geodeSliceOperation a g, .contextEndNotice b p r c => decide (a = b) && decide (g.owner = (p, r, c))
  | .contextEndNotice b p r c, .geodeSliceOperation a g => decide (a = b) && decide (g.owner = (p, r, c))
  | x, y => match anchorPair x, anchorPair y with
    | some p, some q => decide (p = q)
    | _, _ => false

/-- An event that did not move is tried again after the others of the agenda; those that it may not be overtaken by stay behind
it (R24, R35, R203). -/
def Fabric.holdBack (f : Fabric) (i : Ev) : Fabric :=
  { f with agenda := f.agenda.filter (fun x => !sameOrder i x) ++ i :: f.agenda.filter (sameOrder i) }

/-! ## Where a unit stands (R15, R420, R448) -/

/-- Is the key that of a Fatik element? -/
def isFatik (el : Nat) : Bool := decide (65536 ≤ el)
def fatikKey (sd n : Nat) : Nat := 65536 + 4 * sd + n
def fatikStack (el : Nat) : Nat := (el - 65536) / 4
def fatikNum (el : Nat) : Nat := (el - 65536) % 4
def dieOf (el : Nat) : Nat := el / 4096
def colOf (el : Nat) : Nat := el / 64 % 64
def rowOf (el : Nat) : Nat := el % 64
/-- Package column X and row Y of an element (R15). -/
def pkgX (el : Nat) : Nat := 64 * (dieOf el % 4) + colOf el
def pkgY (el : Nat) : Nat := 64 * (dieOf el / 4) + rowOf el
/-- The element at package column X and row Y. -/
def elAt (x y : Nat) : Nat := (4 * (y / 64) + x / 64) * 4096 + x % 64 * 64 + y % 64
/-- Package block number of an element (R134). -/
def blockOf (el : Nat) : Nat := 64 * dieOf el + 8 * (rowOf el / 8) + colOf el / 8
/-- The element numbered e = 8 (y mod 8) + (x mod 8) of a block (R157, R349). -/
def blockEl (bk e : Nat) : Nat :=
  bk / 64 * 4096 + (8 * (bk % 8) + e % 8) * 64 + (8 * (bk % 64 / 8) + e / 8)
/-- The 64 elements of a block. -/
def blockEls (bk : Nat) : List Nat := (List.range 64).map (blockEl bk)
/-- Package block column and row of a block. -/
def blockX (bk : Nat) : Nat := 8 * (bk / 64 % 4) + bk % 8
def blockY (bk : Nat) : Nat := 8 * (bk / 64 / 4) + bk % 64 / 8
/-- The partition of a die or a stack (log 5). -/
def Fabric.partOfDie (f : Fabric) (die : Nat) : Nat := tget 0 f.diePart die
def Fabric.partOfStack (f : Fabric) (sd : Nat) : Nat := tget 0 f.stackPart sd
/-- The partition of an element. -/
def Fabric.partOf (f : Fabric) (el : Nat) : Nat :=
  if isFatik el then f.partOfStack (fatikStack el) else f.partOfDie (dieOf el)
/-- The block whose registers serve an element: its own, or for a Fatik element, which stands in none, the lowest of its partition.
System software writes BK.GEODE and BK.STRIPE alike in every block of a partition (R204, R374), so that any of them would do; no
rule names one for a Fatik element (DESIGN CHOICE, log 43). -/
def Fabric.regBlk (f : Fabric) (el : Nat) : Nat :=
  if isFatik el then 64 * ((List.range 16).find? fun d => f.partOfDie d = f.partOf el).getD 0 else blockOf el
/-- The store buffer that takes an element's wave-ordered accesses (R227): its block's, and for a Fatik element, which stands in no
block, one of its own (DESIGN CHOICE, log 43), kept under a number above those of the blocks. -/
def bufOf (el : Nat) : Nat := if isFatik el then 1024 + (el - 65536) else blockOf el
/-- Is the image of an element's block written, so that no access may change the element any more (R353)? -/
def Fabric.written (f : Fabric) (el : Nat) : Bool := !isFatik el && (f.blk (blockOf el)).saved
/-- The partition of a block. -/
def Fabric.partOfBlk (f : Fabric) (bk : Nat) : Nat := f.partOfDie (bk / 64)
/-- A partition's dies, stacks and blocks, ascending. -/
def Fabric.diesOf (f : Fabric) (p : Nat) : List Nat := (List.range 16).filter fun d => f.partOfDie d = p
def Fabric.stacksOf (f : Fabric) (p : Nat) : List Nat := (List.range 24).filter fun s => f.partOfStack s = p
def Fabric.blksOf (f : Fabric) (p : Nat) : List Nat := (List.range 1024).filter fun b => f.partOfBlk b = p

/-! ## Block and base-die registers (R400, R419) -/

/-- The reset value of a BK register: 64 free places, contexts active, all else zero (R158, R325). -/
def bkReset (num : Nat) : DWord :=
  if 0x10 ≤ num ∧ num ≤ 0x17 then 0xFFFFFFFF else 0

/-- A BK register. -/
def Fabric.bk (f : Fabric) (b num : Nat) : DWord := tget (bkReset num) (f.blk b).regs num

/-- A BK register written. -/
def Fabric.setBk (f : Fabric) (b num : Nat) (v : DWord) : Fabric := f.modBlk b fun x => { x with regs := tset x.regs num v }

/-- The reset value of a BD register (R427, R434, R432, R421), LPC being that of the package's stacks. -/
def bdReset (lpc num : Nat) : DWord :=
  if num = 0x200 then w64 (lpc * 2 ^ 32)
  else if num = 0x201 then 0xFFFFFFFF
  else if num = 0x210 then w64 (95 * 2 ^ 24 + 85 * 2 ^ 16 + 2)
  else if num = 0x211 then 0xAAAAAAAAAAAAAAAA
  else if num = 0x219 then w64 (2 ^ 31 + 24)
  else if num = 0x220 then w64 (0x3FF * 2 ^ 32)
  else 0

/-- A BD register. -/
def Fabric.bd (f : Fabric) (sd num : Nat) : DWord := tget (bdReset f.lpc num) (f.die sd).regs num

/-- A BD register written. -/
def Fabric.setBd (f : Fabric) (sd num : Nat) (v : DWord) : Fabric := f.modDie sd fun x => { x with regs := tset x.regs num v }

/-- The anchor block of an element's region, if its block is bound to one (R134). A Fatik element has none. -/
def Fabric.anchorOf (f : Fabric) (el : Nat) : Option Nat :=
  if isFatik el then none
  else if bit (f.bk (blockOf el) 0) 31 then some (fld (f.bk (blockOf el) 0) 9 0) else none

/-- The blocks of the region that names an anchor (R134). -/
def Fabric.regionBlks (f : Fabric) (anchor : Nat) : List Nat :=
  (List.range 1024).filter fun b => bit (f.bk b 0) 31 && decide (fld (f.bk b 0) 9 0 = anchor)

/-- A context's active bit in one block's copy. -/
def Fabric.activeIn (f : Fabric) (b ctx : Nat) : Bool := bit (f.bk b (0x10 + ctx / 32)) (ctx % 32)

/-- Is a context active in a block (R158)? The anchor's copy governs the region; the block's own copy can hold it back besides
(HOLD of R162), so the model asks for both bits (log 40). -/
def Fabric.active (f : Fabric) (b ctx : Nat) : Bool :=
  f.activeIn b ctx && (!bit (f.bk b 0) 31 || f.activeIn (fld (f.bk b 0) 9 0) ctx)

/-- A context's active bit in a block written. -/
def Fabric.setActive (f : Fabric) (b ctx : Nat) (on : Bool) : Fabric :=
  f.setBk b (0x10 + ctx / 32) (setFld (f.bk b (0x10 + ctx / 32)) (ctx % 32) (ctx % 32) on.toNat)

/-- Region waves run for an element's region: the next one is on the agenda (R253). -/
def Fabric.askWave (f : Fabric) (el : Nat) : Fabric :=
  match f.anchorOf el with
  | none => f
  | some an => if f.agenda.contains (.regionWave an) then f else f.post (.regionWave an)

/-! ## Element memory (R190, R347) -/

/-- The bank of an element address (R190). -/
def bankOf (a : Nat) : Nat := a / 8 % 96
/-- The dirty bits with those of the banks that n bytes at an address touch set. -/
def markBanks (d : BitVec 96) (a : Nat) : Nat → BitVec 96
  | 0 => d
  | n + 1 => markBanks d (a + 1) n ||| (1 : BitVec 96) <<< bankOf a
/-- n bytes written to element memory: each bank touched becomes dirty (R347). -/
def Element.putN (e : Element) (a v n : Nat) : Element := { e with mem := e.mem.writeN a v n, dirty := markBanks e.dirty a n }
/-- One byte written to element memory. -/
def Element.putByte (e : Element) (a : Nat) (v : Byte) : Element := e.putN a v.toNat 1
/-- An 8-byte word written to element memory. -/
def Element.putWord (e : Element) (a : Nat) (v : DWord) : Element := e.putN a v.toNat 8
/-- Consecutive 8-byte words written to element memory. -/
def Element.putWords (e : Element) (a : Nat) : List DWord → Element
  | [] => e
  | w :: r => Element.putWords (e.putWord a w) (a + 8) r
/-- n bytes of element memory zeroed, in whole words from an 8-byte boundary. -/
def Element.zeroMem (e : Element) (a n : Nat) : Element :=
  { e with mem := e.mem.clear a n, dirty := markBanks e.dirty a (min n 768) }

/-! ## Residence -/

/-- The resident slot that holds a context, lowest first (R28). -/
def Element.slotOf (e : Element) (ctx : Nat) : Option Nat := (e.slots.find? fun p => p.2.ctx = ctx).map (·.1)

/-- The resident record of a context. -/
def Element.residentOf (e : Element) (ctx : Nat) : Option Resident := (e.slots.find? fun p => p.2.ctx = ctx).map (·.2)

/-- The image of a context, empty where it is not resident. -/
def Element.imageOf (e : Element) (ctx : Nat) : Image := ((e.residentOf ctx).map (·.image)).getD []

/-- Does a context have a ready or parked set, a token under probe, or an issued firing that still runs here (R161: not idle)? -/
def Element.busy (e : Element) (ctx : Nat) : Bool :=
  e.ready.any (fun s => s.ctx = ctx) || e.parked.any (fun p => p.set.ctx = ctx) || e.pend.any (fun p => p.set.ctx = ctx)
    || e.parkedToks.any (fun p => p.tok.ctx = ctx) || e.probes.any (fun p => p.1.tok.ctx = ctx)
    || e.delays.any (fun p => p.2.set.ctx = ctx) || e.loops.any (fun p => p.pend.set.ctx = ctx)

/-! ## Parking and traps -/

/-- Matched sets inserted by rising stamp: the ready queue holds its sets in stamp order (R24). -/
def insertSet (s : MSet) : List MSet → List MSet
  | [] => [s]
  | x :: r => if x.stamp ≤ s.stamp then x :: insertSet s r else s :: x :: r

/-- Has a set issued before, and an answer to its trap, its barrier or its call sent it on? No token record keeps the answer, so it is
one of the issued firings that a SAVE lets retire (R348; DEDUCED, log 16). -/
def MSet.answered (s : MSet) : Bool := [2, 3, 6, 8, 9, 10].contains s.note

/-- A set is put into the ready queue. -/
def Element.toReady (e : Element) (s : MSet) : Element := { e with ready := insertSet s e.ready }

/-- The parked sets that meet a test re-enter the ready queue with their stamps (R24). -/
def Element.wake (e : Element) (p : Parked → Bool) : Element :=
  let go := e.parked.filter p
  { e with parked := e.parked.filter fun x => !p x, ready := go.foldl (fun r x => insertSet x.set r) e.ready }

/-- Every set parked for a reason is examined again (R339, R198). -/
def Fabric.wakeFor (f : Fabric) (el : Nat) (r : ParkReason) : Fabric :=
  f.modEl el fun e => e.wake fun x => x.reason == r

end Sys2Proof.Machine

namespace Sys2Proof

/-- The code of a cause (R393). -/
def Cause.code : Cause → Nat
  | .stalled => 0 | .illegal => 1 | .format => 2 | .page => 3 | .access => 4 | .writeOnce => 5 | .stratum => 6
  | .relFull => 7 | .spillFull => 8 | .tagStarve => 9 | .align => 10 | .lode => 11 | .claim => 12 | .arith => 13
  | .priv => 14 | .data => 15 | .hcall => 0x80

/-- The cause with a code of 1 to 15 (R403). -/
def Cause.ofCode (n : Nat) : Option Cause :=
  match n with
  | 1 => some .illegal | 2 => some .format | 3 => some .page | 4 => some .access | 5 => some .writeOnce
  | 6 => some .stratum | 7 => some .relFull | 8 => some .spillFull | 9 => some .tagStarve | 10 => some .align
  | 11 => some .lode | 12 => some .claim | 13 => some .arith | 14 => some .priv | 15 => some .data
  | _ => none

end Sys2Proof

namespace Sys2Proof.Machine

/-- The three lanes of a trap record (R394). -/
def recordLanes (tag : DWord) (cause : Cause) (el slot : Nat) (away : Bool) (info : Word) (arg : DWord) : List DWord :=
  [tag, w64 (cause.code * 2 ^ 56 + el % 65536 * 2 ^ 40 + slot * 2 ^ 35 + away.toNat * 2 ^ 32 + info.toNat), arg]

/-- The target of a record: the trap destination, or BK.HCALLT where it lies outside the partition (R395). -/
def Fabric.recordTarget (f : Fabric) (el : Nat) (entry : Word) : Word :=
  let hc : Word := BitVec.ofNat 32 (f.bk 0 9).toNat
  if f.partOfDie (fld entry 27 24) = f.partOf el then entry else hc

/-- A record leaves for a target entry as a signal token under the firing tag of its lane 0 (R394, R395); an entry that is no
token target takes none. -/
def Fabric.sendRecord (f : Fabric) (entry : Word) (lanes : List DWord) : Fabric :=
  if fld entry 31 30 = 1 then
    f.post (.tokenArrive (fld entry 27 12) .signal
      ⟨mkHdr (fld entry 27 12) (fld entry 11 10) (fld entry 9 5) (bit entry 4) 7 3 0 true false true true, 7, lanes.getD 0 0, lanes⟩)
  else f

/-- A trap record of a context is sent to the trap destination of its image (R395). -/
def Fabric.report (f : Fabric) (el ctx : Nat) (lanes : List DWord) : Fabric :=
  f.sendRecord (f.recordTarget el (Image.trapd ((f.el el).imageOf ctx))) lanes

/-- A firing waiting for answers, by its id. -/
def Element.pendOf (e : Element) (id : Nat) : Option Pend := e.pend.find? fun p => p.id = id

/-- The slot of a record as an information word (R393). -/
def Pend.slotW (p : Pend) : Word := w32 p.set.slot

/-- The slot of the firing that a request belongs to, as an information word (R393); a peer's package knows its own. -/
def Fabric.slotInfo (f : Fabric) (q : Req) : Word :=
  match (f.el q.el).pendOf q.id with
  | some p => p.slotW
  | none => 0xFFFFFFFF

/-- Every command of a Fatik element is answered with DATA and the element stops, its HALT bit set (R439). -/
def Fabric.haltFatik (f : Fabric) (el : Nat) : Fabric :=
  let cs := (f.el el).cmds
  let f := f.modEl el fun e => { e with halted := true, cmds := [] }
  let sd := fatikStack el
  let f := f.setBd sd 0x22C (setFld (f.bd sd 0x22C) (fatikNum el) (fatikNum el) 1)
  cs.foldl (fun f c => f.post (.faultAnswer c.1 .data (f.slotInfo c.1))) f

/-- The word of a set's slot as the resident image holds it. -/
def Fabric.slotWord (f : Fabric) (el : Nat) (s : MSet) : Word := Image.instr ((f.el el).imageOf s.ctx) s.slot

/-- TAKING A TRAP. The set parks with its cause and the word that raised it, and a record goes to its context's handler (R11, R393-R395),
that of a hypervisor call with its argument to BK.HCALLT (R406); a Fatik element stops instead (R439). A set that parks while all 64
matching-store entries are in use parks beyond them and moves nothing (DESIGN CHOICE, log 49). -/
def takeTrap (f : Fabric) (el : Nat) (s : MSet) (c : Cause) (info : Word) : Fabric :=
  if isFatik el then f.haltFatik el
  else
    let f := f.modEl el fun e => { e with parked := e.parked ++ [⟨s, .trap, c, info, (f.slotWord el s).toNat⟩] }
    if c = .hcall then f.sendRecord (BitVec.ofNat 32 (f.bk 0 9).toNat) (recordLanes s.tag c el s.slot false info s.arg)
    else f.report el s.ctx (recordLanes s.tag c el s.slot false info 0)

/-- THE RETURN FROM A TRAP by RESUME: the set re-enters the ready queue with its original stamp (R24, R404). -/
def resumeSet (f : Fabric) (el : Nat) (p : Parked) (note : Nat) : Fabric :=
  f.modEl el fun e => { e with parked := e.parked.erase p, ready := insertSet { p.set with note := note } e.ready }

/-- A set parks for a reason other than a trap (R24). -/
def parkSet (f : Fabric) (el : Nat) (s : MSet) (r : ParkReason) (on : Nat) : Fabric :=
  f.modEl el fun e => { e with parked := e.parked ++ [⟨s, r, .stalled, 0, on⟩] }

/-- A firing's record replaced. -/
def Element.setPend (e : Element) (p : Pend) : Element :=
  { e with pend := e.pend.map fun x => if x.id = p.id then p else x }

/-- A firing's record removed. -/
def Element.dropPend (e : Element) (id : Nat) : Element := { e with pend := e.pend.filter fun x => x.id ≠ id }

/-- A trap found after issue or away from the element: the firing keeps its record, with the parked access in it, and the
trap record is sent (R231, R366, R396). -/
def parkAccess (f : Fabric) (el id : Nat) (a : PAcc) : Fabric :=
  match (f.el el).pendOf id with
  | none => f
  | some p =>
    if isFatik el && decide (a.reason = .trap) then f.haltFatik el
    else
      let f := f.modEl el fun e => e.setPend { p with accs := p.accs ++ [a] }
      if a.reason = .trap then f.report el p.set.ctx (recordLanes p.set.tag a.cause el p.set.slot a.away a.info 0) else f

end Sys2Proof.Machine
end

