-- ==== Sys2Proof/Machine/Formats.lean ====
section
/-! DEFINITION. The number formats to the bit (R70-R80), exact values, and the one rounding of a result (R84-R88, R95). -/

namespace Sys2Proof

/-- The format of a code (R62); 0xF names none. -/
def Fmt.ofCode (n : Nat) : Option Fmt :=
  match n with
  | 0 => some .i8 | 1 => some .i16 | 2 => some .i32 | 3 => some .i64 | 4 => some .n8 | 5 => some .n16 | 6 => some .n32
  | 7 => some .n64 | 8 => some .f16 | 9 => some .bf16 | 10 => some .f32 | 11 => some .b8 | 12 => some .mxb8
  | 13 => some .mxi8 | 14 => some .fx64 | _ => none

/-- The code of a format. -/
def Fmt.code : Fmt → Nat
  | .i8 => 0 | .i16 => 1 | .i32 => 2 | .i64 => 3 | .n8 => 4 | .n16 => 5 | .n32 => 6 | .n64 => 7 | .f16 => 8 | .bf16 => 9
  | .f32 => 10 | .b8 => 11 | .mxb8 => 12 | .mxi8 => 13 | .fx64 => 14

/-- The width of a format in bits. -/
def Fmt.width : Fmt → Nat
  | .i8 | .n8 | .b8 | .mxb8 | .mxi8 => 8
  | .i16 | .n16 | .f16 | .bf16 => 16
  | .i32 | .n32 | .f32 => 32
  | .i64 | .n64 | .fx64 => 64

/-- Class INT of R62: I8 to N64. -/
def Fmt.isInt (f : Fmt) : Bool := decide (f.code < 8)
/-- Class NAT of R62. -/
def Fmt.isNat (f : Fmt) : Bool := decide (4 ≤ f.code) && decide (f.code < 8)
/-- Class FLT of R62. -/
def Fmt.isFlt (f : Fmt) : Bool := f == .f16 || f == .bf16 || f == .f32
/-- Class FLTB of R62. -/
def Fmt.isFltB (f : Fmt) : Bool := f.isFlt || f == .b8
/-- Class MX of R62. -/
def Fmt.isMx (f : Fmt) : Bool := f == .mxb8 || f == .mxi8
/-- Class INTX of R62. -/
def Fmt.isIntX (f : Fmt) : Bool := f.isInt || f == .fx64
/-- Is a format read as a signed number (R109)? -/
def Fmt.signed (f : Fmt) : Bool := decide (f.code < 4) || f == .fx64
/-- The 8-bit conversion targets, where SR acts (R84). -/
def Fmt.narrow (f : Fmt) : Bool := decide (f.width = 8)

end Sys2Proof

namespace Sys2Proof.Machine

/-- The width of a format code; 0 for code 0xF. -/
def codeWidth (n : Nat) : Nat := ((Fmt.ofCode n).map Fmt.width).getD 0

/-- The low w bits of a word. -/
def trunc (w : Nat) (x : DWord) : DWord := w64 (x.toNat % 2 ^ w)

/-! ## Integers (R70, R71, R110) -/

/-- Raw bits read as a signed number of width w. -/
def sint (w : Nat) (x : DWord) : Int :=
  let n := x.toNat % 2 ^ w
  if n < 2 ^ (w - 1) then n else (n : Int) - 2 ^ w

/-- Raw bits read as a number of an integer format or FX64. -/
def readInt (f : Fmt) (x : DWord) : Int := if f.signed then sint f.width x else (x.toNat % 2 ^ f.width : Nat)

/-- The least and greatest number of an integer format or FX64. -/
def intMin (f : Fmt) : Int := if f.signed then -(2 ^ (f.width - 1) : Int) else 0
def intMax (f : Fmt) : Int := if f.signed then 2 ^ (f.width - 1) - 1 else 2 ^ f.width - 1

/-- The low w bits of an integer (R110). -/
def keepBits (w : Nat) (v : Int) : DWord := w64 (v % (2 ^ w : Int)).toNat

/-- Is an integer in a format's range? -/
def inRange (f : Fmt) (v : Int) : Bool := decide (intMin f ≤ v) && decide (v ≤ intMax f)

/-- An integer clamped to a format's range. -/
def clampInt (f : Fmt) (v : Int) : Int := max (intMin f) (min (intMax f) v)

/-! ## Flags (R89, R90) -/

/-- The six flags, laid out as EL.AFLAGS bits 5:0. -/
abbrev Flags := BitVec 6
def flIV : Flags := 1
def flDZ : Flags := 2
def flOF : Flags := 4
def flUF : Flags := 8
def flNX : Flags := 16
def flSAT : Flags := 32

/-- Flags under a condition. -/
def flagIf (b : Bool) (f : Flags) : Flags := if b then f else 0

/-! ## Exact values -/

/-- An exact rational n/d. -/
structure Q where
  n : Int
  d : Nat
  deriving DecidableEq, Repr

def Q.add (a b : Q) : Q := ⟨a.n * b.d + b.n * a.d, a.d * b.d⟩
def Q.mul (a b : Q) : Q := ⟨a.n * b.n, a.d * b.d⟩
def Q.neg (a : Q) : Q := ⟨-a.n, a.d⟩
def Q.ofInt (i : Int) : Q := ⟨i, 1⟩
/-- 2^k. -/
def pow2 (k : Int) : Q := if 0 ≤ k then ⟨2 ^ k.toNat, 1⟩ else ⟨1, 2 ^ (-k).toNat⟩
/-- a < b. -/
def Q.lt (a b : Q) : Bool := decide (a.n * b.d < b.n * a.d)

/-- A value of a float format: NaN (signalling or quiet), infinity, zero, or a finite non-zero number. -/
inductive FV where
  | nan (sig : Bool)
  | inf (neg : Bool)
  | zero (neg : Bool)
  | fin (q : Q)
  deriving DecidableEq, Repr

def FV.isNan : FV → Bool | .nan _ => true | _ => false
def FV.isSig : FV → Bool | .nan s => s | _ => false
/-- The sign of a value; NaN counts as positive. -/
def FV.neg : FV → Bool | .nan _ => false | .inf s => s | .zero s => s | .fin q => decide (q.n < 0)

/-- A float format's parameters: trailing bits, bias, width, signedness, infinities, negative zero, special codes. -/
structure FP where
  t : Nat
  bias : Nat
  w : Nat
  signed : Bool
  hasInf : Bool
  negZero : Bool
  nan : Nat
  inf : Nat
  maxFin : Nat
  deriving DecidableEq, Repr

/-- A B8 variant's parameters from the B8 mode byte (R47, R74-R78). -/
def b8Params (m : Byte) : FP :=
  let p := max 1 (fld m 2 0)
  let i := bit m 3
  if bit m 4 then ⟨p - 1, 2 ^ (8 - p), 8, false, i, false, 0xFF, 0xFE, if i then 0xFD else 0xFE⟩
  else ⟨p - 1, 2 ^ (7 - p), 8, true, i, false, 0x80, 0x7F, if i then 0x7E else 0x7F⟩

/-- A float format's parameters (R72, R74); MXB8 elements are B8 values (R79). -/
def fparams (f : Fmt) (m : Byte) : FP :=
  match f with
  | .f16 => ⟨10, 15, 16, true, true, true, 0x7E00, 0x7C00, 0x7BFF⟩
  | .bf16 => ⟨7, 127, 16, true, true, true, 0x7FC0, 0x7F80, 0x7F7F⟩
  | .f32 => ⟨23, 127, 32, true, true, true, 0x7FC00000, 0x7F800000, 0x7F7FFFFF⟩
  | _ => b8Params m

/-- Sign bit of a code. -/
def FP.signOf (p : FP) (x : Nat) : Bool := p.signed && decide (x / 2 ^ (p.w - 1) % 2 = 1)
/-- Magnitude code. -/
def FP.magOf (p : FP) (x : Nat) : Nat := if p.signed then x % 2 ^ (p.w - 1) else x % 2 ^ p.w

/-- The value of a magnitude code as a rational (R74). -/
def FP.magVal (p : FP) (c : Nat) : Q :=
  let e := c / 2 ^ p.t
  let t := c % 2 ^ p.t
  if e = 0 then Q.mul ⟨t, 1⟩ (pow2 (1 - p.bias - p.t)) else Q.mul ⟨(2 ^ p.t + t : Nat), 1⟩ (pow2 ((e : Int) - p.bias - p.t))

/-- The value of raw bits in a float format (R72-R75). -/
def fread (p : FP) (x : DWord) : FV :=
  let n := x.toNat % 2 ^ p.w
  let s := p.signOf n
  let m := p.magOf n
  if p.negZero then
    if p.inf < m then .nan (decide (m / 2 ^ (p.t - 1) % 2 = 0))
    else if m = p.inf then .inf s
    else if m = 0 then .zero s
    else .fin (if s then (p.magVal m).neg else p.magVal m)
  else if n = p.nan then .nan false
  else if p.hasInf && m = p.inf then .inf s
  else if m = 0 then .zero false
  else .fin (if s then (p.magVal m).neg else p.magVal m)

/-! ## Rounding (R84-R88) -/

/-- One xorshift step of the SR state (R87). -/
def srStep (x : Word) : Word :=
  let x := x ^^^ (x <<< 13)
  let x := x ^^^ (x >>> 17)
  x ^^^ (x <<< 5)

/-- Does a magnitude lying rem/den above its lower neighbour go up? `odd` says the lower neighbour's code is odd.
Answers the choice and the SR state after it. The neighbours are those of the unbounded exponent range: a magnitude that lies on that grid
beyond the greatest finite value is no inexact lane of R87 and does not advance the state (DEDUCED, log 20). -/
def roundUp (m : Round) (neg odd : Bool) (rem den : Nat) (sr : Word) : Bool × Word :=
  if rem = 0 then (false, sr) else
  match m with
  | .rne => (decide (den < 2 * rem) || (decide (2 * rem = den) && odd), sr)
  | .rtz => (false, sr)
  | .rdn => (neg, sr)
  | .rup => (!neg, sr)
  | .sr => let x := srStep sr; (decide (x.toNat < rem * 2 ^ 32 / den), x)

/-- ⌊log2 (n/d)⌋ of a positive rational. -/
def log2Q (n d : Nat) : Int :=
  let k : Int := (Nat.log2 n : Int) - Nat.log2 d
  if 0 ≤ k then (if d * 2 ^ k.toNat ≤ n then k else k - 1) else (if d ≤ n * 2 ^ (-k).toNat then k else k - 1)

/-- The magnitude code of n/d in a float format with unbounded exponent, whether it is inexact, and the SR state. -/
def roundCode (p : FP) (m : Round) (neg : Bool) (n d : Nat) (sr : Word) : Nat × Bool × Word :=
  let emin : Int := 1 - p.bias
  let e := max (log2Q n d) emin
  let q := e - p.t
  let num := if 0 ≤ q then n else n * 2 ^ (-q).toNat
  let den := if 0 ≤ q then d * 2 ^ q.toNat else d
  let lo := (e - emin).toNat * 2 ^ p.t + num / den
  let r := roundUp m neg (decide (lo % 2 = 1)) (num % den) den sr
  (lo + r.1.toNat, decide (num % den ≠ 0), r.2)

/-- A code with its sign. -/
def FP.withSign (p : FP) (neg : Bool) (c : Nat) : DWord :=
  if c = 0 && !p.negZero then 0 else w64 (if neg && p.signed then 2 ^ (p.w - 1) + c else c)

/-- What an overflow gives (R85): bits and flags. -/
def overflowFV (p : FP) (m : Round) (sat neg : Bool) : DWord × Flags :=
  if sat then (p.withSign neg p.maxFin, flSAT ||| flNX)
  else
    let beyond := match m with | .rtz => false | .rdn => neg | .rup => !neg | _ => true
    (if beyond then (if p.hasInf then p.withSign neg p.inf else w64 p.nan) else p.withSign neg p.maxFin, flOF ||| flNX)

/-- A rounded result: bits, flags, SR state. -/
structure Rounded where
  bits : DWord
  fl : Flags
  sr : Word
  deriving DecidableEq, Repr

/-- A finite non-zero exact value rounded into a float format (R84-R87); `forced` marks an exact value that the given
rational only represents (a root, a function value), so that the result is inexact whatever the rational is. -/
def roundFin (p : FP) (m : Round) (sat forced : Bool) (sr : Word) (q : Q) : Rounded :=
  let neg := decide (q.n < 0)
  let r := roundCode p m neg q.n.natAbs q.d sr
  let nx := r.2.1 || forced
  if neg && !p.signed then
    if r.1 = 0 then ⟨0, flUF ||| flNX, r.2.2⟩ else if sat then ⟨0, flSAT ||| flNX, r.2.2⟩ else ⟨w64 p.nan, flIV, r.2.2⟩
  else if p.maxFin < r.1 then ⟨(overflowFV p m sat neg).1, (overflowFV p m sat neg).2, r.2.2⟩
  else ⟨p.withSign neg r.1, flagIf nx flNX ||| flagIf (nx && decide (r.1 < 2 ^ p.t)) flUF, r.2.2⟩

/-- A value rounded into a float format, with the infinities and signs of R73 and R85; `sat` is the `.SAT` column, under which an
infinity becomes the greatest finite value in every format (R61, R122). -/
def roundFV (p : FP) (m : Round) (sat : Bool) (sr : Word) (v : FV) : Rounded :=
  match v with
  | .nan s => ⟨w64 p.nan, flagIf s flIV, sr⟩
  | .zero s => ⟨p.withSign s 0, 0, sr⟩
  | .inf s =>
    if s && !p.signed then (if sat then ⟨0, flSAT ||| flNX, sr⟩ else ⟨w64 p.nan, flIV, sr⟩)
    else if sat then ⟨p.withSign s p.maxFin, flSAT ||| flNX, sr⟩
    else if p.hasInf then ⟨p.withSign s p.inf, 0, sr⟩
    else ⟨w64 p.nan, flIV, sr⟩
  | .fin q => roundFin p m sat false sr q

/-- A rational rounded to an integer: the integer, whether it is inexact, and the SR state. -/
def roundInt (m : Round) (sr : Word) (q : Q) : Int × Bool × Word :=
  let neg := decide (q.n < 0)
  let n := q.n.natAbs
  let lo := n / q.d
  let r := roundUp m neg (decide (lo % 2 = 1)) (n % q.d) q.d sr
  let v : Int := (lo + r.1.toNat : Nat)
  (if neg then -v else v, decide (n % q.d ≠ 0), r.2)

/-- The invalid value of a conversion to an integer format or FX64 (R95). -/
def invalidInt (f : Fmt) : DWord := if f.signed then w64 (2 ^ (f.width - 1)) else 0

/-- A value scaled by 2^k and rounded into an integer format or FX64 (R95, R121, R122): `sat` clamps. A non-zero value that rounds to
zero sets UF (R86). -/
def toIntFmt (f : Fmt) (m : Round) (sat : Bool) (sr : Word) (k : Nat) (v : FV) : Rounded :=
  match v with
  | .nan _ => ⟨if sat then 0 else invalidInt f, flIV, sr⟩
  | .inf s => if sat then ⟨keepBits f.width (if s then intMin f else intMax f), flSAT ||| flNX, sr⟩ else ⟨invalidInt f, flIV, sr⟩
  | .zero _ => ⟨0, 0, sr⟩
  | .fin q =>
    let r := roundInt m sr (Q.mul q ⟨2 ^ k, 1⟩)
    if inRange f r.1 then ⟨keepBits f.width r.1, flagIf r.2.1 flNX ||| flagIf (r.2.1 && decide (r.1 = 0)) flUF, r.2.2⟩
    else if sat then ⟨keepBits f.width (clampInt f r.1), flSAT ||| flNX, r.2.2⟩
    else ⟨invalidInt f, flIV, r.2.2⟩

/-- An exact integer over 2^k as a value. -/
def intFV (v : Int) (k : Nat) : FV := if v = 0 then .zero false else .fin ⟨v, 2 ^ k⟩

/-- The value of raw bits in any plain format: FX64 is n x 2^-32 (R71). -/
def readFV (f : Fmt) (m : Byte) (x : DWord) : FV :=
  if f.isInt then intFV (readInt f x) 0
  else if f = .fx64 then intFV (sint 64 x) 32
  else if f = .mxi8 then intFV (sint 8 x) 6
  else fread (fparams f m) x

end Sys2Proof.Machine
end

