-- ==== Sys2Proof/Machine/Stack.lean ====
section
/-! DEFINITION. Stacked memory: access tables (R398), home stacks (R206), page-table walks and leaves (R355-R358), lines,
channels and guarded regions (R427-R430, R436), and the reads and writes that block controllers make of it at once. -/

namespace Sys2Proof.Machine

/-! ## Access tables (R398) -/

/-- May a master (partition, privilege, unit kind) do what bit `what` allows: 0 loads, 1 stores, 2 atomics, 3 engine
requests? `regs` are the table's sixteen registers. -/
def tableAllows (regs : Nat → DWord) (part priv kind what : Nat) : Bool :=
  if priv = 2 then true
  else if priv = 3 then false
  else
    let e := 4 * part + priv
    bit (regs (e / 4)) (16 * (e % 4) + 4 * kind + what)

/-- The access table of a base die. -/
def Fabric.dieAllows (f : Fabric) (sd part priv kind what : Nat) : Bool :=
  tableAllows (fun m => f.bd sd (0x20 + m)) part priv kind what
/-- The access table of a block. -/
def Fabric.blkAllows (f : Fabric) (bk part priv kind what : Nat) : Bool :=
  tableAllows (fun m => f.bk bk (0x20 + m)) part priv kind what
/-- The access table of the host bridge: BK.HACC of block 0 of die 0. -/
def Fabric.hostAllows (f : Fabric) (part priv kind what : Nat) : Bool :=
  tableAllows (fun m => f.bk 0 (0x30 + m)) part priv kind what
/-- The access table of scale-out port n: BK.PACC of the steward block of die n. -/
def Fabric.portAllows (f : Fabric) (n part priv kind what : Nat) : Bool :=
  tableAllows (fun m => f.bk (64 * n) (0x80 + m)) part priv kind what

/-- What an operation needs of an access table. -/
def ReqOp.needs : ReqOp → Nat
  | .load => 0 | .pref => 0 | .store => 1 | .feset => 1 | .feclr => 1 | .atomic _ _ => 2

/-- A write in the sense of R362: a store, an atomic, FESET or FECLR. -/
def ReqOp.writes : ReqOp → Bool
  | .load => false | .pref => false | _ => true

/-! ## Home stacks (R206) -/

/-- The hash of a local address (R206). -/
def homeHash (addr : Nat) : Nat :=
  let v := addr / 65536 % 2 ^ 30
  (v ^^^ (v / 1024) ^^^ (v / 1048576)) % 1024

/-- The home stack of a local address; none in a partition without stacks (R207). -/
def Fabric.home (f : Fabric) (part addr : Nat) : Option Nat :=
  let ss := f.stacksOf part
  if ss.length = 0 then none else ss[homeHash addr % ss.length]?

/-- The table sequencer: the base die of the partition's lowest stack (R360). -/
def Fabric.sequencer (f : Fabric) (part : Nat) : Option Nat := (f.stacksOf part).head?

/-- Is a stack's link dead (R422)? -/
def Fabric.linkDead (f : Fabric) (sd : Nat) : Bool := decide (fld (f.bd sd 0x220) 41 32 = 0)

/-! ## Stack geometry (R427) -/

/-- Rows of a channel, by LPC of the package's stacks (log 38). -/
def Fabric.chanRows (f : Fabric) : Nat := f.lpc * 2 ^ 20
/-- SPARE of a base die (R427). -/
def Fabric.spare (f : Fabric) (sd : Nat) : Nat := fld (f.bd sd 0x200) 1 0
/-- Main rows of a stack. -/
def Fabric.mainRows (f : Fabric) (sd : Nat) : Nat := f.chanRows * (32 - f.spare sd) / 32
/-- Offsets of a stack run below this. -/
def Fabric.stackEnd (f : Fabric) (sd : Nat) : Nat := 2048 * f.mainRows sd

/-! ## Page-table entries (R355-R358) -/

def pteV (e : DWord) : Bool := bit e 63
def pteLeaf (e : DWord) : Bool := bit e 62
def pteTier (e : DWord) : Nat := fld e 61 60
def pteFE (e : DWord) : Bool := bit e 59
def pteWP (e : DWord) : Bool := bit e 58
def pteLost (e : DWord) : Bool := bit e 57
def pteW (e : DWord) : Bool := bit e 56
def pteU (e : DWord) : Bool := bit e 55
/-- ADDR as a byte address: bits 51:16 in place. -/
def pteAddr (e : DWord) : Nat := fld e 51 16 * 65536

/-- Address bits a leaf at a level maps: 30, 21 or 16. -/
def levelBits (level : Nat) : Nat := if level = 1 then 30 else if level = 2 then 21 else 16

/-- The entry index of a local offset at a level (R355). -/
def levelIndex (level o : Nat) : Nat :=
  if level = 1 then o / 2 ^ 30 % 65536 else if level = 2 then o / 2 ^ 21 % 512 else o / 2 ^ 16 % 32

/-- Is an entry read at a level malformed (R358)? -/
def Fabric.pteBad (f : Fabric) (sd part level : Nat) (e : DWord) : Bool :=
  let bits := levelBits level
  if fld e 54 52 ≠ 0 ∨ fld e 7 0 ≠ 0 then true
  else if pteLeaf e then
    decide (fld e 15 8 ≠ 0) || decide (pteTier e = 3) || decide (pteAddr e % 2 ^ bits ≠ 0)
      || (pteFE e && decide (pteTier e ≠ 0))
      || (decide (pteTier e = 0) && (decide (fld e 51 37 ≠ 0) || decide (f.stackEnd sd < pteAddr e + 2 ^ bits)))
      || (decide (pteTier e = 1) && (decide (fld e 51 42 ≠ 0) || decide (24 ≤ fld e 41 37) || decide (f.partOfStack (fld e 41 37) ≠ part)))
  else
    decide (level = 3) || decide (fld e 61 55 ≠ 0) || decide (fld e 51 37 ≠ 0)
      || decide (f.stackEnd sd < fld e 36 8 * 256 + (if level = 1 then 4096 else 256))

/-- What a walk finds at one level: the next table, a leaf, or nothing. -/
inductive WalkRes where
  | next (table : Nat)
  | leaf (e : DWord)
  | none
  deriving DecidableEq, Repr

/-- One level of a walk in a stack's replica: the entry at the table, judged (R355, R358). -/
def Fabric.walkStep (f : Fabric) (sd part o level table : Nat) : WalkRes :=
  let e := (f.die sd).mem.word (table + 8 * levelIndex level o)
  if !pteV e || f.pteBad sd part level e then .none
  else if pteLeaf e then .leaf e
  else .next (fld e 36 8 * 256)

/-- The offset of the root table; none while BD.PTROOT has V clear (R354). -/
def Fabric.rootTable (f : Fabric) (sd : Nat) : Option Nat :=
  if bit (f.bd sd 1) 0 then some (fld (f.bd sd 1) 36 19 * 2 ^ 19) else none

/-- A walk from a level, at most three: the leaf, its page bits, and the table words used. -/
def Fabric.walkFrom (f : Fabric) (sd part o level table : Nat) (used : List Nat) : Nat → Option (DWord × Nat × List Nat)
  | 0 => .none
  | n + 1 =>
    match f.walkStep sd part o level table with
    | .none => .none
    | .leaf e => some (e, levelBits level, used ++ [table + 8 * levelIndex level o])
    | .next t => f.walkFrom sd part o (level + 1) t (used ++ [table + 8 * levelIndex level o]) n

/-- The whole translation of a local offset at a base die. -/
def Fabric.translate (f : Fabric) (sd part o : Nat) : Option (DWord × Nat × List Nat) :=
  (f.rootTable sd).bind fun t => f.walkFrom sd part o 1 t [] 3

/-- The frame of a local offset under a leaf of a page of 2^bits bytes (R357). -/
def Fabric.frameOf (f : Fabric) (part : Nat) (leaf : DWord) (bits o : Nat) : Option Frame :=
  let q := o % 2 ^ bits
  match pteTier leaf with
  | 0 => (f.home part o).map fun sd => .stack sd (fld leaf 36 16 * 65536 + q)
  | 1 => some (.stack (fld leaf 41 37) (fld leaf 36 16 * 65536 + q))
  | _ => some (.host (pteAddr leaf + q))

/-! ## Lines and channels (R428-R430, R436) -/

/-- The guarded region that holds an offset: its number, first row and row count. -/
def Fabric.regionAt (f : Fabric) (sd off : Nat) : Option (Nat × Nat × Nat) :=
  ((List.range 8).find? fun n =>
    let g := f.bd sd (0x208 + n)
    bit g 63 && decide (fld g 15 0 * 2 ^ 21 ≤ off) && decide (off < (fld g 15 0 + fld g 31 16 + 1) * 2 ^ 21)).map fun n =>
    (n, 1024 * fld (f.bd sd (0x208 + n)) 15 0, 1024 * (fld (f.bd sd (0x208 + n)) 31 16 + 1))

/-- Where a line of offsets lies: base channel, row, guarded or not; a parity shadow has no place. -/
inductive LineAt where
  | open (chan row : Nat)
  | guarded (chan row : Nat)
  | shadow
  deriving DecidableEq, Repr

/-- The line of an offset (R428, R430). -/
def Fabric.lineAt (f : Fabric) (sd off : Nat) : LineAt :=
  match f.regionAt sd off with
  | none =>
    let l := off / 64
    let r := l / 32
    .open ((l ^^^ r ^^^ (r / 32)) % 32) r
  | some (_, g0, n) =>
    let q := (off - 2048 * g0) / 64
    if q < 31 * n then
      let row := g0 + q / 31
      let j := q % 31
      .guarded (if j < row % 32 then j else j + 1) row
    else .shadow

/-- Is a channel in service? -/
def Fabric.inService (f : Fabric) (sd c : Nat) : Bool := bit (f.bd sd 0x201) c
/-- RETi, where it is valid. -/
def Fabric.retired (f : Fabric) (sd i : Nat) : Option Nat :=
  let w := f.bd sd 0x201
  if i = 0 then (if bit w 57 then some (fld w 56 52) else none) else (if bit w 63 then some (fld w 62 58) else none)

/-- The channel to which a guarded line of row r is redirected after the i-th retirement (R436). -/
def Fabric.redirect (f : Fabric) (sd i r : Nat) : Nat :=
  let gone := ((List.range (i + 1)).filterMap fun j => f.retired sd j)
  let cs := (List.range 32).filter fun c => !gone.contains c
  cs.getD (r % (31 - i)) 0

/-- Is a guarded stripe lost: did a redirected member's place leave service too (R436)? -/
def Fabric.stripeLost (f : Fabric) (sd r : Nat) : Bool :=
  (List.range (f.spare sd)).any fun i => (f.retired sd i).isSome && !f.inService sd (f.redirect sd i r)

/-- Where a line lies: the channel that serves it and its row there, the spare row of a redirected one; none for a line without storage
(R436). -/
def Fabric.placeOf (f : Fabric) (sd : Nat) : LineAt → Option (Nat × Nat)
  | .shadow => none
  | .open c r => if f.inService sd c then some (c, r) else none
  | .guarded c r =>
    if f.stripeLost sd r then none
    else if f.inService sd c then some (c, r)
    else ((List.range (f.spare sd)).find? fun i => f.retired sd i == some c).map fun i =>
      (f.redirect sd i r, f.mainRows sd + i * f.chanRows / 32 + r / (31 - i))

/-- The channel that serves a line. -/
def Fabric.channelOf (f : Fabric) (sd : Nat) (l : LineAt) : Option Nat := (f.placeOf sd l).map (·.1)

/-! ## Stripes and their parity (R430, R431, R436, R437)

A line's bytes are kept in `mem` under its offset, wherever `placeOf` finds it. The parity line of a row is kept under the offset of its
row's place in the parity shadow, which names no data line. -/

/-- The guarded regions of a stack: first row and end row. -/
def Fabric.guards (f : Fabric) (sd : Nat) : List (Nat × Nat) :=
  (List.range 8).filterMap fun n =>
    let g := f.bd sd (0x208 + n)
    if bit g 63 then some (1024 * fld g 15 0, 1024 * (fld g 15 0 + fld g 31 16 + 1)) else none

/-- Where the parity line of a guarded row is kept in `mem`. -/
def Fabric.parityOff (f : Fabric) (sd row : Nat) : Option Nat :=
  (f.regionAt sd (2048 * row)).map fun g => 2048 * g.2.1 + 1984 * g.2.2 + 64 * (row - g.2.1)

/-- The offsets of a row's 31 data lines. -/
def Fabric.stripeOffs (f : Fabric) (sd row : Nat) : List Nat :=
  match f.regionAt sd (2048 * row) with
  | some g => (List.range 31).map fun j => 2048 * g.2.1 + 64 * (31 * (row - g.2.1) + j)
  | none => []

/-- A parity line as it stands: in the parity cache, or in its place. -/
def Fabric.parityLine (f : Fabric) (sd row : Nat) : Nat :=
  match (f.die sd).parCache.find? fun x => decide (x.1 = row) with
  | some x => x.2
  | none => match f.parityOff sd row with | some o => (f.die sd).mem.readN o 64 | none => 0

/-- Is the member of row r on base channel c redirected and not yet rebuilt: does a running rebuild still come to its row (R437)? -/
def Fabric.unbuilt (f : Fabric) (sd c r : Nat) : Bool :=
  bit (f.bd sd 0x202) 63 && decide (fld (f.bd sd 0x202) 25 0 ≤ r) && !f.inService sd c && (f.channelOf sd (.guarded c r)).isSome

/-- The XOR of a row's data lines but for one offset. -/
def Fabric.xorLines (f : Fabric) (sd row but : Nat) : Nat :=
  (f.stripeOffs sd row).foldl (fun x o => if o = but then x else x ^^^ (f.die sd).mem.readN o 64) 0

/-- The parity of a row; where its member is not yet rebuilt, the XOR of the others. -/
def Fabric.parity (f : Fabric) (sd row : Nat) : Nat :=
  if f.unbuilt sd (row % 32) row then f.xorLines sd row (2 ^ 64) else f.parityLine sd row

/-- A data line made from the 31 other members of its stripe. -/
def Fabric.rebuilt (f : Fabric) (sd row off : Nat) : Nat := f.xorLines sd row off ^^^ f.parity sd row

/-- n bytes of one line of a stack; a degraded read where its member is not yet rebuilt (R437). -/
def Fabric.memRead (f : Fabric) (sd off n : Nat) : Nat :=
  match f.lineAt sd off with
  | .guarded c r =>
    if f.unbuilt sd c r then f.rebuilt sd r (off / 64 * 64) / 2 ^ (8 * (off % 64)) % 2 ^ (8 * n) else (f.die sd).mem.readN off n
  | _ => (f.die sd).mem.readN off n

/-- A parity line becomes dirty in the write-back cache of 4,096 lines; the oldest of a full cache is written back (R431). -/
def Fabric.putParity (f : Fabric) (sd row p : Nat) : Fabric :=
  let d := f.die sd
  let rest := d.parCache.filter fun x => decide (x.1 ≠ row)
  match rest with
  | x :: xs =>
    if 4096 ≤ rest.length then
      let mem := match f.parityOff sd x.1 with | some o => d.mem.writeN o x.2 64 | none => d.mem
      f.setDie sd { d with parCache := xs ++ [(row, p)], mem := mem }
    else f.setDie sd { d with parCache := rest ++ [(row, p)] }
  | [] => f.setDie sd { d with parCache := [(row, p)] }

/-- Every dirty parity line is written back (R431). -/
def Fabric.flushParity (f : Fabric) (sd : Nat) : Fabric :=
  (f.die sd).parCache.foldl (fun (f : Fabric) x => match f.parityOff sd x.1 with
    | some o => f.modDie sd fun d => { d with mem := d.mem.writeN o x.2 64 }
    | none => f) (f.modDie sd fun d => { d with parCache := [] })

/-- n bytes written in one line of a stack: over an old value u, a guarded line's new value v makes its stripe's parity P XOR u XOR v
(R431). -/
def Fabric.memWrite (f : Fabric) (sd off n v : Nat) : Fabric :=
  let g := f.modDie sd fun d => { d with
    mem := d.mem.writeN off v n
    errs := d.errs.filter fun x => !(decide (off ≤ x) && decide (x < off + n)) }
  match f.lineAt sd off with
  | .guarded _ r => g.putParity sd r (f.parity sd r ^^^ ((f.memRead sd off n ^^^ v % 2 ^ (8 * n)) * 2 ^ (8 * (off % 64))))
  | _ => g

/-- A stack's bytes replaced by a controller or an engine that moves many at once: every guarded line that changes is written as a line,
with its parity. -/
def Fabric.setMem (f : Fabric) (sd : Nat) (m : Memory) : Fabric :=
  if (f.guards sd).isEmpty then f.modDie sd fun d => { d with mem := m }
  else
    let old := (f.die sd).mem
    let cells := (m.filter fun c => !old.contains c) ++ old.filter fun c => !m.contains c
    ((cells.map fun c => c.1 / 64 * 64).dedup).foldl (fun f a => f.memWrite sd a 64 (m.readN a 64)) f

/-! ## Errors in stored bytes (R432) -/

/-- The erroneous bytes of the 32-byte half that holds an offset. -/
def BaseDie.halfErrs (d : BaseDie) (off : Nat) : Nat := d.errs.countP fun x => decide (x / 32 = off / 32)

/-- BD.ECC counts one error more that was corrected (R432). -/
def Fabric.addCE (f : Fabric) (sd : Nat) : Fabric :=
  f.setBd sd 0x218 (setFld (f.bd sd 0x218) 63 32 (min (fld (f.bd sd 0x218) 63 32 + 1) 0xFFFFFFFF))
/-- BD.ECC counts one error more that was not. -/
def Fabric.addUE (f : Fabric) (sd : Nat) : Fabric :=
  f.setBd sd 0x218 (setFld (f.bd sd 0x218) 31 0 (min (fld (f.bd sd 0x218) 31 0 + 1) 0xFFFFFFFF))

/-- An error corrected: counted, and the line written back. -/
def Fabric.countCE (f : Fabric) (sd off : Nat) : Fabric :=
  (f.addCE sd).modDie sd fun d =>
    { d with errs := d.errs.filter fun x => decide (x / 32 ≠ off / 32) }

/-- The half that holds an offset is read, and whether its bytes can be used (R432): one erroneous byte is corrected; a guarded line with
more is rebuilt from its stripe, where no other member has such an error in that half; any other error is counted as not corrected, and
the line is left as read. -/
def Fabric.readHalf (f : Fabric) (sd off : Nat) : Fabric × Bool :=
  let d := f.die sd
  let k := d.halfErrs off
  if k = 0 then (f, true)
  else if k = 1 then (f.countCE sd off, true)
  else
    let ue := (f.addUE sd, false)
    match f.lineAt sd off with
    | .guarded _ r =>
      let line := off / 64 * 64
      let others := ((f.stripeOffs sd r).filter (· ≠ line)) ++ (f.parityOff sd r).toList
      if others.all fun o => decide (d.halfErrs (o + off % 64) ≤ 1) then
        ((f.modDie sd fun d => { d with mem := d.mem.writeN line (f.rebuilt sd r line) 64 }).countCE sd off, true)
      else ue
    | _ => ue

/-- The halves that n bytes touch are read, and whether all can be used. -/
def Fabric.readCheck (f : Fabric) (sd off n : Nat) : Fabric × Bool :=
  if (f.die sd).errs.isEmpty then (f, true)
  else (List.range ((off % 32 + n + 31) / 32)).foldl (fun x i => let y := x.1.readHalf sd (off / 32 * 32 + 32 * i); (y.1, x.2 && y.2)) (f, true)

/-! ## Reads and writes made at once by block controllers and engines -/

/-- Bytes at a frame: a stack's offsets or host memory; none where a line has no storage or an error that cannot be corrected. -/
def Fabric.frameRead (f : Fabric) (fr : Frame) (n : Nat) : Option Nat :=
  match fr with
  | .host a => some (f.hostMem.readN a n)
  | .stack sd off => if (f.readCheck sd off n).2 then (f.channelOf sd (f.lineAt sd off)).map fun _ => f.memRead sd off n else none

/-- Bytes written at a frame. -/
def Fabric.frameWrite (f : Fabric) (fr : Frame) (n v : Nat) : Fabric :=
  match fr with
  | .host a => { f with hostMem := f.hostMem.writeN a v n }
  | .stack sd off => f.memWrite sd off n v

/-! ## The stripe space (R204) -/

/-- The stripe space of a partition (R204): its members in order. -/
def Fabric.stripeMembers (f : Fabric) (part : Nat) : Nat := 4096 * (f.diesOf part).length
/-- Member m of a partition's stripe space: ascending package element order. -/
def Fabric.stripeMember (f : Fabric) (part m : Nat) : Nat := (f.diesOf part).getD (m / 4096) 0 * 4096 + m % 4096
/-- LO of an element's block, as a byte address (R204); for a Fatik element that of the partition's lowest block (log 43). -/
def Fabric.stripeLo (f : Fabric) (el : Nat) : Nat := 4096 * fld (f.bk (f.regBlk el) 3) 6 0
/-- Where stripe byte s lies for an issuer: member element and element address; none beyond the space. -/
def Fabric.stripeAt (f : Fabric) (el s : Nat) : Option (Nat × Nat) :=
  let part := f.partOf el
  let M := f.stripeMembers part
  let lo := f.stripeLo el
  if (f.diesOf part).length < 8 ∨ M * (Config.elemBytes - lo) ≤ s then none
  else some (f.stripeMember part (s / 128 % M), lo + s / (128 * M) * 128 + s % 128)
/-- The same for a controller or engine of a partition, by LO of the partition's first block (log 42). -/
def Fabric.stripeFor (f : Fabric) (part a : Nat) : Option (Nat × Nat) := f.stripeAt (4096 * ((f.diesOf part).head?.getD 0)) (a % 2 ^ 40)
/-- Does a local address lie in the stripe space's range? -/
def inStripe (a : Nat) : Bool := decide (a / 2 ^ 40 = 0x3F)

/-- A master that reaches memory: its partition, privilege and unit kind, and the access-table bit that its accesses need. -/
structure Master where
  part : Nat
  priv : Nat
  kind : Nat
  what : Nat
  deriving DecidableEq, Repr

/-- What the checks of R362 make of an access. -/
inductive Verdict where
  | pass (fr : Frame) (fe : Bool)
  | fault (c : Cause) (info : Word)
  | migrate
  | refused
  deriving DecidableEq, Repr

/-- The information word of PAGE and DATA found in translation (R363). -/
def pageInfo (reason o : Nat) : Word := w32 (reason % 4 * 2 ^ 30 + o / 65536 % 2 ^ 30)

/-- May a master reach a frame: the access table of the stack or of the host bridge (R398)? -/
def Fabric.mayReach (f : Fabric) (m : Master) (fr : Frame) : Bool :=
  match fr with
  | .stack sd _ => f.dieAllows sd m.part m.priv m.kind m.what
  | .host _ => f.hostAllows m.part m.priv m.kind m.what

/-- The checks of R362 in order, on a leaf and its page bits, or on none. -/
def Fabric.judge (f : Fabric) (m : Master) (write : Bool) (o : Nat) (tr : Option (DWord × Nat)) : Verdict :=
  match tr with
  | none => .fault .page (pageInfo 0 o)
  | some (leaf, bits) =>
    if pteLost leaf then .fault .data (pageInfo 0 o)
    else if m.priv = 0 ∧ pteU leaf = false then .fault .page (pageInfo 2 o)
    else if write && !pteW leaf then .fault .page (pageInfo 1 o)
    else if write && pteWP leaf then .migrate
    else
      match f.frameOf m.part leaf bits o with
      | none => .fault .page (pageInfo 0 o)
      | some fr => if f.mayReach m fr then .pass fr (pteFE leaf) else .refused

/-- An address that names the own package through the pod window is local (R205). -/
def Fabric.ownAddr (f : Fabric) (a : Nat) : Nat := if a / 2 ^ 46 = 1024 + f.pkg then a % 2 ^ 46 else a

/-- The verdict on an access made at once to a virtual address, which stacked or host memory alone can serve: the ranges of the
apertures raise ACCESS (R359, R452); `vread` and `vwrite` serve the stripe space before. -/
def Fabric.reach (f : Fabric) (m : Master) (write : Bool) (addr : Nat) : Verdict :=
  let a := f.ownAddr addr
  let o := a % 2 ^ 46
  if 2 ^ 46 ≤ a then .fault .page (pageInfo 3 o)
  else if 0x3D ≤ o / 2 ^ 40 then .fault .access (w32 addr)
  else match f.home m.part a with
  | none => .fault .page (pageInfo 0 o)
  | some sd => f.judge m write o ((f.translate sd m.part o).map fun x => (x.1, x.2.1))

/-- The key of a block controller or an engine as an issuer that no element waits for. -/
def ctlKey : Nat := 131072 + 65536 * 1024 + 1

/-- A master's write that a write-protected page holds back (R369): it goes to its home base die as a request that nothing waits
for, parks there, and is replayed. -/
def Fabric.postWrite (f : Fabric) (m : Master) (n addr v : Nat) : Fabric :=
  match f.home m.part (f.ownAddr addr) with
  | none => f
  | some sd => f.post (.translationRequest sd
      { el := ctlKey, id := 0, lane := 0, ctx := 0, part := m.part, priv := m.priv, ukind := m.kind, op := .store, bytes := n,
        addr := f.ownAddr addr, data := w64 v, cmp := 0, oid := 0, pred := none, eng := decide (m.what = 3), fe := false })

/-- The member and the element address that a master reaches by the stripe space, past the access table of the member's block (R204,
R398); none where ACCESS is raised. -/
def Fabric.stripeReach (f : Fabric) (m : Master) (a : Nat) : Option (Nat × Nat) :=
  (f.stripeFor m.part a).filter fun x => f.blkAllows (blockOf x.1) m.part m.priv m.kind m.what

/-- n bytes read at a virtual address by a master, or the fault (R362). A line without storage, or with an error that cannot be
corrected, raises DATA (R432, R436). -/
def Fabric.vread (f : Fabric) (m : Master) (n addr : Nat) : Except (Cause × Word) Nat :=
  if inStripe (f.ownAddr addr) then
    match f.stripeReach m (f.ownAddr addr) with
    | some x => .ok ((f.el x.1).mem.readN x.2 n)
    | none => .error (.access, w32 addr)
  else match f.reach m false addr with
  | .pass fr _ => match f.frameRead fr n with | some v => .ok v | none => .error (.data, pageInfo 0 (f.ownAddr addr % 2 ^ 46))
  | .fault c i => .error (c, i)
  | _ => .error (.access, w32 addr)

/-- n bytes written at a virtual address by a master, or the fault (R362, R369). -/
def Fabric.vwrite (f : Fabric) (m : Master) (n addr v : Nat) : Except (Cause × Word) Fabric :=
  if inStripe (f.ownAddr addr) then
    match f.stripeReach m (f.ownAddr addr) with
    | some x => .ok (f.modEl x.1 fun e => e.putN x.2 v n)
    | none => .error (.access, w32 addr)
  else match f.reach m true addr with
  | .pass fr _ => if (f.frameRead fr n).isSome then .ok (f.frameWrite fr n v) else .error (.data, pageInfo 0 (f.ownAddr addr % 2 ^ 46))
  | .fault c i => .error (c, i)
  | .migrate => .ok (f.postWrite m n addr v)
  | .refused => .error (.access, w32 addr)

/-- Would a master's write park at its home base die, by a write-protected page (R369)? -/
def Fabric.migrating (f : Fabric) (m : Master) (addr : Nat) : Bool :=
  !inStripe (f.ownAddr addr) && (match f.reach m true addr with | .migrate => true | _ => false)

/-- A block controller as a master. No rule gives it a privilege; it reads and writes for the system software that set it up, and
the model lets no access table stop it: HYP (DESIGN CHOICE, log 42). -/
def ctlMaster (part : Nat) : Master := ⟨part, 2, 0, 0⟩

/-- An 8-byte word read by a controller (R55, R157, R201). -/
def Fabric.ctlRead (f : Fabric) (part addr : Nat) : Option DWord := (f.vread (ctlMaster part) 8 addr).toOption.map w64

/-- An 8-byte word written by a controller. -/
def Fabric.ctlWrite (f : Fabric) (part addr : Nat) (v : DWord) : Option Fabric := (f.vwrite (ctlMaster part) 8 addr v.toNat).toOption

/-- The fault of the first of n words that a controller cannot read. -/
def Fabric.ctlFault (f : Fabric) (part addr : Nat) : Nat → Cause × Word
  | 0 => (.data, 0)
  | n + 1 => match f.vread (ctlMaster part) 8 addr with
    | .error x => x
    | .ok _ => f.ctlFault part (addr + 8) n

/-- Consecutive words read by a controller. -/
def Fabric.ctlWords (f : Fabric) (part addr : Nat) : Nat → Option (List DWord)
  | 0 => some []
  | n + 1 => (f.ctlRead part addr).bind fun w => (f.ctlWords part (addr + 8) n).map (w :: ·)

/-- Consecutive words written by a controller, until one faults. -/
def Fabric.ctlPut (f : Fabric) (part addr : Nat) : List DWord → Option Fabric
  | [] => some f
  | w :: r => (f.ctlWrite part addr w).bind fun f => f.ctlPut part (addr + 8) r

/-- The image that a block's context directory names for an element and context (R157): its address. -/
def Fabric.dirEntry (f : Fabric) (el ctx : Nat) : Option Nat :=
  let bk := blockOf el
  let w := f.bk bk 1
  if bit w 0 then
    let n := 64 * ctx + 8 * (rowOf el % 8) + colOf el % 8
    (f.ctlRead (f.partOf el) (fld w 56 17 * 131072 + 8 * n)).bind fun e =>
      if bit e 0 then some (fld e 56 7 * 128) else none
  else none

/-- A route's entry in the table of the sender's block (R201, R202). -/
def Fabric.routeEntry (f : Fabric) (el route : Nat) : Option DWord :=
  let w := f.bk (blockOf el) 2
  if bit w 0 then f.ctlRead (f.partOf el) (fld w 56 15 * 32768 + 8 * route) else none

end Sys2Proof.Machine
end

