-- ==== Sys2Proof/Machine/Operands.lean ====
section
/-! DEFINITION. How a form reads its operands: the forms' roles, formats and privileges (R63-R66, R209, R211, R238, R274,
R335, R378, R402), the firing context, literal extension (R93-R95), source selects (R41, R42) and role operands (R209). -/

namespace Sys2Proof.Machine

/-! ## What each form reads -/

/-- How a form reads one source: not at all, as a value in the slot's format, as a scalar role, as an index, as an ordering
role, as a name (R371), as a handle run (R378), or as a trap record (R402). -/
inductive Role where
  | unread | val | role | idx | ord | name | handle | record
  deriving DecidableEq, Repr

/-- What a form reads on a and b, and whether a NONE in b is refused (R41). -/
structure Form where
  ra : Role
  rb : Role
  needB : Bool
  deriving DecidableEq, Repr

def Form.mk1 : Form := ⟨.val, .unread, false⟩
def Form.mk2 : Form := ⟨.val, .val, true⟩
/-- A role on a and an ordering input on b that may be NONE. -/
def Form.roleOrd : Form := ⟨.role, .ord, false⟩
def Form.ordOrd : Form := ⟨.ord, .ord, false⟩
def Form.valRole : Form := ⟨.val, .role, true⟩

/-- Is n one of a list of ranges? -/
def inRanges (n : Nat) (rs : List (Nat × Nat)) : Bool := rs.any fun r => decide (r.1 ≤ n) && decide (n ≤ r.2)

/-- The operands of each form, by opcode. -/
def formOf (op : Nat) : Form :=
  if op = 0xE0 then ⟨.val, .name, false⟩
  else if op = 0xE1 ∨ op = 0xE5 then ⟨.name, .ord, false⟩
  else if op = 0xE2 then ⟨.role, .handle, true⟩
  else if op = 0xE4 then ⟨.role, .role, true⟩
  else if op = 0xF0 then ⟨.role, .role, true⟩
  else if op = 0xF1 then ⟨.record, .role, false⟩
  else if op = 0xF2 ∨ op = 0xF3 then ⟨.record, .ord, false⟩
  else if inRanges op [(0xF5, 0xF6), (0xF8, 0xF9), (0xFB, 0xFB), (0xDA, 0xDA)] then ⟨.role, .role, true⟩
  else if inRanges op [(0xF4, 0xF4), (0xF7, 0xF7), (0xFA, 0xFA), (0xFC, 0xFE), (0xE3, 0xE3), (0xE8, 0xEA), (0xD8, 0xD9), (0xC8, 0xC8)] then .roleOrd
  else if op = 0xD4 then .mk2
  else if inRanges op [(0xC9, 0xC9), (0xCF, 0xD1), (0xD3, 0xD3)] then .ordOrd
  else if inRanges op [(0xCA, 0xCE), (0xD2, 0xD2), (0xD5, 0xD5)] then ⟨.val, .ord, false⟩
  else if op = 0xC1 then ⟨.ord, .ord, true⟩
  else if inRanges op [(0xC0, 0xC5)] then .roleOrd
  else if inRanges op [(0xA8, 0xBF)] then .valRole
  else if op = 0xA0 ∨ op = 0xA3 then ⟨.idx, .ord, false⟩
  else if op = 0xA1 ∨ op = 0xA4 then ⟨.val, .idx, true⟩
  else if inRanges op [(0x91, 0x91), (0x93, 0x93), (0x96, 0x96), (0x98, 0x98), (0x9D, 0x9D), (0x9F, 0x9F)] then .valRole
  else if op = 0x94 then ⟨.role, .role, true⟩
  else if inRanges op [(0x90, 0xA2)] then .roleOrd
  else if inRanges op [(0x07, 0x08), (0x0E, 0x0E), (0x13, 0x15), (0x1E, 0x1F), (0x2E, 0x2F), (0x32, 0x43), (0x4A, 0x53), (0x56, 0x56), (0x59, 0x59), (0x64, 0x65), (0x67, 0x67), (0x71, 0x73), (0x85, 0x85), (0x87, 0x87), (0x89, 0x8A)] then .mk1
  else .mk2

/-- Does a form read K15 as a third operand (R104, R224, R228)? -/
def readsK15 (op : Nat) : Bool := inRanges op [(0x04, 0x04), (0x1D, 0x1D), (0x17, 0x17), (0x2B, 0x2B), (0xA0, 0xA1), (0xA3, 0xA4), (0xAF, 0xAF), (0xB7, 0xB7), (0xBF, 0xBF)]

/-- Does slot s of a form take a control literal from K(s mod 16) (R273, R335, R372)? RBIND ignores its literal's bits. -/
def readsControl (op : Nat) : Bool := inRanges op [(0xC8, 0xD5), (0xE0, 0xE1), (0xE4, 0xE5), (0xE9, 0xEA)]

/-- A memory form, which takes a wave sequence literal in a wave-ordered context (R226). -/
def isMemForm (op : Nat) : Bool := inRanges op [(0x90, 0xA4), (0xA8, 0xBF)]

/-- Forms that count as stores (R216). -/
def isStoreForm (op : Nat) : Bool :=
  inRanges op [(0x91, 0x91), (0x93, 0x93), (0x96, 0x96), (0x98, 0x98), (0x9A, 0x9B), (0x9D, 0x9D), (0x9F, 0x9F), (0xA1, 0xA2), (0xA4, 0xA4), (0xA8, 0xBF)]

/-- A `.SAT` form (R61). -/
def isSat (op : Nat) : Bool := inRanges op [(0x1A, 0x20), (0x41, 0x41)]

/-- Do a form's two sides match by equal tag rather than by overlap (R26, R187, R209, R371)? -/
def matchesEqual (op : Nat) : Bool :=
  let r := formOf op
  decide (op = 0x8B) || !((r.ra == .val || r.ra == .unread) && (r.rb == .val || r.rb == .unread))

/-- The least privilege of a form (R65). -/
def leastPriv (op : Nat) : Nat :=
  if op = 0xFD then 2 else if inRanges op [(0xF3, 0xF3), (0xF6, 0xF6), (0xF8, 0xFC), (0xFE, 0xFE)] then 1 else 0

/-! ## Formats a form accepts (R62, R63) -/

/-- Does a form accept an input and an output format code? -/
def acceptsFmt (op i o : Nat) : Bool :=
  match Fmt.ofCode i, Fmt.ofCode o with
  | some fi, some fo =>
    let same := decide (i = o)
    let plain := fun f : Fmt => !f.isMx
    if op ≤ 0x20 then
      if op = 0x18 then fi.isIntX && fo.isInt
      else if inRanges op [(0x00, 0x01), (0x07, 0x0A), (0x19, 0x1B), (0x1E, 0x1F)] then fi.isIntX && same
      else fi.isInt && same
    else if op ≤ 0x39 then
      if op = 0x30 ∨ op = 0x39 then fi.isFltB && fo.isInt
      else if 0x2C ≤ op ∧ op ≤ 0x2F then fi.isFltB && same
      else fi.isFlt && same
    else if op ≤ 0x43 then plain fi && plain fo
    else if op ≤ 0x46 then fi.isFlt && (fo == .i8 || fo == .n8 || fo == .b8)
    else if op ≤ 0x49 then fi.isFltB && fo.isMx
    else if op = 0x4A then fi.isMx && fo.isFlt
    else if op = 0x4B then (fi.isFltB || fi.isInt) && fo.isNat && decide (fo.width = fi.width)
    else if op = 0x50 ∨ op = 0x53 then (fi.isIntX || fi.isFlt) && same
    else if op = 0x51 ∨ op = 0x52 then (fi.isIntX || fi.isFltB) && same
    else if op = 0x56 ∨ op = 0x57 then plain fi && plain fo
    else if op = 0x59 then fo.isInt
    else if op ≤ 0x58 then plain fi && same
    else if op ≤ 0x7D then same
    else if op = 0x82 then (fi.isMx || fi == .i8 || fi == .b8 || fi == .f16 || fi == .bf16) && fo == .f32
    else if op = 0x81 then (fi.isMx || fi == .i8 || fi == .b8 || fi == .f16 || fi == .bf16) && same
    else if op = 0x83 then fo.isFltB
    else if op ≤ 0x87 then same
    else if op = 0x88 ∨ op = 0x89 then fi.isNat && fo == .n32
    else if op = 0x8A then fi.isNat && same
    else if op = 0x8B ∨ op = 0x8C then (fi == .n32 || fi == .n64) && same
    else if op ≤ 0xA4 then
      if inRanges op [(0x90, 0x91), (0x9C, 0x9D)] then same
      else if inRanges op [(0x92, 0x93), (0x95, 0x96), (0x98, 0x99), (0x9E, 0xA1), (0xA3, 0xA4)] then same && plain fi
      else plain fi && plain fo
    else if op ≤ 0xBF then
      let k := op % 8
      if k ≤ 2 then (fi.isIntX || fi == .f32) && same
      else if k ≤ 5 then fi.isInt && same
      else plain fi && same
    else if op ≤ 0xC5 then same
    else if op = 0xE0 ∨ op = 0xE1 ∨ op = 0xE5 then fo == .i64 || fo == .n64
    else if op = 0xF1 ∨ op = 0xF2 then fi == .n64
    else true
  | _, _ => false

/-! ## Literal extension (R93-R95) -/

/-- A source of a literal type (R46) brought into a format: bits and flags. `sat` says the form is a `.SAT` form: it clamps an infinity
(R94); a finite F32 literal that overflows a float format is converted without it, in CVT.SAT too (R93; DEDUCED, log 20). -/
def extendLit (fmt : Fmt) (b8 : Byte) (ty : Nat) (raw : DWord) (sat cvtSat : Bool) : DWord × Flags :=
  let w := fmt.width
  let int := fun v : Int =>
    if fmt = .fx64 then
      (keepBits 64 (v * 2 ^ 32), flagIf (decide (v < -(2 ^ 31)) || decide (2 ^ 31 - 1 < v)) flSAT)
    else if fmt.isInt then (keepBits w v, flagIf (readInt fmt (keepBits w v) ≠ v) flSAT)
    else let r := roundFV (fparams fmt b8) .rne false 0 (intFV v 0); (r.bits, r.fl)
  if ty = 0 then int (sint 32 raw)
  else if ty = 1 then int raw.toNat
  else if ty = 2 then
    let v := fread (fparams .f32 b8) raw
    if fmt = .fx64 then let r := toIntFmt fmt .rne cvtSat 0 32 v; (r.bits, r.fl)
    else if fmt.isInt then let r := toIntFmt fmt .rne cvtSat 0 0 v; (r.bits, r.fl)
    else
      let p := fparams fmt b8
      let clamp := match v with | .inf s => sat && !(p.hasInf && (p.signed || !s)) | _ => false
      let r := roundFV (fparams fmt b8) .rne clamp 0 v
      (r.bits, r.fl)
  else (trunc w raw, 0)

/-! ## The firing context -/

/-- What a firing sees: the fabric as it stands, the element, the matched set, its image, the fields of the word, and the
firing's run: whether it is a vector firing, its length, valid word and base iteration (R26, R105). -/
structure FCtx where
  f : Fabric
  el : Nat
  s : MSet
  img : Image
  op : Nat
  a : Nat
  b : Nat
  d : Nat
  e : Nat
  t : Nat
  vec : Bool
  len : Nat
  valid : BitVec 32
  base : Nat

def FCtx.slot (c : FCtx) : Nat := c.s.slot
/-- The slot as an information word. -/
def FCtx.slotW (c : FCtx) : Word := w32 c.s.slot
def FCtx.elt (c : FCtx) : Element := c.f.el c.el
def FCtx.tag (c : FCtx) : DWord := c.s.tag
def FCtx.ctx (c : FCtx) : Nat := c.s.ctx
def FCtx.priv (c : FCtx) : Nat := c.img.priv
def FCtx.part (c : FCtx) : Nat := c.f.partOf c.el
def FCtx.ukind (c : FCtx) : Nat := if isFatik c.el then 1 else 0
def FCtx.fin (c : FCtx) : Nat := c.img.fin c.s.slot
def FCtx.fout (c : FCtx) : Nat := c.img.fout c.s.slot
def FCtx.ifmt (c : FCtx) : Fmt := (Fmt.ofCode c.fin).getD .n64
def FCtx.ofmt (c : FCtx) : Fmt := (Fmt.ofCode c.fout).getD .n64
/-- The id that the firing's record takes if it waits. -/
def FCtx.id (c : FCtx) : Nat := c.elt.nextId

/-- The token a select names. -/
def FCtx.tok (c : FCtx) (sel : Nat) : Option Tok := if sel = 0 then c.s.a else if sel = 1 then c.s.b else none

/-- The context information word (R42). -/
def FCtx.ctxi (c : FCtx) : DWord :=
  w64 (depth c.tag * 2 ^ 16 + c.part * 2 ^ 12 + c.priv * 2 ^ 10 + (c.elt.slotOf c.ctx).getD 0 * 2 ^ 8 + c.ctx)

/-- The identity word of an element (R15). -/
def elId (el : Nat) : Nat :=
  if isFatik el then 2 ^ 31 + fatikNum el * 2 ^ 21 + fatikStack el * 2 ^ 16 else el

/-- Lane k of a value source, with the flags of its extension (R41, R93). -/
def FCtx.src (c : FCtx) (sel k : Nat) : DWord × Flags :=
  let ext := fun ty raw => extendLit c.ifmt c.img.b8mode ty raw (isSat c.op) (decide (c.op = 0x41))
  if sel ≤ 1 then
    match c.tok sel with
    | some t => (trunc c.ifmt.width (t.lane (if t.vec then k else 0)), 0)
    | none => (0, 0)
  else if sel ≤ 0x11 then ext (c.img.litType (sel - 2)) ((c.img.lit (sel - 2)).setWidth 64)
  else if sel = 0x12 then ext 1 (w64 (c.img.f c.tag 0 + (if c.vec then k else 0)))
  else if sel ≤ 0x17 then ext 1 (w64 (c.img.f c.tag (sel - 0x12)))
  else if sel = 0x18 then ext 1 (w64 (elId c.el))
  else if sel = 0x1A then ext 3 c.ctxi
  else if sel = 0x1B then ext 1 (w64 (if c.vec then k else 0))
  else (0, 0)

/-- Is lane k of a select's own side valid (R115)? A source that is no token is valid in every lane. -/
def FCtx.sideValid (c : FCtx) (sel k : Nat) : Bool :=
  match c.tok sel with
  | some t => if t.vec then bit t.valid k else bit t.valid 0
  | none => true

/-- Lane k of a and of b. -/
def FCtx.va (c : FCtx) (k : Nat) : DWord := (c.src c.a k).1
def FCtx.vb (c : FCtx) (k : Nat) : DWord := (c.src c.b k).1
/-- Lane k of K15 as a third operand (R104). -/
def FCtx.vc (c : FCtx) (k : Nat) : DWord := (c.src 0x11 k).1
/-- Is lane k valid in V? -/
def FCtx.on (c : FCtx) (k : Nat) : Bool := bit c.valid k
def FCtx.lanes (c : FCtx) : List Nat := List.range c.len

/-- Does a form record no arithmetic flag: the atomics (R228), the relation forms (R269) and NAME (R373)? -/
def noFlags (op : Nat) : Bool := inRanges op [(0xA8, 0xBF), (0xC8, 0xD5), (0xE0, 0xE0)]

/-- The flags of extending every source a form reads (R93), in the lanes that are not predicated off (R105). SEL's fallback sets none in a
lane that is off in V (DEDUCED, log 20). -/
def FCtx.extFlags (c : FCtx) : Flags :=
  let r := formOf c.op
  let one := fun sel => (c.lanes.filter c.on).foldl (fun fl k => fl ||| (c.src sel k).2) 0
  if noFlags c.op then 0
  else
    (if r.ra = .val then one c.a else 0) ||| (if r.rb = .val then one c.b else 0)
      ||| (if inRanges c.op [(0x04, 0x04), (0x1D, 0x1D), (0x17, 0x17), (0x2B, 0x2B)] then one 0x11 else 0)

/-- A role operand (R209): the scalar payload of a token by its own format, or a literal by its type. -/
def FCtx.role (c : FCtx) (sel : Nat) (idx : Bool) (k : Nat) : Int :=
  if sel ≤ 1 then
    match c.tok sel with
    | some t =>
      let f := (Fmt.ofCode t.fmt).getD .n64
      let x := t.lane (if t.vec then k else 0)
      if idx && decide (t.fmt < 4) then sint f.width x else ((trunc f.width x).toNat : Int)
    | none => 0
  else if sel ≤ 0x11 then
    if c.img.litType (sel - 2) = 0 then sint 32 ((c.img.lit (sel - 2)).setWidth 64) else (c.img.lit (sel - 2)).toNat
  else if sel ≤ 0x17 then (c.img.f c.tag (sel - 0x12) + (if sel = 0x12 ∧ c.vec then k else 0) : Nat)
  else if sel = 0x18 then (elId c.el : Nat)
  else if sel = 0x1A then c.ctxi.toNat
  else if sel = 0x1B then (if c.vec then k else 0 : Nat)
  else 0

/-- A role operand as a 64-bit word: INT literals are sign-extended. -/
def FCtx.roleW (c : FCtx) (sel : Nat) : DWord := keepBits 64 (c.role sel false 0)
/-- Operand a and b as role words. -/
def FCtx.ra (c : FCtx) : DWord := c.roleW c.a
def FCtx.rb (c : FCtx) : DWord := c.roleW c.b

/-- The control literal of the slot (R273). -/
def FCtx.control (c : FCtx) : Word := c.img.lit (c.slot % 16)

/-- The rounding in force (R84, R107): `.S` and `.N` override; SR acts only toward an 8-bit target. -/
def roundOf (code : Nat) : Round :=
  match code with | 1 => .rtz | 2 => .rdn | 3 => .rup | 4 => .sr | _ => .rne

/-- The mode of a conversion into a format: SR elsewhere is RNE. -/
def roundFor (m : Round) (target : Fmt) : Round := if m == .sr && !target.narrow then .rne else m

/-- The header's mode for an operation that is no conversion: SR is RNE. -/
def FCtx.mode (c : FCtx) : Round := let m := roundOf c.img.roundCode; if m == .sr then .rne else m

end Sys2Proof.Machine
end

