-- ==== Sys2Proof/Machine/Load.lean ====
section
/-! DEFINITION. The checks of an image at load and at issue (R51-R54, R64-R67, R94, R96, R97, R135, R397). -/

namespace Sys2Proof.Machine

/-! ## Load reports (R52, R53) -/

/-- A load report word: REASON with an optional slot, destination entry and literal. -/
def loadReport (reason : Nat) (slot entry lit : Option Nat) : Word :=
  w32 (reason + (match slot with | some s => 2 ^ 13 + s * 2 ^ 8 | none => 0)
    + (match entry with | some x => 2 ^ 18 + x * 2 ^ 14 | none => 0)
    + (match lit with | some x => 2 ^ 23 + x * 2 ^ 19 | none => 0))

/-- A fault of one slot: reason, entry, literal. -/
abbrev SlotFault := Nat × Option Nat × Option Nat

/-- A fault under a condition. -/
def fault (p : Bool) (r : Nat) : List SlotFault := if p then [(r, none, none)] else []
def faultE (p : Bool) (r e : Nat) : List SlotFault := if p then [(r, some e, none)] else []
def faultL (p : Bool) (r l : Nat) : List SlotFault := if p then [(r, none, some l)] else []

/-- The fault with the lowest reason, the earliest of those (R67). -/
def lowestFault : List SlotFault → Option SlotFault
  | [] => none
  | x :: r =>
    match lowestFault r with
    | none => some x
    | some y => if x.1 ≤ y.1 then some x else some y

/-- KIND of a destination-table entry (R43). -/
def destKind (e : Word) : Nat := fld e 31 30
/-- Does an entry name no target: KIND 00 or 11? -/
def destBad (e : Word) : Bool := decide (destKind e = 0) || decide (destKind e = 3)
/-- Does an entry of a FATIK image name no Fatik element of its base die (R439)? -/
def Image.fatikBad (img : Image) (j : Nat) : Bool := img.fatik && decide (destKind (img.dest j) = 1) && decide (fld (img.dest j) 27 14 ≠ 0)
/-- May a slot not name entry j? -/
def Image.entryBad (img : Image) (j : Nat) : Bool := destBad (img.dest j) || img.fatikBad j

/-- The faults of one source select (R41, R46, R94, R209). A select of an UNUSED literal in a source that the form does not read
is accepted (log 41). The ordering role reads nothing of a literal, so an MX slot may name any but F32 and WAVE there (log 41). -/
def srcFaults (img : Image) (fin : Nat) (rl : Role) (need : Bool) (sel : Nat) : List SlotFault :=
  let mx := decide (fin = 12) || decide (fin = 13)
  if 0x1C ≤ sel ∧ sel ≤ 0x1E then fault true 0x04
  else if sel = 0x1F then fault need 0x04
  else if rl = .unread then []
  else if 0x02 ≤ sel ∧ sel ≤ 0x11 then
    let j := sel - 2
    let ty := img.litType j
    faultL (decide (4 < ty)) 0x09 j ++ faultL (decide (ty = 4)) 0x0D j
      ++ faultL (decide (ty = 2) && decide (rl ≠ .val)) 0x0D j
      ++ faultL (decide (rl ≠ .ord) && mx && decide (ty < 3)) 0x0D j
  else fault (decide (rl ≠ .ord) && mx && (decide (0x12 ≤ sel) && decide (sel ≤ 0x18) || decide (sel = 0x1B))) 0x0D

/-- The raw bits of a source that is the same at every firing, extended to an input format: a literal or ZERO (R93, R141, R145). -/
def constRaw (img : Image) (fin sel : Nat) : Option DWord :=
  if 0x02 ≤ sel ∧ sel ≤ 0x11 then
    some (extendLit ((Fmt.ofCode fin).getD .n64) img.b8mode (img.litType (sel - 2)) ((img.lit (sel - 2)).setWidth 64) false false).1
  else if sel = 0x19 then some 0
  else none

/-- The destination-table entries that a FAN with a constant b names (R145). -/
def fanConst (img : Image) (fin b : Nat) : List Nat :=
  match constRaw img fin b with
  | some v => (List.range 16).filter (bit v)
  | none => []

/-- The exit that an EXIT with a constant b fires (R141): its destination-table entry. -/
def exitConst (img : Image) (fin b : Nat) : List Nat :=
  match constRaw img fin b with
  | some v => if v.toNat < img.exits then [12 + v.toNat] else []
  | none => []

/-- The faults of one destination select (R42, R66, R141, R176). -/
def dstFaults (img : Image) (fout sel : Nat) : List SlotFault :=
  if sel ≤ 0x0F then
    faultE (img.entryBad sel) 0x07 sel
  else if sel ≤ 0x13 then []
  else if sel = 0x14 then fault img.fatik 0x0F ++ fault (decide (fout ≠ 10)) 0x0D
  else if sel = 0x15 then fault (decide (fout ≠ 6)) 0x0D
  else if sel ≤ 0x19 then
    if img.exits ≤ sel - 0x16 then fault true 0x08
    else faultE (img.entryBad (12 + (sel - 0x16))) 0x07 (12 + (sel - 0x16))
  else fault (decide (sel ≠ 0x1F)) 0x04

/-- The destination-table entry that a destination select names, itself or by an exit (R42, R141). -/
def selEntry (sel : Nat) : Option Nat := if sel ≤ 0x0F then some sel else if 0x16 ≤ sel ∧ sel ≤ 0x19 then some (12 + (sel - 0x16)) else none

/-- A scale send to an entry with SIG set (R123, R165). -/
def scaleFaults (img : Image) (sel : Nat) : List SlotFault :=
  match selEntry sel with
  | some j => faultE (bit (img.dest j) 3) 0x0D j
  | none => []

/-- The wave literal of a slot breaks R226. -/
def waveBad (w : Word) : Bool :=
  decide (fld w 21 12 = 0) || (bit w 1 && decide (fld w 31 22 ≠ 0)) || (bit w 0 && decide (fld w 11 2 ≠ 0))

/-- Check 5 of R51 on one slot, but for its edges: every fault it has. -/
def slotFaults (img : Image) (s : Nat) : List SlotFault :=
  let w := img.instr s
  let op := (fieldOp w).toNat
  let a := (fieldA w).toNat
  let b := (fieldB w).toNat
  let d := (fieldD w).toNat
  let e := (fieldE w).toNat
  let t := (fieldT w).toNat
  let fin := img.fin s
  let fout := img.fout s
  let k := formOf op
  let ctl := s % 16
  let cw := img.lit ctl
  let cty := img.litType ctl
  let needB := k.needB || (decide (op = 0xE0) && !bit cw 0)
  let roleB := if op = 0xE0 ∧ bit cw 0 then Role.unread else k.rb
  fault (decide (fin = 15) || decide (fout = 15)) 0x02
    ++ srcFaults img fin k.ra true a ++ srcFaults img fin roleB needB b
    ++ fault ((decide (op = 0x61) || decide (op = 0x7D) || decide (op = 0x8B)) && (decide (a ≠ 0) || decide (b ≠ 1))) 0x04
    ++ fault (decide (op = 0x4A) && decide (b ≠ 0x1F)) 0x04
    ++ fault (decide (op = 0xF7) && decide (b ≠ 1) && decide (b ≠ 0x1F)) 0x04
    ++ fault ((decide (op = 0x65) || decide (op = 0x66)) && (decide (d ≠ 0x1F) || decide (e ≠ 0x1F))) 0x04
    ++ dstFaults img fout d ++ dstFaults img fout e
    ++ fault (decide (1 < a) && decide (1 < b)) 0x05
    ++ fault (decide (8 ≤ t) || (inRanges op [(0x70, 0x76)] && decide (t ≠ 0))) 0x06
    ++ (if op = 0x63 then (fanConst img fin b).flatMap fun j => faultE (img.entryBad j) 0x07 j else [])
    ++ (if op = 0x66 then (exitConst img fin b).flatMap fun j => faultE (img.entryBad j) 0x07 j else [])
    ++ (if readsK15 op then
        faultL (decide (4 < img.litType 15)) 0x09 15 ++ faultL (decide (img.litType 15 = 4)) 0x0D 15
          ++ faultL (inRanges op [(0xA0, 0xA4)] && (decide (img.litType 15 = 2) || decide (fld (img.lit 15) 31 30 ≠ 0))) 0x0D 15
       else [])
    ++ (if readsControl op then
        faultL (decide (4 < cty)) 0x09 ctl ++ faultL (decide (cty ≠ 1) && decide (cty ≠ 3) && decide (cty ≤ 4)) 0x0D ctl
          ++ faultL ((decide (op = 0xE0) && decide (fld cw 31 1 ≠ 0)) || (decide (op = 0xE1) && decide (fld cw 31 5 ≠ 0))
              || ((decide (op = 0xE4) || decide (op = 0xE5)) && (decide (fld cw 31 5 ≠ 0) || decide (fld cw 3 0 ≠ 0)))) 0x0D ctl
       else [])
    ++ fault (decide (img.levels = 0) && ((decide (1 ≤ t) && decide (t ≤ 7)) || inRanges op [(0x70, 0x73), (0x78, 0x7A)])) 0x0B
    ++ fault (decide (img.poolSize = 0) && (decide (t = 4) || decide (op = 0x72))) 0x0B
    ++ fault (!acceptsFmt op fin fout) 0x0D
    ++ (if op ∈ [0x47, 0x48, 0x49] then fault (decide (e ≠ 0x1F) && (decide (0x0F < e) || decide (destKind (img.dest e) ≠ 1))) 0x0D ++ scaleFaults img e else [])
    ++ (if (fin = 12 ∨ fin = 13) ∧ (op = 0x81 ∨ op = 0x85) then scaleFaults img d ++ scaleFaults img e else [])
    ++ (if (fin = 12 ∨ fin = 13) ∧ (op = 0x90 ∨ op = 0x9C) then scaleFaults img d else [])
    ++ fault (decide (img.priv < leastPriv op)) 0x0E
    ++ fault (img.fatik && inRanges op [(0x80, 0x87)]) 0x0F
    ++ fault (decide (fld img.b8mode 2 0 = 0) && (decide (fin = 11) || decide (fin = 12) || decide (fout = 11) || decide (fout = 12))) 0x12
    ++ (if img.wave && isMemForm op then faultL (decide (cty ≠ 4)) 0x09 ctl ++ faultL (decide (cty = 4) && waveBad cw) 0x0D ctl else [])

/-- Check 5 on one slot: an unassigned value ahead of every other fault, else the lowest reason (R67). -/
def checkSlot (img : Image) (s : Nat) : Option SlotFault :=
  if assigned (fieldOp (img.instr s)).toNat then lowestFault (slotFaults img s) else some (0x03, none, none)

/-- The trap a fault of check 5 raises at issue in a dynamically loaded image (R54). -/
def lazyCause (reason : Nat) : Cause :=
  if reason = 0x0D ∨ reason = 0x10 ∨ reason = 0x02 ∨ reason = 0x12 then .format
  else if reason = 0x0E then .priv else .illegal

/-! ## Regions and edges (R96, R97) -/

/-- Does an element lie in the region of another: its block bound, with the same anchor (R97)? -/
def Fabric.sameRegion (f : Fabric) (x y : Nat) : Bool :=
  match f.anchorOf x, f.anchorOf y with
  | some p, some q => decide (p = q)
  | _, _ => false

/-- The destination-table entries a slot names through DSTA, DSTB, its exits, and a constant b of FAN or EXIT. -/
def slotDests (img : Image) (s : Nat) : List Nat :=
  let w := img.instr s
  let op := (fieldOp w).toNat
  let b := (fieldB w).toNat
  (selEntry (fieldD w).toNat).toList ++ (selEntry (fieldE w).toNat).toList
    ++ (if op = 0x63 then fanConst img (img.fin s) b else []) ++ (if op = 0x66 then exitConst img (img.fin s) b else [])

/-- The element a token entry names, from an element: a Fatik image names elements of its own base die (R439). -/
def entryTarget (el : Nat) (e : Word) : Nat :=
  if isFatik el then fatikKey (fatikStack el) (fld e 13 12) else fld e 27 12

/-- The sides a slot reads: A and B of its selects; MRG and ZIP both. -/
def slotReads (img : Image) (s : Nat) (side : Bool) : Bool :=
  let w := img.instr s
  img.uses s && (if side then decide ((fieldA w).toNat = 1) || decide ((fieldB w).toNat = 1)
    else decide ((fieldA w).toNat = 0) || decide ((fieldB w).toNat = 0))

/-- The operands of the form in a slot: NAME with INIT set reads no name on b (R373). -/
def slotForm (img : Image) (s op : Nat) : Form :=
  if op = 0xE0 ∧ bit (img.lit (s % 16)) 0 then { formOf op with rb := .unread } else formOf op

/-- Is a token that an operand takes compared with the slot's input format (R27)? One that the form reads as a value, and one
that it ignores (R69); a role is exempt (R209). -/
def Role.compared (r : Role) : Bool := r == .val || r == .unread

/-- Is what arrives on a side of a slot compared with the slot's input format (R27, R96)? -/
def sideIsValue (img : Image) (s : Nat) (side : Bool) : Bool :=
  let w := img.instr s
  let k := slotForm img s (fieldOp w).toNat
  let n := side.toNat
  (decide ((fieldA w).toNat = n) && k.ra.compared) || (decide ((fieldB w).toNat = n) && k.rb.compared)

/-- Does a slot's DSTB carry scale tokens only (R123)? -/
def scaleOnly (img : Image) (s j : Nat) : Bool :=
  let w := img.instr s
  inRanges (fieldOp w).toNat [(0x47, 0x49)] && decide ((fieldE w).toNat = j) && decide ((fieldD w).toNat ≠ j)

/-- The data edges of a slot into the image at a target element: entry, target slot, side. -/
def edgesInto (el tgt : Nat) (img : Image) (s : Nat) : List (Nat × Nat × Bool) :=
  (slotDests img s).filterMap fun j =>
    let e := img.dest j
    if destKind e = 1 && decide (entryTarget el e = tgt) && !scaleOnly img s j then some (j, fld e 9 5, bit e 4) else none

/-- The format faults of the edges of a slot of one image into another image at a target element (R96). -/
def edgeFaults (el tgt : Nat) (img dst : Image) (s : Nat) : List SlotFault :=
  (edgesInto el tgt img s).flatMap fun x => faultE (slotReads dst x.2.1 x.2.2 && sideIsValue dst x.2.1 x.2.2 && decide (img.fout s ≠ dst.fin x.2.1)) 0x0D x.1

/-- The side check of R23, on the edges that an image has into itself. -/
def sideFaults (el : Nat) (img : Image) (s : Nat) : List SlotFault :=
  (edgesInto el el img s).flatMap fun x => faultE (!slotReads img x.2.1 x.2.2) 0x10 x.1

/-- A B8 or MXB8 send out of the region (R97). An entry of KIND 10 names a route and no target (DEDUCED, log 47). -/
def b8Faults (f : Fabric) (el : Nat) (img : Image) (s : Nat) : List SlotFault :=
  if img.fout s = 11 ∨ img.fout s = 12 then
    (slotDests img s).flatMap fun j =>
      faultE (decide (destKind (img.dest j) = 1) && !f.sameRegion el (entryTarget el (img.dest j))) 0x0D j
  else []

/-- The images of a context resident in the elements of an element's region. -/
def regionImages (f : Fabric) (el ctx : Nat) : List (Nat × Image) :=
  f.els.filterMap fun p =>
    if f.sameRegion el p.1 then (p.2.residentOf ctx).map fun r => (p.1, r.image) else none

/-! ## The image as a whole (R45-R51) -/

/-- One bit step of the CRC (R45). -/
def crcStep (c : Nat) : Nat := if c % 2 = 1 then (c / 2) ^^^ 0xEDB88320 else c / 2
/-- CRC-32 of IEEE 802.3 (R45). -/
def crc32 (bs : List Byte) : Word :=
  let go := fun (c : Nat) (b : Byte) =>
    crcStep (crcStep (crcStep (crcStep (crcStep (crcStep (crcStep (crcStep (c ^^^ b.toNat))))))))
  w32 (bs.foldl go 0xFFFFFFFF ^^^ 0xFFFFFFFF)

/-- The bytes of an image up to an offset. -/
def imageBytes (img : Image) (n : Nat) : List Byte := (List.range n).map img.byte

/-- Check 1: magic number, version, CRC. -/
def check1 (img : Image) : Bool :=
  decide (fld (img.word 46) 31 0 = 0x00015B1E) && decide (img.half 95 = crc32 (imageBytes img 0x17C))

/-- A destination entry with a reserved bit set, or a field its KIND keeps zero (R43). The row of SIG does not say zero otherwise,
as those of HINT, SLOT and SIDE do, so a KIND 10 entry may have it set, and nothing reads it (DEDUCED, log 47). -/
def destReserved (e : Word) : Bool :=
  decide (fld e 29 28 ≠ 0) || decide (fld e 2 0 ≠ 0)
    || match destKind e with
       | 0 => decide (e ≠ 0)
       | 2 => decide (fld e 15 4 ≠ 0)
       | _ => false

/-- Check 2: reserved bits, and unused slots that hold something (the lowest is reported). A literal of type UNUSED that is not
zero is refused here with REASON 0x02; R46 names neither (DESIGN CHOICE, log 41). -/
def check2 (img : Image) : Option Word :=
  let h := img.h
  if fld (h 0) 52 51 ≠ 0 ∨ fld (h 0) 47 45 ≠ 0 ∨ fld (h 1) 63 48 ≠ 0 ∨ fld (h 2) 63 48 ≠ 0 ∨ fld (h 3) 55 32 ≠ 0
      ∨ fld (h 3) 30 27 ≠ 0 ∨ fld (h 3) 23 16 ≠ 0 ∨ fld (h 4) 63 32 ≠ 0 ∨ fld (h 5) 63 32 ≠ 0 ∨ h 6 ≠ 0 ∨ h 7 ≠ 0
      ∨ img.word 33 ≠ 0 ∨ fld (img.word 46) 63 32 ≠ 0 ∨ fld (img.word 47) 31 0 ≠ 0 ∨ destReserved img.trapd
      ∨ (List.range 16).any (fun j => destReserved (img.dest j) || (decide (5 ≤ img.litType j) && decide (img.litType j ≤ 14))
          || (decide (img.litType j = 15) && decide (img.lit j ≠ 0)))
  then some (loadReport 0x02 none none none)
  else ((List.range 32).find? fun s => !img.uses s && (decide (img.instr s ≠ 0) || decide (img.fmtByte s ≠ 0))).map fun s =>
    loadReport 0x02 (some s) none none

/-- The bytes of a frame of a directory entry (R32). -/
def frameBytes (e : Word) : Nat := 128 + 160 * 2 ^ (fld e 26 24 + 4)
/-- The base of a frame. -/
def frameBase (e : Word) : Nat := 8 * fld e 15 0
/-- Is a valid frame entry beyond element memory or of the reserved size? -/
def frameBad (e : Word) : Bool :=
  bit e 31 && (decide (fld e 26 24 = 7) || decide (Config.elemBytes < frameBase e + frameBytes e))

/-- The widths of all levels, summed. -/
def widthSum (img : Image) : Nat := img.fieldLo (img.levels + 1)

/-- Check 3: header fields, lowest reason first. -/
def check3 (img : Image) (fatikEl : Bool) : Option Word :=
  let lv := img.levels
  let levelsBad := decide (12 < lv)
    || (List.range 12).any (fun i => decide (lv ≤ i) && (decide (fld (img.h 1) (4 * i + 3) (4 * i) ≠ 0) || decide (fld (img.h 2) (4 * i + 3) (4 * i) ≠ 0)))
    || (List.range 12).any (fun i => decide (i < lv) && decide (fld (img.h 1) (4 * i + 3) (4 * i) < 3))
    || decide (48 < widthSum img)
  let st := (List.range 32).find? fun s => bit img.stmask s && (!img.uses s || !isStoreForm (fieldOp (img.instr s)).toNat)
  if levelsBad then some (loadReport 0x0A none none none)
  else if st.isSome then some (loadReport 0x0C st none none)
  else if img.fatik ≠ fatikEl then some (loadReport 0x0F none none none)
  else if frameBad img.frame then some (loadReport 0x11 none none none)
  else if fld img.b8mode 2 0 = 0 ∧ fld img.b8mode 4 3 ≠ 0 then some (loadReport 0x12 none none none)
  else if 4 < img.roundCode ∨ img.priv = 3 ∨ destKind img.trapd ≠ 1 then some (loadReport 0x13 none none none)
  else none

/-- Check 4: privilege against the loader and the place (R51, R397). A Fatik image loads at its own PRIV (R440). -/
def check4 (img : Image) (el loaderPriv : Nat) : Option Word :=
  let place := isFatik el || (if img.priv = 2 then decide (blockOf el = 0) else if img.priv = 1 then decide (blockOf el % 64 = 0) else true)
  if loaderPriv < img.priv ∨ !place then some (loadReport 0x0E none none none) else none

/-- Check 5 over the slots in use, ascending (skipped for a dynamically loaded image, R54), with the edges visible. An edge from
another image into this one is reported after every fault of this image's own slots, under the other image's slot and entry
(DESIGN CHOICE, log 41); after these an entry of a FATIK image that no slot names (R439; DESIGN CHOICE, log 41). -/
def check5 (f : Fabric) (el : Nat) (img : Image) : Option Word :=
  let others := regionImages f el img.ctx
  let bad := (List.range 32).filterMap fun s =>
    if img.uses s then
      let all :=
        (match checkSlot img s with | some x => [x] | none => [])
          ++ b8Faults f el img s
          ++ (others.filter fun p => !p.2.lazy && decide (p.1 ≠ el)).flatMap (fun p => edgeFaults el p.1 img p.2 s)
          ++ sideFaults el img s ++ edgeFaults el el img img s
      (match checkSlot img s with | some (0x03, _, _) => some (0x03, none, none) | _ => lowestFault all).map fun x => (s, x)
    else none
  let into := (others.filter fun p => !p.2.lazy && decide (p.1 ≠ el)).flatMap fun p =>
    (List.range 32).filterMap fun s => if p.2.uses s then (lowestFault (edgeFaults p.1 el p.2 img s)).map fun x => (s, x) else none
  match bad ++ into with
  | [] => ((List.range 16).find? img.fatikBad).map fun j => loadReport 0x07 none (some j) none
  | (s, r, x, l) :: _ => some (loadReport r (if r = 0x10 then none else some s) x l)

/-- `levels` of an anchor's record that RESTORE brought back and no image has completed since (R352). -/
def restoredLevels : Nat := 15

/-- Agreement with the context's other images in the region: B8MODE (R96), levels, widths, bounds and pool (R135). A record that RESTORE
brought back holds no shape until an image completes it. -/
def checkRegion (f : Fabric) (el : Nat) (img : Image) : Option Word :=
  let others := (regionImages f el img.ctx).filter fun p => decide (p.1 ≠ el)
  let shape := match f.anchorOf el with
    | none => false
    | some an =>
      match tfind (f.blk an).anchors img.ctx with
      | none => false
      | some x => !x.stale && decide (x.levels ≠ restoredLevels) && (decide (x.levels ≠ img.levels) || decide (x.h1 ≠ img.h 1) || decide (x.h2 ≠ img.h 2) || decide (x.poolSize ≠ img.poolSize))
  if shape then some (loadReport 0x0A none none none)
  else if others.any (fun p => decide (p.2.b8mode ≠ img.b8mode)) then some (loadReport 0x12 none none none)
  else none

/-- A new frame of a resident context that overlaps its old frame is refused (R38). -/
def checkFrame (f : Fabric) (el : Nat) (img : Image) : Option Word :=
  let e := f.el el
  let old := BitVec.ofNat 32 (e.mem.readN (1024 * fld e.framedir 18 10 + 4 * img.ctx) 4)
  if (e.slotOf img.ctx).isSome && bit old 31 && bit img.frame 31 && decide (old ≠ img.frame)
      && decide (frameBase img.frame < frameBase old + frameBytes old) && decide (frameBase old < frameBase img.frame + frameBytes img.frame)
  then some (loadReport 0x11 none none none) else none

/-- The first answer of a list of checks. -/
def firstSome : List (Option Word) → Option Word
  | [] => none
  | some x :: _ => some x
  | none :: r => firstSome r

/-- The checks of a load in order (R51): the report word, zero where the image is accepted. R51 gives no place to the refusals of
R38 (0x11), R135 (0x0A) and R96 (0x12 for B8MODE); the model makes them between checks 4 and 5, for every image (DESIGN CHOICE,
log 41). -/
def loadCheck (f : Fabric) (el : Nat) (img : Image) (loaderPriv : Nat) : Word :=
  if !check1 img then loadReport 0x01 none none none
  else (firstSome [check2 img, check3 img (isFatik el), check4 img el loaderPriv, checkFrame f el img, checkRegion f el img,
    if img.lazy then none else check5 f el img]).getD 0

end Sys2Proof.Machine
end

