-- ==== Sys2Proof/Machine/Real.lean ====
section
/-! DEFINITION. Exact float arithmetic and the correctly rounded functions of R116 and R117. A function value is enclosed
between two rationals at rising precision until both round alike (log 11). -/

namespace Sys2Proof.Machine

/-- An exact result with the flags of an invalid operation or a division by zero. -/
abbrev FR := FV × Flags

/-- The NaN of a list of operands: IV when one signals (R73). -/
def nanOf (xs : List FV) : FR := (.nan false, flagIf (xs.any FV.isSig) flIV)

/-- A rational as a value; an exact zero takes the given sign. -/
def qFV (q : Q) (zneg : Bool) : FV := if q.n = 0 then .zero zneg else .fin q

/-- a + b; an exact zero is -0 under RDN alone, and two like zeros keep their sign (R116). -/
def addFV (m : Round) (a b : FV) : FR :=
  match a, b with
  | .nan _, _ => nanOf [a, b]
  | _, .nan _ => nanOf [a, b]
  | .inf s, .inf t => if s = t then (.inf s, 0) else (.nan false, flIV)
  | .inf s, _ => (.inf s, 0)
  | _, .inf t => (.inf t, 0)
  | .zero s, .zero t => (.zero (if s = t then s else m == .rdn), 0)
  | .zero _, .fin q => (.fin q, 0)
  | .fin q, .zero _ => (.fin q, 0)
  | .fin p, .fin q => (qFV (Q.add p q) (m == .rdn), 0)

/-- The value with its sign changed. -/
def negFV : FV → FV
  | .nan s => .nan s
  | .inf s => .inf !s
  | .zero s => .zero !s
  | .fin q => .fin q.neg

/-- a × b. -/
def mulFV (a b : FV) : FR :=
  let s := a.neg != b.neg
  match a, b with
  | .nan _, _ => nanOf [a, b]
  | _, .nan _ => nanOf [a, b]
  | .inf _, .zero _ => (.nan false, flIV)
  | .zero _, .inf _ => (.nan false, flIV)
  | .inf _, _ => (.inf s, 0)
  | _, .inf _ => (.inf s, 0)
  | .zero _, _ => (.zero s, 0)
  | _, .zero _ => (.zero s, 0)
  | .fin p, .fin q => (.fin (Q.mul p q), 0)

/-- a × b + c with one rounding to come; zero × infinity is invalid whatever c holds (R116). -/
def fmaFV (m : Round) (a b c : FV) : FR :=
  let p := mulFV a b
  let r := addFV m p.1 c
  (r.1, p.2 ||| r.2)

/-- 1 / q. -/
def Q.inv (q : Q) : Q := if q.n < 0 then ⟨-(q.d : Int), q.n.natAbs⟩ else ⟨q.d, q.n.natAbs⟩

/-- a ÷ b (R116). -/
def divFV (a b : FV) : FR :=
  let s := a.neg != b.neg
  match a, b with
  | .nan _, _ => nanOf [a, b]
  | _, .nan _ => nanOf [a, b]
  | .inf _, .inf _ => (.nan false, flIV)
  | .zero _, .zero _ => (.nan false, flIV)
  | .inf _, _ => (.inf s, 0)
  | _, .inf _ => (.zero s, 0)
  | .zero _, _ => (.zero s, 0)
  | .fin _, .zero _ => (.inf s, flDZ)
  | .fin p, .fin q => (.fin (Q.mul p q.inv), 0)

/-- Rounding of an exact result with its flags. -/
def finishFR (p : FP) (m : Round) (sr : Word) (r : FR) : Rounded :=
  let x := roundFV p m false sr r.1
  ⟨x.bits, x.fl ||| r.2, x.sr⟩

/-- The integer square root, bit by bit. -/
def isqrtGo (n : Nat) : Nat → Nat → Nat
  | 0, r => r
  | k + 1, r => let r' := r + 2 ^ k; isqrtGo n k (if r' * r' ≤ n then r' else r)

/-- ⌊√n⌋. -/
def isqrt (n : Nat) : Nat := isqrtGo n (Nat.log2 n / 2 + 1) 0

/-- √(n/d) rounded: exact where it is rational in the working precision, else a point strictly between neighbours. -/
def sqrtRound (p : FP) (m : Round) (sr : Word) (n d : Nat) : Rounded :=
  let k := 400
  let v := isqrt (n * 2 ^ (2 * k) / d)
  if v * v * d = n * 2 ^ (2 * k) then roundFin p m false false sr ⟨v, 2 ^ k⟩
  else roundFin p m false true sr ⟨2 * v + 1, 2 ^ (k + 1)⟩

/-! ## Enclosures -/

/-- Bounds of a positive number. -/
abbrev Enc := Q × Q

/-- Σ of the atanh series of u = num/den below 1/2: k terms from index i, fixed point at scale one. `pw` is u^(2i+1). -/
def atanhGo (u2 one : Nat) : Nat → Nat → Nat → Nat
  | 0, _, _ => 0
  | k + 1, i, pw => pw / (2 * i + 1) + atanhGo u2 one k (i + 1) (pw * u2 / one)

/-- ln 2 from below at P bits: 2 atanh (1/3); the error is below P + 8 units. -/
def ln2Lo (P : Nat) : Nat := 2 * atanhGo (2 ^ P / 9) (2 ^ P) (P / 3 + 4) 0 (2 ^ P / 3)

/-- The error bound of `ln2Lo` in units. -/
def ln2Err (P : Nat) : Nat := 4 * P + 16

/-- Taylor terms of e^y from index k on. -/
def expGo (y one : Nat) : Nat → Nat → Nat → Nat
  | 0, _, _ => 0
  | n + 1, k, t => t + expGo y one n (k + 1) (t * y / one / (k + 1))

/-- Bounds of e^y for 0 ≤ y < 1.5 given from below at P bits with an error of `err` units. -/
def expEnc (P y err : Nat) : Nat × Nat :=
  let n := P / 3 + 16
  let lo := expGo y (2 ^ P) n 0 (2 ^ P)
  (lo, lo + 6 * n + 6 * err + 8)

/-- Bounds of e^(n/d), n/d ≥ 0. -/
def exp_enc (P n d : Nat) : Enc :=
  let z := n * 2 ^ P / d
  let l := ln2Lo P
  let k := z / l
  let b := expEnc P (z - k * (l + ln2Err P)) (k * ln2Err P + 1)
  (Q.mul ⟨b.1, 2 ^ P⟩ (pow2 k), Q.mul ⟨b.2, 2 ^ P⟩ (pow2 k))

/-- Bounds of 2^(n/d) for any sign of n. -/
def exp2_enc (P : Nat) (x : Q) : Enc :=
  let i := x.n / x.d
  let fr := (x.n - i * x.d).toNat
  let y := fr * 2 ^ P / x.d
  let lo := y * ln2Lo P / 2 ^ P
  let b := expEnc P lo (ln2Err P + 2)
  (Q.mul ⟨b.1, 2 ^ P⟩ (pow2 i), Q.mul ⟨b.2, 2 ^ P⟩ (pow2 i))

/-- Bounds of |log2 x| for x > 0 not a power of two, with the sign of log2 x. -/
def log2_enc (P n d : Nat) : Bool × Enc :=
  let e := log2Q n d
  let n' := if 0 ≤ e then n else n * 2 ^ (-e).toNat
  let d' := if 0 ≤ e then d * 2 ^ e.toNat else d
  let u := (n' - d') * 2 ^ P / (n' + d')
  let k := P + 8
  let lo := 2 * atanhGo (u * u / 2 ^ P) (2 ^ P) k 0 u
  let hi := lo + 6 * k + 32
  let l := ln2Lo P
  let flo : Nat := lo * 2 ^ P / (l + ln2Err P)
  let fhi : Nat := hi * 2 ^ P / l + 1
  if 0 ≤ e then (false, (⟨e * 2 ^ P + flo, 2 ^ P⟩, ⟨e * 2 ^ P + fhi, 2 ^ P⟩))
  else (true, (⟨-e * 2 ^ P - fhi, 2 ^ P⟩, ⟨-e * 2 ^ P - flo, 2 ^ P⟩))

/-- Bounds of tanh (n/d), n/d > 0: the odd series below 2^-12, else from e^(2x); near 1 beyond 64. -/
def tanh_enc (P n d : Nat) : Enc :=
  if n * 4096 < d then
    let x : Q := ⟨n, d⟩
    let x2 := Q.mul x x
    let x3 := Q.mul x x2
    let x5 := Q.mul x3 x2
    let x7 := Q.mul x5 x2
    let hi := Q.add (Q.add x (Q.mul x3 ⟨-1, 3⟩)) (Q.mul x5 ⟨2, 15⟩)
    (Q.add hi (Q.mul x7 ⟨-17, 315⟩), hi)
  else if 64 * d < n then (⟨2 ^ 100 - 1, 2 ^ 100⟩, ⟨2 ^ 200 - 1, 2 ^ 200⟩)
  else
    let b := exp_enc P (2 * n) d
    let g := fun (q : Q) => (⟨q.n - q.d, (q.n + q.d).toNat⟩ : Q)
    (g b.1, g b.2)

/-- Bounds of 1 ÷ (1 + e^-x). -/
def sigm_enc (P : Nat) (x : Q) : Enc :=
  let n := x.n.natAbs
  if 200 * x.d < n then
    if x.n < 0 then (pow2 (-500), pow2 (-400)) else (⟨2 ^ 100 - 1, 2 ^ 100⟩, ⟨2 ^ 200 - 1, 2 ^ 200⟩)
  else
    let b := exp_enc P n x.d
    if x.n < 0 then
      let g := fun (q : Q) => (⟨q.d, (q.n + q.d).toNat⟩ : Q)
      (g b.2, g b.1)
    else
      let g := fun (q : Q) => (⟨q.n, (q.n + q.d).toNat⟩ : Q)
      (g b.1, g b.2)

/-- An enclosed inexact value rounded: the first precision at which both bounds round alike decides. -/
def roundEnc (p : FP) (m : Round) (sr : Word) (neg : Bool) (enc : Nat → Enc) : List Nat → Rounded
  | [] => ⟨0, 0, sr⟩
  | P :: rest =>
    let s := fun (q : Q) => if neg then q.neg else q
    let lo := roundFin p m false true sr (s (enc P).1)
    let hi := roundFin p m false true sr (s (enc P).2)
    if lo = hi || rest.isEmpty then lo else roundEnc p m sr neg enc rest

/-- The precisions tried. -/
def precisions : List Nat := [96, 192, 384, 768]

/-- √a (R117). -/
def sqrtF (p : FP) (m : Round) (sr : Word) (a : FV) : Rounded :=
  match a with
  | .nan s => ⟨w64 p.nan, flagIf s flIV, sr⟩
  | .zero s => ⟨p.withSign s 0, 0, sr⟩
  | .inf s => if s then ⟨w64 p.nan, flIV, sr⟩ else ⟨w64 p.inf, 0, sr⟩
  | .fin q => if q.n < 0 then ⟨w64 p.nan, flIV, sr⟩ else sqrtRound p m sr q.n.natAbs q.d

/-- 1 ÷ a (R117). -/
def rcpF (p : FP) (m : Round) (sr : Word) (a : FV) : Rounded := finishFR p m sr (divFV (.fin ⟨1, 1⟩) a)

/-- 1 ÷ √a (R117). -/
def rsqF (p : FP) (m : Round) (sr : Word) (a : FV) : Rounded :=
  match a with
  | .nan s => ⟨w64 p.nan, flagIf s flIV, sr⟩
  | .zero s => ⟨p.withSign s p.inf, flDZ, sr⟩
  | .inf s => if s then ⟨w64 p.nan, flIV, sr⟩ else ⟨0, 0, sr⟩
  | .fin q => if q.n < 0 then ⟨w64 p.nan, flIV, sr⟩ else sqrtRound p m sr q.d q.n.natAbs

/-- 2^a (R117): exact at integers, far arguments taken at ±400. -/
def exp2F (p : FP) (m : Round) (sr : Word) (a : FV) : Rounded :=
  match a with
  | .nan s => ⟨w64 p.nan, flagIf s flIV, sr⟩
  | .zero _ => roundFin p m false false sr ⟨1, 1⟩
  | .inf s => if s then ⟨0, 0, sr⟩ else ⟨w64 p.inf, 0, sr⟩
  | .fin q =>
    if q.n < -400 * q.d then roundFin p m false true sr (pow2 (-400))
    else if 400 * q.d < q.n then roundFin p m false true sr (pow2 400)
    else if q.n % q.d = 0 then roundFin p m false false sr (pow2 (q.n / q.d))
    else roundEnc p m sr false (fun P => exp2_enc P q) precisions

/-- log2 a (R117): exact at powers of two. -/
def log2F (p : FP) (m : Round) (sr : Word) (a : FV) : Rounded :=
  match a with
  | .nan s => ⟨w64 p.nan, flagIf s flIV, sr⟩
  | .zero _ => ⟨p.withSign true p.inf, flDZ, sr⟩
  | .inf s => if s then ⟨w64 p.nan, flIV, sr⟩ else ⟨w64 p.inf, 0, sr⟩
  | .fin q =>
    if q.n < 0 then ⟨w64 p.nan, flIV, sr⟩
    else
      let n := q.n.natAbs
      let e := log2Q n q.d
      if (if 0 ≤ e then n = q.d * 2 ^ e.toNat else n * 2 ^ (-e).toNat = q.d) then roundFV p m false sr (intFV e 0)
      else roundEnc p m sr (log2_enc 96 n q.d).1 (fun P => (log2_enc P n q.d).2) precisions

/-- tanh a (R117). -/
def tanhF (p : FP) (m : Round) (sr : Word) (a : FV) : Rounded :=
  match a with
  | .nan s => ⟨w64 p.nan, flagIf s flIV, sr⟩
  | .zero s => ⟨p.withSign s 0, 0, sr⟩
  | .inf s => roundFin p m false false sr ⟨if s then -1 else 1, 1⟩
  | .fin q => roundEnc p m sr (decide (q.n < 0)) (fun P => tanh_enc P q.n.natAbs q.d) precisions

/-- 1 ÷ (1 + e^-a) (R117). -/
def sigmF (p : FP) (m : Round) (sr : Word) (a : FV) : Rounded :=
  match a with
  | .nan s => ⟨w64 p.nan, flagIf s flIV, sr⟩
  | .zero _ => roundFin p m false false sr ⟨1, 2⟩
  | .inf s => if s then ⟨0, 0, sr⟩ else roundFin p m false false sr ⟨1, 1⟩
  | .fin q => roundEnc p m sr false (fun P => sigm_enc P q) precisions

/-! ## Comparison and selection (R118, R119) -/

/-- a < b of non-NaN values; -0 equals +0. -/
def ltFV (a b : FV) : Bool :=
  match a, b with
  | .inf s, .inf t => s && !t
  | .inf s, _ => s
  | _, .inf t => !t
  | .zero _, .zero _ => false
  | .zero _, .fin q => decide (0 < q.n)
  | .fin p, .zero _ => decide (p.n < 0)
  | .fin p, .fin q => p.lt q
  | _, _ => false

/-- a below b with -0 below +0 (R118). -/
def ltTotal (a b : FV) : Bool :=
  match a, b with
  | .zero s, .zero t => s && !t
  | _, _ => ltFV a b

/-- FMIN and FMAX (R118) on raw bits: the other operand beside one NaN, the canonical NaN of two. -/
def minmaxF (p : FP) (isMax : Bool) (x y : DWord) : DWord × Flags :=
  let a := fread p x
  let b := fread p y
  let fl := flagIf (a.isSig || b.isSig) flIV
  if a.isNan && b.isNan then (w64 p.nan, fl)
  else if a.isNan then (y, fl)
  else if b.isNan then (x, fl)
  else if isMax then (if ltTotal a b then y else x, fl)
  else (if ltTotal b a then y else x, fl)

end Sys2Proof.Machine
end

