-- ==== Sys2Proof/Machine/Flags.lean ====
section
/-! DEFINITION. Arithmetic flags and results of a firing: lanes computed in order with flags and SR state (R87, R89-R92,
R105-R107), and the tokens a form sends. -/

namespace Sys2Proof.Machine

/-- EL.AFLAGS with flags set (R90). -/
def Element.addFlags (e : Element) (fl : Flags) : Element := { e with aflags := e.aflags ||| fl.setWidth 32 }

/-- Does a set of flags meet an enabled one (R91)? -/
def Element.traps (e : Element) (fl : Flags) : Bool := decide (e.aftrap &&& fl.setWidth 32 ≠ 0)

/-- Lanes computed with their flags and the SR state after them. -/
structure Lanes where
  vals : List DWord
  fl : Flags
  sr : Word
  deriving DecidableEq, Repr

/-- Lanes in ascending order: a valid lane through `g` from the SR state before it, any other lane as `off` gives it. -/
def runLanes (g : Nat → Word → Rounded) (valid : BitVec 32) (off : Nat → DWord) : List Nat → Word → Lanes
  | [], sr => ⟨[], 0, sr⟩
  | k :: r, sr =>
    if bit valid k then
      let x := g k sr
      let rest := runLanes g valid off r x.sr
      ⟨x.bits :: rest.vals, x.fl ||| rest.fl, rest.sr⟩
    else
      let rest := runLanes g valid off r sr
      ⟨off k :: rest.vals, rest.fl, rest.sr⟩

/-- What a predicated-off lane holds: srcA passed through, or zero where the formats differ (R105). -/
def FCtx.offLane (c : FCtx) (k : Nat) : DWord := if c.fin = c.fout then c.va k else 0

/-- Every lane of a firing through `g`. -/
def FCtx.compute (c : FCtx) (g : Nat → Word → Rounded) : Lanes := runLanes g c.valid c.offLane c.lanes c.elt.srstate

/-! ## Tokens a form sends -/

/-- A run shaped as the firing. -/
def FCtx.run (c : FCtx) (dst : Nat) (valid : BitVec 32) (vals : List DWord) : Out :=
  ⟨dst, c.fout, c.vec, valid, vals, false, 0, none, false, false, none⟩
/-- A scalar of the output format, raw bits cut to its width. -/
def FCtx.scalar (c : FCtx) (dst : Nat) (valid : Bool) (v : DWord) : Out :=
  ⟨dst, c.fout, false, if valid then 1 else 0, [trunc (codeWidth c.fout) v], false, 0, none, false, false, none⟩
/-- An ordering token (R214): FAIL and cause. -/
def ordTok (dst fmt : Nat) (fail : Bool) (cause : BitVec 2) : Out :=
  ⟨dst, fmt, false, 1, [w64 (fail.toNat + 2 * cause.toNat)], true, 0, none, false, false, none⟩
def FCtx.ord (c : FCtx) (dst : Nat) : Out := ordTok dst c.fout false 0
/-- The same run to both destinations. -/
def FCtx.both (c : FCtx) (valid : BitVec 32) (vals : List DWord) : List Out := [c.run c.d valid vals, c.run c.e valid vals]
/-- a as it stands, with a valid word. -/
def FCtx.avals (c : FCtx) : List DWord := c.lanes.map c.va

/-! ## Outcomes of a form -/

/-- Why a firing does not go through: a trap, a wait with the number of what it waits for, or a wait or a trap that keeps
what the form has done so far, with the set as it waits. -/
inductive Stop where
  | trap (c : Cause) (info : Word)
  | park (r : ParkReason) (on : Nat)
  | hold (f : Fabric) (s : MSet) (r : ParkReason) (on : Nat)
  /-- a trap of a form that has changed the fabric, with the set as it parks -/
  | late (f : Fabric) (s : MSet) (c : Cause) (info : Word)
  deriving DecidableEq, Repr

/-- What a form did: the fabric after its own writes and sends, its flags, its tokens, and, where it waits for answers,
the record it waits with. -/
structure Res where
  f : Fabric
  fl : Flags
  outs : List Out
  wait : Option Pend
  /-- the result tag, where the form makes its own (TSET, RENM) -/
  tag : Option DWord

/-- A result whose tag is the tag action's. -/
def Res.of (f : Fabric) (fl : Flags) (outs : List Out) (wait : Option Pend) : Res := ⟨f, fl, outs, wait, none⟩

/-- A form that only emits. -/
def FCtx.emits (c : FCtx) (outs : List Out) : Except Stop Res := .ok (Res.of c.f 0 outs none)

/-- A form that computes its lanes and emits them to both destinations under V. -/
def FCtx.lanewise (c : FCtx) (g : Nat → Word → Rounded) : Except Stop Res :=
  let r := c.compute g
  .ok ⟨c.f.modEl c.el fun e => { e with srstate := r.sr }, r.fl, c.both c.valid r.vals, none, none⟩

/-- A lane operation without rounding. -/
def plain (x : DWord × Flags) (sr : Word) : Rounded := ⟨x.1, x.2, sr⟩

/-- FORMAT with the slot number (R27, R393). -/
def FCtx.format {α : Type} (c : FCtx) : Except Stop α := .error (.trap .format c.slotW)
/-- ILLEGAL with the slot number. -/
def FCtx.illegal {α : Type} (c : FCtx) : Except Stop α := .error (.trap .illegal c.slotW)

/-- A record of this firing to wait with. -/
def FCtx.pend (c : FCtx) : Pend where
  id := c.id
  set := c.s
  op := c.op
  d := c.d
  e := c.e
  t := BitVec.ofNat 4 c.t
  fin := c.fin
  fout := c.fout
  tag := c.tag
  grant := false
  left := 0
  a := 0
  b := 0
  c := 0
  args := []
  base := c.base
  vec := c.vec
  valid := c.valid
  vals := []
  fail := false
  cause := 0
  cnt := 0
  cur := 0
  phase := 0
  outs := []
  accs := []
  masked := false
  store := false
  target := 0
  scope := 7
  ordered := false
  placed := false
  priv := c.priv
  cleared := 0
  dead := false

end Sys2Proof.Machine
end

