-- ==== Sys2Proof/Machine/Firing.lean ====
section
/-! DEFINITION. A firing from issue to retirement: the checks before any operand is fetched (R26, R27, R54, R134, R137,
R203, R209), the tag action and the result tag (R44, R137, R147), emission (R42, R141, R165, R176, R200), commit (R140,
R141), the reorder unit (R367), answer places (R340), and ARITH (R91). -/

namespace Sys2Proof.Machine

/-! ## The firing context of a set -/

/-- The token that gives a firing its run (R26, R105, R209, R217): the value side, the index side, or the trigger side. -/
def runTok (op a b : Nat) (s : MSet) : Option Tok :=
  let k := formOf op
  let tok := fun sel : Nat => if sel = 0 then s.a else if sel = 1 then s.b else none
  let valTok := fun (r : Role) (sel : Nat) => if r = .val ∨ r = .idx then tok sel else none
  let trig := inRanges op [(0x90, 0x90), (0x92, 0x92), (0x95, 0x95), (0x9C, 0x9C)]
  if trig then
    match tok b with
    | some x => if x.vec then some x else none
    | none => none
  else
    match valTok k.ra a with
    | some x => some x
    | none =>
      match valTok k.rb b with
      | some x => some x
      | none =>
        if k.ra = .unread ∨ k.rb = .unread then
          match s.a with
          | some x => some x
          | none => s.b
        else none

/-- The lane-valid word of a firing (R105): the AND over its value sides, bit 0 alone in a scalar firing. LDX takes it from its B token
and STX from its value token alone (R217). -/
def firingValid (op a b : Nat) (s : MSet) (rt : Option Tok) (vec : Bool) : BitVec 32 :=
  let k := formOf op
  let eq := matchesEqual op
  let v := fun t : Option Tok => match t with | some x => (if x.vec then x.valid else if bit x.valid 0 then (if vec then BitVec.allOnes 32 else 1) else 0) | none => BitVec.allOnes 32
  if vec then
    if eq then
      let both := k.ra = .val ∧ k.rb = .idx
      match rt with
      | some x => if both then v (if a ≤ 1 then (if a = 0 then s.a else s.b) else none) &&& v (if b ≤ 1 then (if b = 0 then s.a else s.b) else none) else x.valid
      | none => 0
    else v s.a &&& v s.b
  else
    let tok := fun sel : Nat => if sel = 0 then s.a else if sel = 1 then s.b else none
    match (if op = 0x92 then tok b else if op = 0x93 then tok a else none) with
    | some x => v (some x) &&& 1
    | none => v s.a &&& v s.b &&& 1

/-- The context of a set at issue. -/
def mkCtx (f : Fabric) (el : Nat) (s : MSet) (op a b d e t : Nat) : FCtx :=
  let img := (f.el el).imageOf s.ctx
  let rt := runTok op a b s
  let vec := match rt with | some x => x.vec | none => false
  let len := match rt with | some x => (if x.vec then x.len else 1) | none => 1
  { f := f, el := el, s := s, img := img, op := op, a := a, b := b, d := d, e := e, t := t,
    vec := vec, len := len, valid := firingValid op a b s rt vec &&& lanesMask len, base := img.f s.tag 0 }

/-- The firing that a set would be: its slot's word as the resident image holds it. -/
def Fabric.ctxOf (f : Fabric) (el : Nat) (s : MSet) : FCtx :=
  let w := Image.instr ((f.el el).imageOf s.ctx) s.slot
  mkCtx f el s (fieldOp w).toNat (fieldA w).toNat (fieldB w).toNat (fieldD w).toNat (fieldE w).toNat (fieldT w).toNat

/-! ## Checks before any operand is fetched -/

/-- The tag action in effect: the tag forms and loop headers apply their own (R147, R148). -/
def FCtx.act (c : FCtx) : Nat :=
  match c.op with
  | 0x70 => 2 | 0x71 => 3 | 0x72 => 4 | 0x73 => 5 | 0x78 => 2 | 0x79 => 2 | 0x7A => 2
  | _ => c.t

/-- What check 5 finds at issue in a slot of a dynamically loaded image (R54): faults of the slot, of the sides of its edges into
itself (R23), and of its B8 sends out of the region (R97). Of several the lowest REASON decides, as at load (R67). -/
def Fabric.lazyFault (f : Fabric) (el : Nat) (img : Image) (s : Nat) : Option SlotFault :=
  lowestFault (slotFaults img s ++ sideFaults el img s ++ b8Faults f el img s)

/-- A dynamically loaded image is checked at issue (R54). -/
def FCtx.lazyStop (c : FCtx) : Option Stop :=
  if c.img.lazy then (c.f.lazyFault c.el c.img c.slot).map fun x => .trap (lazyCause x.1) c.slotW else none

/-- Does a form, or the tag action of its word, exchange with an anchor (R134)? -/
def FCtx.exchanges (c : FCtx) : Bool := (decide (2 ≤ c.act) && decide (c.act ≤ 5)) || decide (c.op = 0x67) || (decide (2 ≤ c.t) && decide (c.t ≤ 5))

/-- FMT and VEC agreement of value sides and of sides that the form ignores (R69), and runs in scalar roles (R27, R209, R371, R378,
R402). -/
def FCtx.fmtStop (c : FCtx) : Option Stop :=
  let k := slotForm c.img c.slot c.op
  let trig := inRanges c.op [(0x90, 0x90), (0x92, 0x92), (0x95, 0x95), (0x9C, 0x9C)]
  let bad := fun (r : Role) (sel : Nat) (isB : Bool) =>
    match c.tok sel with
    | none => false
    | some t =>
      match r with
      | .val => decide (t.fmt ≠ c.fin)
      | .role => t.vec
      | .ord => t.vec && !(isB && trig)
      | .name => decide (t.fmt ≠ 3 ∧ t.fmt ≠ 7) || !t.vec || decide (t.len ≠ 2) || decide (t.valid &&& 3 ≠ 3)
      | .handle => decide (codeWidth t.fmt ≠ 64) || !t.vec || decide (t.len ≠ 2) || decide (t.valid &&& 3 ≠ 3) || decide (fld (t.lane 1) 63 32 ≠ 0)
      | .record => t.vec && (decide (t.fmt ≠ 7) || decide (t.len ≠ 3))
      | .unread => decide (t.fmt ≠ c.fin)
      | .idx => false
  let vecs := ((if k.ra = .val ∨ k.ra = .idx then (c.tok c.a).toList else []) ++ (if k.rb = .val ∨ k.rb = .idx then (c.tok c.b).toList else []))
  let unread := k.rb = .unread ∧ (c.s.a.isSome ∧ c.s.b.isSome)
  let pair := if unread then (c.s.a.toList ++ c.s.b.toList) else vecs
  let disagree := match pair with | [x, y] => decide (x.vec ≠ y.vec) || (x.vec && decide (x.len ≠ y.len)) | _ => false
  if bad k.ra c.a false || bad k.rb c.b true || disagree then some (.trap .format c.slotW) else none

/-- Does a select name a destination that has an F0 field: a destination-table entry or an exit (R27)? -/
def isF0Dest (n : Nat) : Bool := decide (n < 16) || (decide (0x16 ≤ n) && decide (n ≤ 0x19))

/-- The selects that take a run of the firing's lanes: DSTA alone of a load or an atomic, whose DSTB takes an ordering token; FAN's entries
and EXIT's exit; none of a form that sends no such run (a reduction, a count, a store, a list of its own); else both. -/
def FCtx.runDests (c : FCtx) : List Nat :=
  if inRanges c.op [(0x50, 0x52), (0x55, 0x55), (0x59, 0x59), (0x65, 0x65), (0x82, 0x83), (0x88, 0x89), (0x8B, 0x8C), (0x91, 0x91),
      (0x93, 0x94), (0x96, 0x98), (0x9A, 0x9B), (0x9D, 0x9D), (0x9F, 0xA4), (0xC0, 0xFE)] then []
  else if inRanges c.op [(0x63, 0x63), (0x66, 0x66)] then [0]
  else if 0x90 ≤ c.op then [c.d]
  else [c.d, c.e]

/-- The depth of the result tag (R137). -/
def FCtx.resDepth (c : FCtx) : Nat :=
  match c.act with
  | 2 | 4 => depth c.tag + 1
  | 3 | 5 => depth c.tag - 1
  | _ => depth c.tag

/-- Does a run of n lanes from a base pass the F0 field of the result tag (R27)? -/
def FCtx.overF0 (c : FCtx) (base n : Nat) : Bool :=
  decide (c.resDepth ≠ 0) && decide (2 ^ c.img.width c.resDepth - 1 < base + n - 1)

/-- The same for a run that goes to selects with an F0 field. -/
def FCtx.passesF0 (c : FCtx) (ds : List Nat) (base n : Nat) : Bool := ds.any isF0Dest && c.overF0 base n

/-- The result run would pass the greatest F0 of a destination (R27), or the 1,024 bits of a token, of which elements generate no larger
one (R17, R23): no rule names the trap for that, and it is FORMAT as R130 and R148 have it for the same limit (DEDUCED, log 47). -/
def FCtx.f0Stop (c : FCtx) : Option Stop :=
  if c.vec ∧ c.runDests.any isF0Dest
      ∧ ((depth c.tag ≠ 0 ∧ c.img.f0Max c.tag < c.base + c.len - 1) ∨ 1024 < c.len * codeWidth c.fout)
  then some (.trap .format c.slotW) else none

/-- Does a firing take a token with VEC set, in whatever role (R137)? -/
def FCtx.anyVec (c : FCtx) : Bool := (c.s.a.toList ++ c.s.b.toList).any Tok.vec

/-- The traps of a tag action (R137). -/
def FCtx.actStop (c : FCtx) (act : Nat) : Option Stop :=
  let d := depth c.tag
  let bad :=
    (c.anyVec && decide (act ≠ 0)) || (act ∈ [1, 3, 5, 6, 7] && decide (d = 0)) || (act ∈ [2, 4] && decide (c.img.levels ≤ d))
      || (decide (act = 1) && decide (c.img.f c.tag 0 = c.img.f0Max c.tag))
  if bad then some (.trap .format c.slotW) else none

/-- Is a route fit to send on from an element (R203)? Answers its entry. -/
def routeOk (f : Fabric) (el route : Nat) : Option DWord :=
  match f.routeEntry el route with
  | none => none
  | some e =>
    let dst := fld e 41 26
    let kind := fld e 62 61
    let group := fun x : Nat => (dieOf x % 4 / 2, dieOf x / 4 / 2)
    if !bit e 63 || decide (kind = 0) || decide (kind = 3) || decide (fld e 57 42 ≠ el) || isFatik el || decide (group el ≠ group dst)
        || (decide (kind = 2) && decide (fld (tget 0 (f.el dst).wins (fld e 60 58)) 31 29 = 0))
    then none else some e

/-- A destination entry of KIND 10 must name a route fit to send on (R203). -/
def FCtx.routeStop (c : FCtx) : Option Stop :=
  match (slotDests c.img c.slot).find? (fun j => decide (destKind (c.img.dest j) = 2) && (routeOk c.f c.el (fld (c.img.dest j) 27 16)).isNone) with
  | some j => some (.trap .illegal (w32 (fld (c.img.dest j) 27 16)))
  | none => none

/-- The checks in order. A Fatik element stands in no block and so has no anchor: there a form or a tag action that exchanges with one
raises ILLEGAL with the slot (R134; DEDUCED, log 43). -/
def FCtx.stops (c : FCtx) : Option Stop :=
  match c.lazyStop with
  | some x => some x
  | none =>
    if c.exchanges && (c.f.anchorOf c.el).isNone then some (.trap .illegal c.slotW)
    else
      match c.fmtStop with
      | some x => some x
      | none =>
        match c.f0Stop with
        | some x => some x
        | none =>
          match c.actStop c.t with
          | some x => some x
          | none =>
            match c.actStop c.act with
            | some x => some x
            | none => c.routeStop

/-! ## Emission -/

/-- The element's sent bit for a context: the step at which it last sent (R249). -/
def markSent (f : Fabric) (el ctx : Nat) : Fabric := f.modEl el fun e => { e with sentAt := tset e.sentAt ctx f.clock }

/-- A data token for an entry's target. -/
def entryTok (e : Word) (tag : DWord) (o : Out) : Tok :=
  ⟨mkHdr (fld e 27 12) (fld e 11 10) (fld e 9 5) (bit e 4) o.fmt (max 1 o.lanes.length) o.eos o.vec o.ord (bit e 3) false, o.valid, tag, o.lanes⟩

/-- A record of a send on a memory route: the run's lanes on their way into the window's push word (R194, R203, R367). -/
def routePend (f : Fabric) (el ctx slot : Nat) (tag : DWord) (o : Out) : Pend :=
  { id := (f.el el).nextId, set := { MSet.none with ctx := ctx, slot := slot, tag := tag }, op := 0x9F, d := 0x1F, e := 0x1F, t := 0,
    fin := o.fmt, fout := o.fmt, tag := tag, grant := false, left := 1, a := 0, b := 0, c := 0, args := o.lanes, base := 0,
    vec := o.vec, valid := o.valid, vals := [], fail := false, cause := 0, cnt := 0, cur := 0, phase := 0, outs := [], accs := [],
    masked := false, store := false, target := 0, scope := 7, ordered := false, placed := false, priv := Image.priv ((f.el el).imageOf ctx),
    cleared := 0, dead := false }

/-- Does an element hold back one of its packet and stream ports: the ready queue or the miss buffer is full, or a token waits at
the port for a place (R24, R29, R35, R37)? -/
def Element.holdsBack (e : Element) (p : Port) : Bool :=
  decide (32 ≤ e.ready.length) || decide (8 ≤ e.missBuf.length) || e.offered.any fun o => o.port == p

/-- A token leaves for the packet port of another element. One whose target holds its port back waits in the sender's output
queue until the target takes it (R340). -/
def Fabric.sendPacket (f : Fabric) (el tgt : Nat) (t : Tok) : Fabric :=
  let f := if (f.el tgt).holdsBack .packet then f.modEl el fun e => { e with outq := e.outq ++ [(tgt, t)] } else f
  f.post (.tokenArrive tgt .packet t)

/-- A scale token as the output queue holds it. -/
def scaleAsTok (t : ScaleTok) : Tok := ⟨mkHdr 0 0 t.slot false 3 1 0 false false false false, 1, t.tag, [t.val.setWidth 64]⟩

/-- A scale token leaves; one whose target's scale store is full waits in the sender's output queue until it is taken (R165, R340). -/
def Fabric.sendScale (f : Fabric) (el tgt : Nat) (t : ScaleTok) : Fabric :=
  let f := if 64 ≤ (f.el tgt).scales.length then f.modEl el fun e => { e with outq := e.outq ++ [(tgt, scaleAsTok t)] } else f
  f.post (.scaleTokenArrive tgt t)

/-- One token to a destination-table entry (R42, R43, R165, R202, R203). A scale token goes to an entry of KIND 01 alone (R165). -/
def sendEntry (f : Fabric) (el ctx slot : Nat) (e : Word) (tag : DWord) (o : Out) : Fabric :=
  let f := markSent f el ctx
  if destKind e = 1 then
    let tgt := entryTarget el e
    match o.scale with
    | some v => f.sendScale el tgt ⟨fld e 9 5, v, tag⟩
    | none =>
      let t := entryTok e tag o
      if bit e 3 then f.post (.tokenArrive tgt .signal t)
      else if tgt = el then f.post (.tokenArrive tgt .loopback t)
      else f.sendPacket el tgt t
  else if o.scale.isSome then f
  else if destKind e = 2 then
    let r := fld e 27 16
    match routeOk f el r with
    | none => f
    | some w =>
      let f := if (f.el el).routes.contains r then f else f.post (.routeSetup el r)
      if fld w 62 61 = 1 then
        let t : Tok := ⟨mkHdr (fld w 41 26) (fld w 19 18) (fld w 25 21) (bit w 20) o.fmt (max 1 o.lanes.length) o.eos o.vec o.ord false false, o.valid, tag, o.lanes⟩
        f.post (.tokenArrive (fld w 41 26) .stream t)
      else
        let p := { routePend f el ctx slot tag o with b := w64 (fld w 41 26 * 8 + fld w 60 58), c := w64 r }
        let f := f.modEl el fun x => { x with pend := x.pend ++ [p], nextId := x.nextId + 1 }
        f.post (.routeAccess (fld w 41 26) (fld w 60 58)
          ⟨el, p.id, 0, ctx, f.partOf el, Image.priv ((f.el el).imageOf ctx), 0, .store, codeWidth o.fmt / 8, 16, 0, 0, 0, none, false, false, r⟩)
  else f

/-- Groups of the slab land in order: their ACC words are written (R177). -/
def landAll (e : Element) : Element :=
  { e with acc := e.landing.foldl (fun t g => g.foldl (fun t p => tset t p.1 p.2) t) e.acc, landing := [] }

/-- The lowest valid lane of a run. -/
def lowestLane (o : Out) : Option DWord :=
  ((List.range o.lanes.length).find? fun k => bit o.valid k).map fun k => o.lanes.getD k 0

/-- A run written into words indexed by iteration modulo 256 (R176). -/
def writeRun (t : Table Word) (base : Nat) (o : Out) : Table Word :=
  (List.range o.lanes.length).foldl
    (fun t k => if bit o.valid k then tset t ((base + k) % 256) (BitVec.ofNat 32 (o.lanes.getD k 0).toNat) else t) t

/-- The tag of one token of a firing. -/
def outTag (img : Image) (firing rtag : DWord) (o : Out) : DWord :=
  let t := if o.firing then firing else rtag
  match o.f0 with
  | some v => img.setF0 t v
  | none => t

/-- One token of a firing to its destination, exits apart (R42). -/
def emitOut (f : Fabric) (el ctx slot : Nat) (firing rtag : DWord) (o : Out) : Fabric :=
  let img := (f.el el).imageOf ctx
  let tag := outTag img firing rtag o
  if o.dst ≤ 0x0F then sendEntry f el ctx slot (img.dest o.dst) tag o
  else if o.eos ≠ 0 ∨ o.scale.isSome then f
  else if o.dst ≤ 0x13 then
    match lowestLane o with
    | none => f
    | some v => f.modEl el fun e =>
        let g := tget ⟨0, 0, 0, 0⟩ e.gens (o.dst - 0x10)
        { e with gens := tset e.gens (o.dst - 0x10) { g with w0 := setFld g.w0 18 0 v.toNat, i0 := 0, i1 := 0 } }
  else if o.dst = 0x14 then f.modEl el fun e => let e := landAll e; { e with acc := writeRun e.acc (img.f tag 0) o }
  else if o.dst = 0x15 then f.modEl el fun e => { e with hist := writeRun e.hist (img.f tag 0) o }
  else f

/-! ## Commit (R140, R141) -/

/-- The commit entry of a context and tag. -/
def Element.commitOf (e : Element) (ctx : Nat) (tag : DWord) : Option Commit := e.commits.find? fun x => decide (x.ctx = ctx) && decide (x.tag = tag)

/-- A commit entry replaced. -/
def Element.setCommit (e : Element) (c : Commit) : Element :=
  { e with commits := e.commits.map fun x => if x.ctx = c.ctx ∧ x.tag = c.tag then c else x }

/-- Does a slot open a commit entry: an EXIT slot, one that names EXITj, or one named in STMASK (R140)? -/
def opensEntry (img : Image) (s : Nat) : Bool :=
  let w := img.instr s
  let ex := fun n : Nat => decide (0x16 ≤ n) && decide (n ≤ 0x19)
  decide ((fieldOp w).toNat = 0x66) || ex (fieldD w).toNat || ex (fieldE w).toNat || bit img.stmask s

/-- A firing that passes issue opens its entry and counts its masked store (R140). -/
def openEntry (e : Element) (ctx slot : Nat) (tag : DWord) (masked : Bool) : Element :=
  match e.commitOf ctx tag with
  | none => { e with commits := e.commits ++ [⟨ctx, tag, slot, masked.toNat, none⟩] }
  | some c => e.setCommit { c with pending := c.pending + masked.toNat }

/-- The payload words of a token (R17). -/
def Out.payload (o : Out) : List DWord :=
  let w := if o.vec then codeWidth o.fmt else 64
  let p := (o.lanes.zipIdx.map fun x => x.1.toNat % 2 ^ w * 2 ^ (w * x.2)).sum
  (List.range ((o.lanes.length * w + 63) / 64)).map fun i => w64 (p / 2 ^ (64 * i))

/-- The answer of an engine command: the head command gets the token of EXIT0 (R439), a word of its payload in each answer, their lanes 64
apart as those of a request of more than 8 bytes (R425). -/
def answerCommand (f : Fabric) (el : Nat) (o : Out) : Fabric :=
  match (f.el el).cmds with
  | [] => f
  | (q, _) :: r =>
    let ws := if o.payload.isEmpty then [0] else o.payload
    let f := { f with raws := f.raws.map fun (x : RawReq) => if x.el = q.el ∧ x.oid = q.oid then { x with n := ws.length, left := ws.length } else x }
    (f.modEl el fun e => { e with cmds := r }).postAll (ws.zipIdx.map fun (x : DWord × Nat) => Ev.memoryAnswer ⟨q.el, q.id, q.lane + 64 * x.2, x.1, true, false, 0⟩)

/-- Does a token go onto a stream route (R367)? -/
def isRouteOut (img : Image) (o : Out) : Bool := decide (o.dst ≤ 0x0F) && decide (destKind (img.dest o.dst) = 2)

/-- The stream routes that tokens of a firing take. -/
def routesOf (img : Image) (outs : List Out) : List Nat := (outs.filter (isRouteOut img)).map fun o => fld (img.dest o.dst) 27 16

/-- An atomic form. -/
def isAtomicOp (op : Nat) : Bool := decide (0xA8 ≤ op) && decide (op ≤ 0xBF)

/-- Does a firing's access travel on a memory route? -/
def Pend.routed (p : Pend) : Bool :=
  decide (p.op = 0x9E) || decide (p.op = 0x9F)
    || ((isAtomicOp p.op || decide (p.op = 0x9A) || decide (p.op = 0x9B)) && decide (fld p.a 63 62 = 1))
/-- The route of a routed access. -/
def Pend.route (p : Pend) : Nat := if p.op = 0x9E ∨ p.op = 0x9F then p.c.toNat else fld p.a 30 19

/-- The phase of a firing that waits to retire because a route it sends on is held back (R203). -/
abbrev heldPhase : Nat := 904

/-- Is an earlier access of an element, before firing id, held on a route (R219)? `cur` is 1 once an access was served. -/
def Element.routeHeld (e : Element) (id route : Nat) : Bool :=
  e.pend.any fun x => x.routed && decide (x.id < id) && decide (x.route = route) && decide (x.cur = 0)
    && decide (x.left ≠ 0) && decide (x.phase ≠ 3000) && decide (x.phase ≠ 1000)

/-- Is a route held back for firing id: its destination is not ready, or earlier tokens or accesses wait to go on it (R203)? -/
def routeBusy (f : Fabric) (el id route : Nat) : Bool :=
  (match routeOk f el route with
    | some w => decide (fld w 62 61 = 1) && (f.el (fld w 41 26)).holdsBack .stream
    | none => false)
    || (f.el el).routeHeld id route
    || (f.el el).pend.any fun x => decide (x.id < id) && decide (x.phase = heldPhase)
        && (routesOf ((f.el el).imageOf x.set.ctx) x.outs).contains route

/-- An element looks again at what it holds back. -/
def Fabric.lookAgain (f : Fabric) (el : Nat) : Fabric := if f.agenda.contains (.signalRelease el) then f else f.post (.signalRelease el)

/-- A trap found when a firing retires: its emits are withheld in its record, and the trap record is sent (R141). -/
def parkRetire (f : Fabric) (el : Nat) (p : Pend) (c : Cause) (info : Word) (phase : Nat) : Fabric :=
  let q := { p with accs := [⟨0, .trap, c, info, false, none⟩], phase := phase }
  let f := f.modEl el fun e => { e with pend := if (e.pendOf p.id).isSome then (e.setPend q).pend else e.pend ++ [q], nextId := max e.nextId (p.id + 1) }
  if isFatik el then f.haltFatik el else f.report el p.set.ctx (recordLanes p.set.tag c el p.set.slot false info 0)

/-- The reorder unit lets the firings at its head go: each sends its emits onto stream routes and leaves (R367), unless a route is held
back, or unfit by now, which raises ILLEGAL with the route (R203; phase 902). -/
def flushOrder (f : Fabric) (el : Nat) : Nat → Fabric
  | 0 => f
  | n + 1 =>
    match (f.el el).pend.find? (·.ordered) with
    | none => f
    | some p =>
      let rs := routesOf ((f.el el).imageOf p.set.ctx) p.outs
      if p.phase = 1000 then
        match rs.find? fun r => (routeOk f el r).isNone with
        | some r => parkRetire f el p .illegal (w32 r) 902
        | none =>
          if rs.any (routeBusy f el p.id) then f.lookAgain el
          else
            let f := p.outs.foldl (fun f o => emitOut f el p.set.ctx p.set.slot p.set.tag p.tag o) f
            let f := f.modEl el fun e => e.dropPend p.id
            flushOrder (f.wakeFor el .order) el n
      else f

/-- A token to a destination-table entry from a firing that has retired: onto a stream route it leaves behind the places taken
before (R367), and when the route takes it (R203). -/
def sendBehind (f : Fabric) (el ctx slot j : Nat) (tag : DWord) (o : Out) : Fabric :=
  let e := Image.dest ((f.el el).imageOf ctx) j
  if destKind e = 2 then
    let f := f.modEl el fun x =>
      let p := { routePend f el ctx slot tag o with
        set := { MSet.none with ctx := ctx, slot := slot, tag := tag }, phase := 1000, left := 0, ordered := true,
        outs := [{ o with dst := j, f0 := none, firing := false }] }
      { x with pend := x.pend ++ [p], nextId := x.nextId + 1 }
    flushOrder f el (f.el el).pend.length
  else sendEntry f el ctx slot e tag o

/-- The commit of an activation: where no masked store is incomplete, a held exit is emitted and the entry freed (R141). -/
def tryCommit (f : Fabric) (el ctx : Nat) (tag : DWord) : Fabric :=
  match (f.el el).commitOf ctx tag with
  | none => f
  | some c =>
    match c.held with
    | none => f
    | some (rtag, outs) =>
      if c.pending = 0 then
        let f := f.modEl el fun e => { e with commits := e.commits.erase c }
        let f := outs.foldl (fun f o =>
          if isFatik el ∧ o.dst = 0x16 then answerCommand f el o
          else
            let img := (f.el el).imageOf ctx
            sendBehind f el ctx c.slot (12 + (o.dst - 0x16)) (outTag img tag rtag o) o) f
        f.wakeFor el .commit
      else f

/-! ## Retirement -/

/-- The value a RENAME takes: what the firing emits on DSTA (R137). -/
def renameVal (p : Pend) : Nat :=
  let lane := fun (o : Out) => (o.lanes.getD 0 0).toNat
  match p.outs.find? (fun (o : Out) => decide (o.dst = p.d) && o.scale.isNone) with
  | some o => lane o
  | none => (p.outs.head?.map lane).getD 0

/-- The result tag of a firing, with the granted number of a pool (R137, R147, R148). -/
def finalTag (img : Image) (p : Pend) (num : Nat) : DWord :=
  if p.op = 0x70 then img.push p.set.tag p.b.toNat
  else if p.op = 0x72 then img.push p.set.tag num
  else if 0x78 ≤ p.op ∧ p.op ≤ 0x7A then img.push p.set.tag 0
  else if 0x71 ≤ p.op ∧ p.op ≤ 0x76 then p.tag
  else match p.t.toNat with
    | 2 => img.push p.set.tag 0
    | 4 => img.push p.set.tag num
    | 6 => img.setF0 p.set.tag (renameVal p)
    | _ => p.tag

/-- A firing's emits leave (R42, R106, R367): every one but those to stream routes of an ordered firing, or of one that finds earlier
places taken, which wait. -/
def sendOuts (f : Fabric) (el : Nat) (p : Pend) (rtag : DWord) : Fabric :=
  let img := (f.el el).imageOf p.set.ctx
  let outs := p.outs.filter fun (o : Out) => !(decide (0x16 ≤ o.dst) && decide (o.dst ≤ 0x19))
  let behind := outs.any (isRouteOut img) && (f.el el).pend.any fun x => x.ordered && decide (x.id < p.id)
  if p.ordered || behind then
    let f := (outs.filter fun o => !isRouteOut img o).foldl (fun f o => emitOut f el p.set.ctx p.set.slot p.set.tag rtag o) f
    let f := f.modEl el fun e => e.setPend { p with outs := outs.filter (isRouteOut img), phase := 1000, tag := rtag, ordered := true, accs := [], store := false, scope := 7, grant := false }
    flushOrder f el (f.el el).pend.length
  else
    let f := outs.foldl (fun f o => emitOut f el p.set.ctx p.set.slot p.set.tag rtag o) f
    f.modEl el fun e => e.dropPend p.id

/-- A granted pool number takes its place as the lane of SPAWN's second token (R147). -/
def fillPool (img : Image) (num : Nat) (p : Pend) : Pend :=
  { p with outs := p.outs.map fun (o : Out) =>
      if o.pool then { o with lanes := [(extendLit ((Fmt.ofCode p.fout).getD .n64) img.b8mode 1 (w64 num) false false).1] } else o }

/-- Is an output an exit of the activation? -/
def isExitOut (o : Out) : Bool := decide (0x16 ≤ o.dst) && decide (o.dst ≤ 0x19)

/-- The exits of a retiring firing are placed in its tag's entry (R141). -/
def placeExits (e : Element) (p : Pend) (rtag : DWord) (exits : List Out) : Element :=
  if exits.isEmpty then e else
  match e.commitOf p.set.ctx p.set.tag with
  | some c => e.setCommit { c with held := some (rtag, exits) }
  | none => { e with commits := e.commits ++ [⟨p.set.ctx, p.set.tag, p.set.slot, 0, some (rtag, exits)⟩] }

/-- A masked store is counted complete in its tag's entry (R140). -/
def countDone (e : Element) (p : Pend) : Element :=
  if p.masked then
    match e.commitOf p.set.ctx p.set.tag with
    | some c => e.setCommit { c with pending := c.pending - 1 }
    | none => e
  else e

/-- Sets that wait for a completion or an answer place are examined again (R239, R340). -/
def wakeDone (f : Fabric) (el : Nat) : Fabric :=
  f.modEl el fun e => e.wake fun x => decide (x.reason = .fence) || decide (x.reason = .queue ∧ x.on = 1)

/-- ACC words become +0 (R170, R175). -/
def clearAcc (e : Element) (is : List Nat) : Element := { e with acc := is.foldl tdel e.acc }

/-- A run that ACCRD or NAME sends under a granted pool number passes the field that the number fills: known only at the grant (R27, R175,
R373). -/
def lateOver (img : Image) (p : Pend) (rtag : DWord) : Bool :=
  decide (p.op = 0x83 ∨ p.op = 0xE0) && decide (p.t = 4)
    && p.outs.any fun (o : Out) => (decide (o.dst < 16) || isExitOut o) && decide (img.f0Max rtag < img.f rtag 0 + o.lanes.length - 1)

/-- RETIREMENT of a firing (R137, R141, R214): the result tag is formed, exits are placed, the other tokens leave, a masked
store is counted complete, and the activation commits where it can. An exit into an entry that already holds one raises
ILLEGAL, a route that is unfit by now raises ILLEGAL with the route (R203), and a run that the granted number leaves no room for raises
FORMAT, each as a trap found after issue. A firing whose route is held back waits to retire (R203). -/
def retire (f : Fabric) (el : Nat) (p : Pend) (num : Nat) : Fabric :=
  let img := (f.el el).imageOf p.set.ctx
  let p := fillPool img num p
  let rtag := finalTag img p num
  let routes := routesOf img p.outs
  let unfit := routes.find? fun r => (routeOk f el r).isNone
  if lateOver img p rtag then parkRetire f el { p with cnt := num } .format (w32 p.set.slot) 900
  else if unfit.isSome then parkRetire f el { p with cnt := num } .illegal (w32 (unfit.getD 0)) 900
  else if !p.ordered && routes.any (routeBusy f el p.id) then
    let q := { p with cnt := num, left := 0, phase := heldPhase }
    (f.modEl el fun e => { e with pend := if (e.pendOf p.id).isSome then (e.setPend q).pend else e.pend ++ [q], nextId := max e.nextId (p.id + 1) }).lookAgain el
  else
  let f := if p.op = 0x83 then f.modEl el fun e => clearAcc e (p.args.map (·.toNat)) else f
  let exits := p.outs.filter isExitOut
  let full := (((f.el el).commitOf p.set.ctx p.set.tag).bind (·.held)).isSome
  match exits.head? with
  | some x =>
    if full then parkRetire f el { p with tag := rtag, cnt := num } .illegal (w32 (x.dst - 0x16)) 900
    else
      let f := sendOuts (f.modEl el fun e => placeExits e p rtag exits) el p rtag
      wakeDone (tryCommit (f.modEl el fun e => countDone e p) el p.set.ctx p.set.tag) el
  | none =>
    let f := sendOuts f el p rtag
    wakeDone (tryCommit (f.modEl el fun e => countDone e p) el p.set.ctx p.set.tag) el

/-- A record that changed: it retires once it awaits nothing, holds no parked access and no grant is owed. -/
def settle (f : Fabric) (el : Nat) (p : Pend) : Fabric :=
  if p.left = 0 ∧ p.accs = [] ∧ p.grant = false then retire f el p 0 else f.modEl el fun e => e.setPend p

/-- A record whose form has completed with its tokens. -/
def complete (f : Fabric) (el : Nat) (p : Pend) (outs : List Out) : Fabric := settle f el { p with left := 0, outs := outs }

/-- Must a token of a running form wait: an exit until retirement, and one onto a stream route while an earlier place stands
before it, or a token of its own (R367), or the route is held back or unfit (R203)? -/
def mustWait (f : Fabric) (el : Nat) (p : Pend) (o : Out) : Bool :=
  let img := (f.el el).imageOf p.set.ctx
  isExitOut o || (isRouteOut img o
    && ((routesOf img [o]).any (fun r => (routeOk f el r).isNone || routeBusy f el p.id r) || (((f.el el).pend.find? (·.ordered)).any fun q => decide (q.id ≠ p.id)) || p.outs.any (isRouteOut img)))

/-- RENAME forms one result tag for the firing (R44): the first token of a form that emits while it runs settles it, and the record keeps it
from then on (DEDUCED, log 19). -/
def Pend.named (p : Pend) (img : Image) (o : Out) : Pend :=
  if p.t = 6 ∧ ¬ (0x70 ≤ p.op ∧ p.op ≤ 0x7A) then { p with t := 0, tag := img.setF0 p.set.tag (o.lanes.getD 0 0).toNat } else p

/-- A token of a form that emits while it runs (R276, R208): under the result tag, at once where nothing holds it. -/
def emitNow (f : Fabric) (el : Nat) (p : Pend) (o : Out) : Fabric :=
  let img := (f.el el).imageOf p.set.ctx
  let p := p.named img o
  if mustWait f el p o then f.modEl el fun e => e.setPend { p with outs := p.outs ++ [o] }
  else emitOut (f.modEl el fun e => e.setPend p) el p.set.ctx p.set.slot p.set.tag (finalTag img p 0) o

/-! ## Issue -/

/-- A stop takes its effect: a trap, or a wait (R11, R24). -/
def applyStop (f : Fabric) (el : Nat) (s : MSet) : Stop → Fabric
  | .trap c info => takeTrap f el s c info
  | .park r on =>
    let f := parkSet f el s r on
    if r = .scale ∨ r = .commit ∨ r = .wave then f.askWave el else f
  | .hold g x r on => parkSet g el x r on
  | .late g x c info => takeTrap g el x c info

/-- The tag part of a result that is known at issue: NEXT, LEAVE, RETN, ZERO, the popped tag (R137). -/
def FCtx.tagNow (c : FCtx) : DWord :=
  match c.act with
  | 1 => c.img.setF0 c.tag (c.img.f c.tag 0 + 1)
  | 3 => c.img.pop c.tag
  | 5 => c.img.pop c.tag
  | 7 => c.img.setF0 c.tag 0
  | _ => c.tag

/-- Does the tag action wait for a grant (R137)? -/
def FCtx.granted (c : FCtx) : Bool := decide (c.act = 2) || decide (c.act = 4)

/-- The messages a tag action sends to the anchor at issue (R136, R137). -/
def FCtx.anchorMsg (c : FCtx) : List Ev :=
  match c.f.anchorOf c.el with
  | none => []
  | some an =>
    let d := depth c.tag
    match c.act with
    | 2 => [.levelCreditRequest an c.el c.id c.ctx (d + 1)]
    | 3 => [.levelCreditReturn ⟨an, c.el⟩ c.ctx d]
    | 4 => [.poolRequest an c.el c.id c.ctx (c.img.width (d + 1))]
    | 5 => [.poolReturn ⟨an, c.el⟩ c.ctx (c.img.f c.tag 0)]
    | _ => []

/-- Does the firing name a destination of KIND 10 (R367)? -/
def FCtx.namesRoute (c : FCtx) : Bool := (slotDests c.img c.slot).any fun j => decide (destKind (c.img.dest j) = 2)

/-- The phase of a loop header's firing whose generator runs: it keeps its place in the reorder unit (R148, R367). -/
abbrev loopPhase : Nat := 950

/-- Does a firing hold an answer place (R340): not one whose emits wait in the reorder unit, nor a deferred reader, which
waits in its own record (R197), nor a header whose grant has come, nor a DELAY, which awaits none? -/
def Pend.hasPlace (p : Pend) : Bool :=
  decide (p.phase ≠ 1000) && decide (p.phase ≠ 2000) && decide (p.phase ≠ loopPhase) && decide (p.phase ≠ heldPhase) && decide (p.phase ≠ 902)
    && (decide (p.op ≠ 0x69) || p.grant)

/-- Does a firing take an answer place: does it await an answer, or ask a stage queue, which answers a query at once (R340)? -/
def FCtx.takesPlace (c : FCtx) (r : Res) : Bool :=
  c.granted || decide (c.op = 0xEA) || match r.wait with | some p => p.hasPlace | none => false

/-- The end of an issue that computed: the commit, answer-place and reorder waits (R140, R340, R367), ARITH (R91), then
the flags, the commit entry, the anchor messages, and retirement or the firing's record. -/
def FCtx.finish (c : FCtx) (r : Res) : Fabric :=
  let e := c.elt
  let opens := opensEntry c.img c.slot
  let waits := c.granted || r.wait.isSome
  let routes := c.namesRoute || r.outs.any (isRouteOut c.img)
  let places := routes && (c.granted || r.wait.any fun p => decide (p.op ≠ 0x69))
  let behind := routes && e.pend.any (·.ordered) && (places || r.wait.isNone)
  if opens && (e.commitOf c.ctx c.tag).isNone && decide (32 ≤ e.commits.length) then applyStop c.f c.el c.s (.park .commit 0)
  else if c.takesPlace r && decide (32 ≤ (e.pend.filter Pend.hasPlace).length) then applyStop c.f c.el c.s (.park .queue 1)
  else if places && decide (16 ≤ (e.pend.filter (·.placed)).length) then applyStop c.f c.el c.s (.park .order 0)
  else
    let fl := r.fl ||| c.extFlags
    if e.traps fl && decide (c.s.note ≠ 3) then
      takeTrap (c.f.modEl c.el fun e => e.addFlags fl) c.el c.s .arith (fl.setWidth 32)
    else
      let masked := bit c.img.stmask c.slot
      let f := r.f.modEl c.el fun e =>
        let e := e.addFlags fl
        let e := if opens then openEntry e c.ctx c.slot c.tag masked else e
        { e with slots := e.slots.map fun p => if p.2.ctx = c.ctx then (p.1, { p.2 with last := c.f.clock }) else p }
      let f := (if opens then f.askWave c.el else f).postAll c.anchorMsg
      let tag := r.tag.getD c.tagNow
      let q := match r.wait with
        | some p => { p with tag := tag, grant := c.granted, masked := masked, outs := if p.outs.isEmpty then r.outs else p.outs }
        | none => { c.pend with tag := tag, grant := c.granted, outs := r.outs, b := c.vb 0, masked := masked }
      let q := { q with ordered := places || behind, placed := places }
      if waits || behind then
        let f := f.modEl c.el fun e => { e with pend := e.pend ++ [q], nextId := e.nextId + 1 }
        if waits then f else retire f c.el q 0
      else retire f c.el q 0

/-- A FIRING (R24): the set at issue goes through the checks, then the form, then the end of issue. A set whose trap DISCARD answered
(note 10) has been through the checks. -/
def fireIn (f : Fabric) (op a b d e t : Nat) (body : FCtx → Except Stop Res) : Fabric :=
  let c := mkCtx f f.cur f.fire op a b d e t
  match (if f.fire.note = 10 then none else c.stops) with
  | some st => applyStop f f.cur f.fire st
  | none =>
    match body c with
    | .error st => applyStop f f.cur f.fire st
    | .ok r => c.finish r

/-- A word form as a step of the machine: the fabric alone changes. -/
def fire (op : Nat) (a b d e : BitVec 5) (t : BitVec 4) (body : FCtx → Except Stop Res) (s : State) : Host.Outcome State Fault Refusal :=
  .next { s with fab := fireIn s.fab op a.toNat b.toNat d.toNat e.toNat t.toNat body }

end Sys2Proof.Machine
end

