-- ==== Sys2Proof/Machine/IntArith.lean ====
section
/-! DEFINITION. The integer forms 0x00 to 0x20 (R109-R115, R61). -/

namespace Sys2Proof.Machine

/-- Lane k of a and b as numbers of the input format (R109). -/
def FCtx.ia (c : FCtx) (k : Nat) : Int := readInt c.ifmt (c.va k)
def FCtx.ib (c : FCtx) (k : Nat) : Int := readInt c.ifmt (c.vb k)
def FCtx.ic (c : FCtx) (k : Nat) : Int := readInt c.ifmt (c.vc k)
/-- The width of the input format. -/
def FCtx.w (c : FCtx) : Nat := c.ifmt.width

/-- An exact result that wraps: its low bits, OF where it is out of range (R110). -/
def wrapInt (f : Fmt) (v : Int) : DWord × Flags := (keepBits f.width v, flagIf (!inRange f v) flOF)
/-- An exact result clamped to the range, SAT where it was outside (R61). -/
def satInt (f : Fmt) (v : Int) : DWord × Flags := (keepBits f.width (clampInt f v), flagIf (!inRange f v) flSAT)

/-- A form whose exact result wraps. -/
def wrapForm (g : FCtx → Nat → Int) (c : FCtx) : Except Stop Res := c.lanewise fun k sr => plain (wrapInt c.ifmt (g c k)) sr
/-- A form whose exact result clamps. -/
def satForm (g : FCtx → Nat → Int) (c : FCtx) : Except Stop Res := c.lanewise fun k sr => plain (satInt c.ifmt (g c k)) sr
/-- A form on raw bits that sets no flag. -/
def bitForm (g : FCtx → Nat → DWord) (c : FCtx) : Except Stop Res := c.lanewise fun k sr => plain (trunc c.w (g c k), 0) sr

/-- DIV (R111). -/
def divInt (f : Fmt) (a b : Int) : DWord × Flags :=
  if b = 0 then (keepBits f.width (if f.signed then (if 0 ≤ a then intMax f else intMin f) else intMax f), flDZ)
  else wrapInt f (a.tdiv b)

/-- REM (R111). -/
def remInt (f : Fmt) (a b : Int) : DWord × Flags :=
  if b = 0 then (keepBits f.width a, flDZ) else (keepBits f.width (a.tmod b), 0)

/-- The leading zero bits of a w-bit word (R109). -/
def clzBits (w : Nat) (x : Nat) : Nat := if x = 0 then w else w - 1 - Nat.log2 x
/-- The one bits of a w-bit word. -/
def popBits (w x : Nat) : Nat := (List.range w).countP fun i => x.testBit i
/-- The bits of a w-bit word in reverse order. -/
def revBits (w x : Nat) : Nat := (List.range w).foldl (fun acc i => 2 * acc + (x.testBit i).toNat) 0

/-- A w-bit word shifted left (R112). -/
def shlBits (w x s : Nat) : Nat := if w ≤ s then 0 else x * 2 ^ s % 2 ^ w
/-- A w-bit word shifted right, zeros in (R112). -/
def shrBits (w x s : Nat) : Nat := if w ≤ s then 0 else x / 2 ^ s
/-- A w-bit word shifted right, copies of its top bit in (R112). -/
def sarBits (w : Nat) (x : DWord) (s : Nat) : DWord := keepBits w (sint w x / 2 ^ (min s w))
/-- A w-bit word rotated left (R112). -/
def rotBits (w x s : Nat) : Nat := let r := s % w; (x * 2 ^ r + x / 2 ^ (w - r)) % 2 ^ w
/-- a × 2^s clamped to the range (R112). -/
def shlSatInt (f : Fmt) (a : Int) (s : Nat) : DWord × Flags :=
  if a = 0 then (0, 0)
  else if f.width ≤ s then (keepBits f.width (if a < 0 then intMin f else intMax f), flSAT)
  else satInt f (a * 2 ^ s)

/-- Position and width of a field control word (R113). -/
def fieldPos (x : DWord) : Nat := fld x 5 0
def fieldLen (x : DWord) : Nat := min 64 (fld x 14 8)

/-- BFX (R113). -/
def bfxBits (f : Fmt) (a ctl : DWord) : DWord :=
  let n := fieldLen ctl
  let x := (trunc f.width a).toNat / 2 ^ fieldPos ctl % 2 ^ n
  if n = 0 then 0
  else if f.signed && decide (2 ^ (n - 1) ≤ x) then keepBits f.width ((x : Int) - 2 ^ n) else keepBits f.width x

/-- BFI (R113). -/
def bfiBits (f : Fmt) (a b ctl : DWord) : DWord :=
  let p := fieldPos ctl
  let n := fieldLen ctl
  let x := (trunc f.width a).toNat
  if n = 0 ∨ f.width ≤ p then w64 x
  else trunc f.width (w64 (x - x / 2 ^ p % 2 ^ n * 2 ^ p + b.toNat % 2 ^ n * 2 ^ p))

/-- The condition code of R114. -/
def condCode (lt eq : Bool) : Nat := if lt then 1 else if eq then 2 else 4

/-- SEL (R115): each side's own validity. -/
def selForm (c : FCtx) : Except Stop Res :=
  let va := fun k => c.sideValid c.a k
  let vb := fun k => c.sideValid c.b k
  let vals := c.lanes.map fun k => if va k then c.va k else if vb k then c.vb k else c.va k
  let valid := BitVec.ofNat 32 (c.lanes.foldl (fun n k => if va k || vb k then n + 2 ^ k else n) 0)
  c.emits (c.both valid vals)

/-- ADD (R109). -/
def addForm : FCtx → Except Stop Res := wrapForm fun c k => c.ia k + c.ib k
/-- ADD (R109). -/
def execAdd (a b d e : BitVec 5) (t : BitVec 4) (s : State) : Host.Outcome State Fault Refusal := fire 0x00 a b d e t addForm s
/-- SUB (R109). -/
def subForm : FCtx → Except Stop Res := wrapForm fun c k => c.ia k - c.ib k
/-- SUB (R109). -/
def execSub (a b d e : BitVec 5) (t : BitVec 4) (s : State) : Host.Outcome State Fault Refusal := fire 0x01 a b d e t subForm s
/-- MUL (R109). -/
def mulForm : FCtx → Except Stop Res := wrapForm fun c k => c.ia k * c.ib k
/-- MUL (R109). -/
def execMul (a b d e : BitVec 5) (t : BitVec 4) (s : State) : Host.Outcome State Fault Refusal := fire 0x02 a b d e t mulForm s
/-- MULH (R109): the high half of the 2w-bit product. -/
def mulhForm : FCtx → Except Stop Res := bitForm fun c k => keepBits c.w (c.ia k * c.ib k / 2 ^ c.w)
/-- MULH (R109): the high half of the 2w-bit product. -/
def execMulh (a b d e : BitVec 5) (t : BitVec 4) (s : State) : Host.Outcome State Fault Refusal := fire 0x03 a b d e t mulhForm s
/-- MAD (R109, R104). -/
def execMad (a b d e : BitVec 5) (t : BitVec 4) (s : State) : Host.Outcome State Fault Refusal :=
  fire 0x04 a b d e t (wrapForm fun c k => c.ia k * c.ib k + c.ic k) s
/-- DIV (R111). -/
def divForm : FCtx → Except Stop Res := fun c => c.lanewise fun k sr => plain (divInt c.ifmt (c.ia k) (c.ib k)) sr
/-- DIV (R111). -/
def execDiv (a b d e : BitVec 5) (t : BitVec 4) (s : State) : Host.Outcome State Fault Refusal := fire 0x05 a b d e t divForm s
/-- REM (R111). -/
def remForm : FCtx → Except Stop Res := fun c => c.lanewise fun k sr => plain (remInt c.ifmt (c.ia k) (c.ib k)) sr
/-- REM (R111). -/
def execRem (a b d e : BitVec 5) (t : BitVec 4) (s : State) : Host.Outcome State Fault Refusal := fire 0x06 a b d e t remForm s
/-- NEG (R109). -/
def negForm : FCtx → Except Stop Res := wrapForm fun c k => -c.ia k
/-- NEG (R109). -/
def execNeg (a b d e : BitVec 5) (t : BitVec 4) (s : State) : Host.Outcome State Fault Refusal := fire 0x07 a b d e t negForm s
/-- ABS (R109). -/
def absForm : FCtx → Except Stop Res := wrapForm fun c k => ((c.ia k).natAbs : Int)
/-- ABS (R109). -/
def execAbs (a b d e : BitVec 5) (t : BitVec 4) (s : State) : Host.Outcome State Fault Refusal := fire 0x08 a b d e t absForm s
/-- MIN (R109, R110). -/
def minForm : FCtx → Except Stop Res := wrapForm fun c k => min (c.ia k) (c.ib k)
/-- MIN (R109, R110). -/
def execMin (a b d e : BitVec 5) (t : BitVec 4) (s : State) : Host.Outcome State Fault Refusal := fire 0x09 a b d e t minForm s
/-- MAX (R109, R110). -/
def maxForm : FCtx → Except Stop Res := wrapForm fun c k => max (c.ia k) (c.ib k)
/-- MAX (R109, R110). -/
def execMax (a b d e : BitVec 5) (t : BitVec 4) (s : State) : Host.Outcome State Fault Refusal := fire 0x0A a b d e t maxForm s
/-- AND (R109). -/
def andForm : FCtx → Except Stop Res := bitForm fun c k => c.va k &&& c.vb k
/-- AND (R109). -/
def execAnd (a b d e : BitVec 5) (t : BitVec 4) (s : State) : Host.Outcome State Fault Refusal := fire 0x0B a b d e t andForm s
/-- OR (R109). -/
def orForm : FCtx → Except Stop Res := bitForm fun c k => c.va k ||| c.vb k
/-- OR (R109). -/
def execOr (a b d e : BitVec 5) (t : BitVec 4) (s : State) : Host.Outcome State Fault Refusal := fire 0x0C a b d e t orForm s
/-- XOR (R109). -/
def xorForm : FCtx → Except Stop Res := bitForm fun c k => c.va k ^^^ c.vb k
/-- XOR (R109). -/
def execXor (a b d e : BitVec 5) (t : BitVec 4) (s : State) : Host.Outcome State Fault Refusal := fire 0x0D a b d e t xorForm s
/-- NOT (R109). -/
def notForm : FCtx → Except Stop Res := bitForm fun c k => ~~~c.va k
/-- NOT (R109). -/
def execNot (a b d e : BitVec 5) (t : BitVec 4) (s : State) : Host.Outcome State Fault Refusal := fire 0x0E a b d e t notForm s
/-- SHL (R112). It sets no flag, as R109 has it; the row of R61 on .SAT says of the base forms that they set OF (DEDUCED, log 20). -/
def shlForm : FCtx → Except Stop Res := bitForm fun c k => w64 (shlBits c.w (c.va k).toNat (c.vb k).toNat)
/-- SHL (R112). -/
def execShl (a b d e : BitVec 5) (t : BitVec 4) (s : State) : Host.Outcome State Fault Refusal := fire 0x0F a b d e t shlForm s
/-- SHR (R112). -/
def shrForm : FCtx → Except Stop Res := bitForm fun c k => w64 (shrBits c.w (c.va k).toNat (c.vb k).toNat)
/-- SHR (R112). -/
def execShr (a b d e : BitVec 5) (t : BitVec 4) (s : State) : Host.Outcome State Fault Refusal := fire 0x10 a b d e t shrForm s
/-- SAR (R112). -/
def sarForm : FCtx → Except Stop Res := bitForm fun c k => sarBits c.w (c.va k) (c.vb k).toNat
/-- SAR (R112). -/
def execSar (a b d e : BitVec 5) (t : BitVec 4) (s : State) : Host.Outcome State Fault Refusal := fire 0x11 a b d e t sarForm s
/-- ROT (R112). -/
def rotForm : FCtx → Except Stop Res := bitForm fun c k => w64 (rotBits c.w (c.va k).toNat (c.vb k).toNat)
/-- ROT (R112). -/
def execRot (a b d e : BitVec 5) (t : BitVec 4) (s : State) : Host.Outcome State Fault Refusal := fire 0x12 a b d e t rotForm s
/-- CLZ (R109, R110). -/
def clzForm : FCtx → Except Stop Res := bitForm fun c k => w64 (clzBits c.w (c.va k).toNat)
/-- CLZ (R109, R110). -/
def execClz (a b d e : BitVec 5) (t : BitVec 4) (s : State) : Host.Outcome State Fault Refusal := fire 0x13 a b d e t clzForm s
/-- POPC (R109, R110). -/
def popcForm : FCtx → Except Stop Res := bitForm fun c k => w64 (popBits c.w (c.va k).toNat)
/-- POPC (R109, R110). -/
def execPopc (a b d e : BitVec 5) (t : BitVec 4) (s : State) : Host.Outcome State Fault Refusal := fire 0x14 a b d e t popcForm s
/-- BREV (R109, R110). -/
def brevForm : FCtx → Except Stop Res := bitForm fun c k => w64 (revBits c.w (c.va k).toNat)
/-- BREV (R109, R110). -/
def execBrev (a b d e : BitVec 5) (t : BitVec 4) (s : State) : Host.Outcome State Fault Refusal := fire 0x15 a b d e t brevForm s
/-- BFX (R113). -/
def bfxForm : FCtx → Except Stop Res := bitForm fun c k => bfxBits c.ifmt (c.va k) (c.vb k)
/-- BFX (R113). -/
def execBfx (a b d e : BitVec 5) (t : BitVec 4) (s : State) : Host.Outcome State Fault Refusal := fire 0x16 a b d e t bfxForm s
/-- BFI (R113, R104). -/
def execBfi (a b d e : BitVec 5) (t : BitVec 4) (s : State) : Host.Outcome State Fault Refusal :=
  fire 0x17 a b d e t (bitForm fun c k => bfiBits c.ifmt (c.va k) (c.vb k) (c.vc k)) s
/-- CMP (R114). -/
def cmpForm : FCtx → Except Stop Res := fun c => c.lanewise fun k sr => plain (w64 (condCode (decide (c.ia k < c.ib k)) (decide (c.ia k = c.ib k))), 0) sr
/-- CMP (R114). -/
def execCmp (a b d e : BitVec 5) (t : BitVec 4) (s : State) : Host.Outcome State Fault Refusal := fire 0x18 a b d e t cmpForm s
/-- SEL (R115). -/
def execSel (a b d e : BitVec 5) (t : BitVec 4) (s : State) : Host.Outcome State Fault Refusal :=
  fire 0x19 a b d e t selForm s
/-- ADD.SAT (R61). -/
def addSatForm : FCtx → Except Stop Res := satForm fun c k => c.ia k + c.ib k
/-- ADD.SAT (R61). -/
def execAddSat (a b d e : BitVec 5) (t : BitVec 4) (s : State) : Host.Outcome State Fault Refusal := fire 0x1A a b d e t addSatForm s
/-- SUB.SAT (R61). -/
def subSatForm : FCtx → Except Stop Res := satForm fun c k => c.ia k - c.ib k
/-- SUB.SAT (R61). -/
def execSubSat (a b d e : BitVec 5) (t : BitVec 4) (s : State) : Host.Outcome State Fault Refusal := fire 0x1B a b d e t subSatForm s
/-- MUL.SAT (R61). -/
def mulSatForm : FCtx → Except Stop Res := satForm fun c k => c.ia k * c.ib k
/-- MUL.SAT (R61). -/
def execMulSat (a b d e : BitVec 5) (t : BitVec 4) (s : State) : Host.Outcome State Fault Refusal := fire 0x1C a b d e t mulSatForm s
/-- MAD.SAT (R61, R104). -/
def execMadSat (a b d e : BitVec 5) (t : BitVec 4) (s : State) : Host.Outcome State Fault Refusal :=
  fire 0x1D a b d e t (satForm fun c k => c.ia k * c.ib k + c.ic k) s
/-- NEG.SAT (R61). -/
def negSatForm : FCtx → Except Stop Res := satForm fun c k => -c.ia k
/-- NEG.SAT (R61). -/
def execNegSat (a b d e : BitVec 5) (t : BitVec 4) (s : State) : Host.Outcome State Fault Refusal := fire 0x1E a b d e t negSatForm s
/-- ABS.SAT (R61). -/
def absSatForm : FCtx → Except Stop Res := satForm fun c k => ((c.ia k).natAbs : Int)
/-- ABS.SAT (R61). -/
def execAbsSat (a b d e : BitVec 5) (t : BitVec 4) (s : State) : Host.Outcome State Fault Refusal := fire 0x1F a b d e t absSatForm s
/-- SHL.SAT (R112). -/
def shlSatForm : FCtx → Except Stop Res := fun c => c.lanewise fun k sr => plain (shlSatInt c.ifmt (c.ia k) (c.vb k).toNat) sr
/-- SHL.SAT (R112). -/
def execShlSat (a b d e : BitVec 5) (t : BitVec 4) (s : State) : Host.Outcome State Fault Refusal := fire 0x20 a b d e t shlSatForm s

end Sys2Proof.Machine
end

