-- ==== Sys2Proof/Machine/FloatArith.lean ====
section
/-! DEFINITION. The float forms 0x28 to 0x39 (R116-R120). -/

namespace Sys2Proof.Machine

/-- Parameters of the input and output formats under the image's B8 mode. -/
def FCtx.pin (c : FCtx) : FP := fparams c.ifmt c.img.b8mode
def FCtx.pout (c : FCtx) : FP := fparams c.ofmt c.img.b8mode
/-- Lane k of a, b and K15 as float values. -/
def FCtx.fa (c : FCtx) (k : Nat) : FV := fread c.pin (c.va k)
def FCtx.fb (c : FCtx) (k : Nat) : FV := fread c.pin (c.vb k)
def FCtx.fc (c : FCtx) (k : Nat) : FV := fread c.pin (c.vc k)

/-- A form whose exact result is rounded once in the mode in force. -/
def roundForm (g : FCtx → Nat → FR) (c : FCtx) : Except Stop Res :=
  c.lanewise fun k sr => finishFR c.pin c.mode sr (g c k)
/-- A function of one operand, correctly rounded (R117). -/
def funForm (g : FP → Round → Word → FV → Rounded) (c : FCtx) : Except Stop Res :=
  c.lanewise fun k sr => g c.pin c.mode sr (c.fa k)

/-- FABS and FNEG (R118): the sign bit; NaN canonical, a signalling NaN sets IV; unsigned B8 has no negative value. -/
def signForm (neg : Bool) (p : FP) (x : DWord) : DWord × Flags :=
  let n := x.toNat % 2 ^ p.w
  match fread p x with
  | .nan s => (w64 p.nan, flagIf s flIV)
  | v =>
    if p.signed then
      if !p.negZero && decide (n = 0) then (0, 0)
      else if neg then (w64 (if n / 2 ^ (p.w - 1) = 1 then n - 2 ^ (p.w - 1) else n + 2 ^ (p.w - 1)), 0)
      else (w64 (n % 2 ^ (p.w - 1)), 0)
    else if neg then (match v with | .zero _ => (0, 0) | _ => (w64 p.nan, flIV))
    else (w64 n, 0)

/-- FCMP (R119). -/
def fcmpCode (a b : FV) : DWord × Flags :=
  if a.isNan || b.isNan then (8, flagIf (a.isSig || b.isSig) flIV)
  else (w64 (condCode (ltFV a b) (!ltFV a b && !ltFV b a)), 0)

/-- The class number of R120. -/
def classOf (p : FP) (x : DWord) : Nat :=
  let n := x.toNat % 2 ^ p.w
  let s := p.signOf n
  let sub := decide (p.magOf n < 2 ^ p.t)
  match fread p x with
  | .nan _ => 0
  | .inf _ => if s then 1 else 8
  | .zero z => if z then 4 else 5
  | .fin _ => if s then (if sub then 3 else 2) else (if sub then 6 else 7)

/-- FADD (R116). -/
def faddForm : FCtx → Except Stop Res := roundForm fun c k => addFV c.mode (c.fa k) (c.fb k)
/-- FADD (R116). -/
def execFadd (a b d e : BitVec 5) (t : BitVec 4) (s : State) : Host.Outcome State Fault Refusal := fire 0x28 a b d e t faddForm s
/-- FSUB (R116). -/
def fsubForm : FCtx → Except Stop Res := roundForm fun c k => addFV c.mode (c.fa k) (negFV (c.fb k))
/-- FSUB (R116). -/
def execFsub (a b d e : BitVec 5) (t : BitVec 4) (s : State) : Host.Outcome State Fault Refusal := fire 0x29 a b d e t fsubForm s
/-- FMUL (R116). -/
def fmulForm : FCtx → Except Stop Res := roundForm fun c k => mulFV (c.fa k) (c.fb k)
/-- FMUL (R116). -/
def execFmul (a b d e : BitVec 5) (t : BitVec 4) (s : State) : Host.Outcome State Fault Refusal := fire 0x2A a b d e t fmulForm s
/-- FFMA (R116, R104). -/
def execFfma (a b d e : BitVec 5) (t : BitVec 4) (s : State) : Host.Outcome State Fault Refusal :=
  fire 0x2B a b d e t (roundForm fun c k => fmaFV c.mode (c.fa k) (c.fb k) (c.fc k)) s
/-- FMIN (R118). -/
def fminForm : FCtx → Except Stop Res := fun c => c.lanewise fun k sr => plain (minmaxF c.pin false (c.va k) (c.vb k)) sr
/-- FMIN (R118). -/
def execFmin (a b d e : BitVec 5) (t : BitVec 4) (s : State) : Host.Outcome State Fault Refusal := fire 0x2C a b d e t fminForm s
/-- FMAX (R118). -/
def fmaxForm : FCtx → Except Stop Res := fun c => c.lanewise fun k sr => plain (minmaxF c.pin true (c.va k) (c.vb k)) sr
/-- FMAX (R118). -/
def execFmax (a b d e : BitVec 5) (t : BitVec 4) (s : State) : Host.Outcome State Fault Refusal := fire 0x2D a b d e t fmaxForm s
/-- FABS (R118). -/
def fabsForm : FCtx → Except Stop Res := fun c => c.lanewise fun k sr => plain (signForm false c.pin (c.va k)) sr
/-- FABS (R118). -/
def execFabs (a b d e : BitVec 5) (t : BitVec 4) (s : State) : Host.Outcome State Fault Refusal := fire 0x2E a b d e t fabsForm s
/-- FNEG (R118). -/
def fnegForm : FCtx → Except Stop Res := fun c => c.lanewise fun k sr => plain (signForm true c.pin (c.va k)) sr
/-- FNEG (R118). -/
def execFneg (a b d e : BitVec 5) (t : BitVec 4) (s : State) : Host.Outcome State Fault Refusal := fire 0x2F a b d e t fnegForm s
/-- FCMP (R119). -/
def execFcmp (a b d e : BitVec 5) (t : BitVec 4) (s : State) : Host.Outcome State Fault Refusal :=
  fire 0x30 a b d e t (fun c => c.lanewise fun k sr => plain (fcmpCode (c.fa k) (c.fb k)) sr) s
/-- FDIV (R116). -/
def execFdiv (a b d e : BitVec 5) (t : BitVec 4) (s : State) : Host.Outcome State Fault Refusal :=
  fire 0x31 a b d e t (roundForm fun c k => divFV (c.fa k) (c.fb k)) s
/-- FSQRT (R117). -/
def execFsqrt (a b d e : BitVec 5) (t : BitVec 4) (s : State) : Host.Outcome State Fault Refusal :=
  fire 0x32 a b d e t (funForm sqrtF) s
/-- FRCP (R117). -/
def execFrcp (a b d e : BitVec 5) (t : BitVec 4) (s : State) : Host.Outcome State Fault Refusal :=
  fire 0x33 a b d e t (funForm rcpF) s
/-- FRSQ (R117). -/
def execFrsq (a b d e : BitVec 5) (t : BitVec 4) (s : State) : Host.Outcome State Fault Refusal :=
  fire 0x34 a b d e t (funForm rsqF) s
/-- FEXP2 (R117). -/
def execFexp2 (a b d e : BitVec 5) (t : BitVec 4) (s : State) : Host.Outcome State Fault Refusal :=
  fire 0x35 a b d e t (funForm exp2F) s
/-- FLOG2 (R117). -/
def execFlog2 (a b d e : BitVec 5) (t : BitVec 4) (s : State) : Host.Outcome State Fault Refusal :=
  fire 0x36 a b d e t (funForm log2F) s
/-- FTANH (R117). -/
def execFtanh (a b d e : BitVec 5) (t : BitVec 4) (s : State) : Host.Outcome State Fault Refusal :=
  fire 0x37 a b d e t (funForm tanhF) s
/-- FSIGM (R117). -/
def execFsigm (a b d e : BitVec 5) (t : BitVec 4) (s : State) : Host.Outcome State Fault Refusal :=
  fire 0x38 a b d e t (funForm sigmF) s
/-- FCLASS (R120). -/
def execFclass (a b d e : BitVec 5) (t : BitVec 4) (s : State) : Host.Outcome State Fault Refusal :=
  fire 0x39 a b d e t (fun c => c.lanewise fun k sr => plain (w64 (classOf c.pin (c.va k)), 0) sr) s

end Sys2Proof.Machine
end

