-- ==== Sys2Proof/Machine/Convert.lean ====
section
/-! DEFINITION. The conversion forms 0x40 to 0x4B (R121-R125), and the scales an MX firing takes (R79, R98, R167). -/

namespace Sys2Proof.Machine

/-! ## One value converted (R121) -/

/-- An integer, or an FX64 value's integer n, brought into another integer format or FX64 without rounding. -/
def moveInt (fo : Fmt) (sat : Bool) (v : Int) : DWord × Flags :=
  if sat then satInt fo v else (keepBits fo.width v, flagIf (!inRange fo v) flSAT)

/-- A value of one format in another (R121, R95); `sat` is CVT.SAT. -/
def convLane (fi fo : Fmt) (b8 : Byte) (m : Round) (sat : Bool) (x : DWord) (sr : Word) : Rounded :=
  let m := roundFor m fo
  if fi = fo then
    match readFV fi b8 x with
    | .nan s => ⟨w64 (fparams fi b8).nan, flagIf s flIV, sr⟩
    | .inf s => roundFV (fparams fo b8) m sat sr (.inf s)
    | _ => ⟨trunc fi.width x, 0, sr⟩
  else if fo.isInt || fo == .fx64 then
    if fi.isInt then plain (moveInt fo sat (readInt fi x * (if fo = .fx64 then 2 ^ 32 else 1))) sr
    else toIntFmt fo m sat sr (if fo = .fx64 then 32 else 0) (readFV fi b8 x)
  else roundFV (fparams fo b8) m sat sr (readFV fi b8 x)

/-- CVT in a mode: the header's, or the one a suffix gives (R61, R107). -/
def cvtForm (sat : Bool) (mode : FCtx → Round) (c : FCtx) : Except Stop Res :=
  c.lanewise fun k sr => convLane c.ifmt c.ofmt c.img.b8mode (mode c) sat (c.va k) sr

/-- The header's mode as it stands for a conversion. -/
def FCtx.cvtMode (c : FCtx) : Round := roundOf c.img.roundCode
/-- The mode under the suffix `.N`: RNE into an 8-bit format, and elsewhere the base form's (R61). -/
def FCtx.nMode (c : FCtx) : Round := if c.ofmt.narrow then .rne else c.cvtMode

/-! ## QUANT (R122) -/

/-- An exact product brought into I8, N8 or B8, saturating. -/
def quantLane (fo : Fmt) (b8 : Byte) (m : Round) (r : FR) (sr : Word) : Rounded :=
  let m := roundFor m fo
  if fo.isInt then
    let x := toIntFmt fo m true sr 0 r.1
    ⟨x.bits, x.fl ||| r.2, x.sr⟩
  else
    let x := roundFV (fparams fo b8) m true sr r.1
    ⟨x.bits, x.fl ||| r.2, x.sr⟩

/-- QUANT in a mode. -/
def quantForm (mode : FCtx → Round) (c : FCtx) : Except Stop Res :=
  c.lanewise fun k sr => quantLane c.ofmt c.img.b8mode (mode c) (mulFV (c.fa k) (c.fb k)) sr

/-! ## MX blocks (R79-R81, R123, R124, R167) -/

/-- A source's lane 0 read as an integer in the slot's input format (R123, R130); none where it holds none, which raises FORMAT
(DEDUCED, log 20). -/
def FCtx.intVal (c : FCtx) (sel : Nat) : Option Int :=
  match readFV c.ifmt c.img.b8mode (c.src sel 0).1 with
  | .zero _ => some 0
  | .fin q => if q.n % q.d = 0 then some (q.n / q.d) else none
  | _ => none

/-- KIND of an MX format's scale tokens (R81). -/
def mxKind (f : Fmt) : Bool := f == .mxi8

/-- A scale token's fields (R81). -/
def scaleKind (v : BitVec 16) : Bool := bit v 9
def scaleLen (v : BitVec 16) : Nat := if bit v 8 then 32 else 16
def scaleCode (v : BitVec 16) : Nat := fld v 7 0
/-- A scale token's value. -/
def mkScale (kind : Bool) (len code : Nat) : BitVec 16 := BitVec.ofNat 16 (kind.toNat * 512 + (if len = 32 then 256 else 0) + code)

/-- The first scale token under a slot and tag, and the store without it (R167). -/
def pickScale (slot : Nat) (tag : DWord) : List ScaleTok → Option (ScaleTok × List ScaleTok)
  | [] => none
  | x :: r =>
    if x.slot = slot ∧ x.tag = tag then some (x, r)
    else (pickScale slot tag r).map fun p => (p.1, x :: p.2)

/-- Scale tokens for a list of iterations, each taking a token of its own, and the store without them. -/
def pickScales (img : Image) (slot : Nat) (tag : DWord) : List Nat → List ScaleTok → List (Option ScaleTok) × List ScaleTok
  | [], st => ([], st)
  | i :: r, st =>
    match pickScale slot (img.setF0 tag i) st with
    | some (x, st) => let p := pickScales img slot tag r st; (some x :: p.1, p.2)
    | none => let p := pickScales img slot tag r st; (none :: p.1, p.2)

/-- The iterations at which blocks of n of a run of L lanes begin. -/
def blockStarts (base L n : Nat) : List Nat := (List.range ((L + n - 1) / n)).map fun j => base + n * j

/-- The scales of a firing (R98, R167): block length, scale codes, and the store without their tokens. A wait under SCALE
carries the word of R168. -/
def FCtx.takeScales (c : FCtx) : Except Stop (Nat × List Nat × List ScaleTok) :=
  let st := c.elt.scales
  match pickScale c.slot (c.img.setF0 c.tag c.base) st with
  | none =>
    let got := (pickScales c.img c.slot c.tag (blockStarts c.base c.len 16) st).1
    .error (.park .scale (512 + 256 + (got.countP (·.isNone)) % 64))
  | some (x, _) =>
    let n := scaleLen x.val
    if c.base % n ≠ 0 ∨ c.len % n ≠ 0 then c.format
    else
      let p := pickScales c.img c.slot c.tag (blockStarts c.base c.len n) st
      if p.1.any (fun o => match o with | some y => scaleLen y.val != n || scaleKind y.val != mxKind c.ifmt | none => false) then c.format
      else if p.1.any (·.isNone) then .error (.park .scale (256 + (p.1.countP (·.isNone)) % 64))
      else .ok (n, p.1.filterMap fun o => o.map fun y => scaleCode y.val, p.2)

/-- The fabric with a firing's scale tokens consumed. -/
def FCtx.dropScales (c : FCtx) (f : Fabric) (rest : List ScaleTok) : Fabric := f.modEl c.el fun e => { e with scales := rest }

/-- The scale tokens of a run's blocks to one destination (R165). -/
def FCtx.scaleOuts (c : FCtx) (dst n : Nat) (kind : Bool) (codes : List Nat) : List Out :=
  (codes.zipIdx).map fun p =>
    { c.run dst 0 [] with f0 := some (c.base + n * p.2), scale := some (mkScale kind n p.1) }

/-- An element with its scale (R79, R80): an all-zero block is +0, scale 0xFF and NaN elements are NaN. A NaN element is NaN in an all-zero
block too (R79; R80 and R124 give +0 there; DEDUCED, log 20). -/
def mxVal (f : Fmt) (b8 : Byte) (code : Nat) (x : DWord) : FV :=
  if code = 0xFF then .nan false
  else
    match readFV f b8 x with
    | .nan _ => .nan false
    | .zero s => .zero (if code = 0 then false else s)
    | .inf s => if code = 0 then .zero false else .inf s
    | .fin q => if code = 0 then .zero false else .fin (Q.mul q (pow2 ((code : Int) - 127)))

/-- Magnitude of a finite value. -/
def absQ : FV → Q
  | .fin q => ⟨q.n.natAbs, q.d⟩
  | _ => ⟨0, 1⟩

/-- Is a value NaN or an infinity? -/
def FV.special : FV → Bool | .nan _ => true | .inf _ => true | _ => false

/-- EMAX of an element format (R123). -/
def mxEmax (fo : Fmt) (b8 : Byte) : Int :=
  if fo = .mxi8 then 0 else let q := (b8Params b8).magVal (b8Params b8).maxFin; log2Q q.n.natAbs q.d

/-- One element of a block under X (R123). -/
def mxElem (fo : Fmt) (b8 : Byte) (m : Round) (X : Int) (v : FV) (sr : Word) : Rounded :=
  let down := match v with | .fin q => FV.fin (Q.mul q (pow2 (-X))) | v => v
  if fo = .mxi8 then toIntFmt .i8 m true sr 6 down else roundFV (b8Params b8) m true sr down

/-- A packed block: elements, scale code, flags, SR state. -/
structure PackedBlock where
  elems : List DWord
  code : Nat
  fl : Flags
  sr : Word

/-- One block packed (R123): its lanes as values, none where a lane is invalid. -/
def packBlock (fo : Fmt) (b8 : Byte) (m : Round) (vs : List (Option FV)) (sr : Word) : PackedBlock :=
  let on := vs.filterMap id
  let zeros := vs.map fun _ => (0 : DWord)
  if on.any FV.special then
    ⟨zeros, 0xFF, flagIf (on.any fun v => match v with | .inf _ => true | v => v.isSig) flIV, sr⟩
  else
    let M := on.foldl (fun (q : Q) v => if q.lt (absQ v) then absQ v else q) ⟨0, 1⟩
    if M.n = 0 then ⟨zeros, 0, 0, sr⟩
    else
      let X := max (-126) (min 127 (log2Q M.n.natAbs M.d - mxEmax fo b8))
      let r := runLanes (fun k sr => mxElem fo b8 m X ((vs.getD k none).getD (.zero false)) sr)
        (BitVec.ofNat 32 ((vs.zipIdx).foldl (fun n p => if p.1.isSome then n + 2 ^ p.2 else n) 0)) (fun _ => 0) (List.range vs.length) sr
      ⟨r.vals, if r.vals.all (· = 0) then 0 else (X + 127).toNat, r.fl, r.sr⟩

/-- Blocks packed in turn: all elements, scale codes, flags, SR state. -/
def packAll (fo : Fmt) (b8 : Byte) (m : Round) : List (List (Option FV)) → Word → List DWord × List Nat × Flags × Word
  | [], sr => ([], [], 0, sr)
  | b :: r, sr =>
    let x := packBlock fo b8 m b sr
    let y := packAll fo b8 m r x.sr
    (x.elems ++ y.1, x.code :: y.2.1, x.fl ||| y.2.2.1, y.2.2.2)

/-- MXPACK in a mode (R123). -/
def mxpackForm (mode : FCtx → Round) (c : FCtx) : Except Stop Res :=
  let n := match c.intVal c.b with | some 16 => 16 | some 32 => 32 | _ => 0
  if n = 0 then c.format
  else if c.base % n ≠ 0 ∨ c.len % n ≠ 0 then c.format
  else
    let vs := c.lanes.map fun k => if c.on k then some (c.fa k) else none
    let blocks := (List.range (c.len / n)).map fun j => (vs.drop (n * j)).take n
    let r := packAll c.ofmt c.img.b8mode (roundFor (mode c) c.ofmt) blocks c.elt.srstate
    let f := c.f.modEl c.el fun e => { e with srstate := r.2.2.2 }
    .ok (Res.of f r.2.2.1 (c.run c.d c.valid r.1 :: c.scaleOuts c.e n (mxKind c.ofmt) r.2.1) none)

/-- MXUNPK (R124). -/
def mxunpkForm (c : FCtx) : Except Stop Res :=
  match c.takeScales with
  | .error e => .error e
  | .ok (n, codes, rest) =>
    let r := c.compute fun k sr => roundFV c.pout c.mode false sr (mxVal c.ifmt c.img.b8mode (codes.getD (k / n) 0) (c.va k))
    .ok (Res.of (c.dropScales c.f rest) r.fl (c.both c.valid r.vals) none)

/-! ## KEYX (R125) -/

/-- The key of raw bits. -/
def keyOf (f : Fmt) (b8 : Byte) (x : DWord) : DWord :=
  let w := f.width
  let n := (trunc w x).toNat
  let top := 2 ^ (w - 1)
  if f.isInt then (if f.isNat then w64 n else w64 (if top ≤ n then n - top else n + top))
  else if f = .b8 then
    if !(b8Params b8).signed then w64 n
    else if n = 0x80 then 0xFF else if n < 0x80 then w64 (n + 0x7F) else w64 (0xFF - n)
  else if (fread (fparams f b8) x).isNan then w64 (2 ^ w - 1)
  else if n < top then w64 (n + top) else w64 (2 ^ w - 1 - n)

/-- CVT (R121). -/
def execCvt (a b d e : BitVec 5) (t : BitVec 4) (s : State) : Host.Outcome State Fault Refusal :=
  fire 0x40 a b d e t (cvtForm false FCtx.cvtMode) s
/-- CVT.SAT (R61, R121). -/
def execCvtSat (a b d e : BitVec 5) (t : BitVec 4) (s : State) : Host.Outcome State Fault Refusal :=
  fire 0x41 a b d e t (cvtForm true FCtx.cvtMode) s
/-- CVT.S (R61). -/
def execCvtS (a b d e : BitVec 5) (t : BitVec 4) (s : State) : Host.Outcome State Fault Refusal :=
  fire 0x42 a b d e t (cvtForm false fun _ => .sr) s
/-- CVT.N (R61). -/
def execCvtN (a b d e : BitVec 5) (t : BitVec 4) (s : State) : Host.Outcome State Fault Refusal :=
  fire 0x43 a b d e t (cvtForm false FCtx.nMode) s
/-- QUANT (R122). -/
def execQuant (a b d e : BitVec 5) (t : BitVec 4) (s : State) : Host.Outcome State Fault Refusal :=
  fire 0x44 a b d e t (quantForm FCtx.cvtMode) s
/-- QUANT.S (R61). -/
def execQuantS (a b d e : BitVec 5) (t : BitVec 4) (s : State) : Host.Outcome State Fault Refusal :=
  fire 0x45 a b d e t (quantForm fun _ => .sr) s
/-- QUANT.N (R61). -/
def execQuantN (a b d e : BitVec 5) (t : BitVec 4) (s : State) : Host.Outcome State Fault Refusal :=
  fire 0x46 a b d e t (quantForm fun _ => .rne) s
/-- MXPACK (R123). -/
def execMxpack (a b d e : BitVec 5) (t : BitVec 4) (s : State) : Host.Outcome State Fault Refusal :=
  fire 0x47 a b d e t (mxpackForm FCtx.cvtMode) s
/-- MXPACK.S (R61). -/
def execMxpackS (a b d e : BitVec 5) (t : BitVec 4) (s : State) : Host.Outcome State Fault Refusal :=
  fire 0x48 a b d e t (mxpackForm fun _ => .sr) s
/-- MXPACK.N (R61). -/
def execMxpackN (a b d e : BitVec 5) (t : BitVec 4) (s : State) : Host.Outcome State Fault Refusal :=
  fire 0x49 a b d e t (mxpackForm fun _ => .rne) s
/-- MXUNPK (R124). -/
def execMxunpk (a d e : BitVec 5) (t : BitVec 4) (s : State) : Host.Outcome State Fault Refusal :=
  fire 0x4A a 0x1F d e t mxunpkForm s
/-- KEYX (R125). -/
def execKeyx (a b d e : BitVec 5) (t : BitVec 4) (s : State) : Host.Outcome State Fault Refusal :=
  fire 0x4B a b d e t (fun c => c.lanewise fun k sr => plain (keyOf c.ifmt c.img.b8mode (c.va k), 0) sr) s

end Sys2Proof.Machine
end

