-- ==== Sys2Proof/Machine/Vector.lean ====
section
/-! DEFINITION. The vector forms 0x50 to 0x59 (R126-R132) and their fixed tree (R100, R101). -/

namespace Sys2Proof.Machine

/-- A node of the tree: empty, or bits with the flags raised beneath it. -/
abbrev Node := Option (DWord × Flags)

/-- Two inputs of a node: an empty one passes the other unchanged (R100). -/
def joinNode (g : DWord → DWord → DWord × Flags) (x y : Node) : Node :=
  match x, y with
  | none, y => y
  | x, none => x
  | some (a, fa), some (b, fb) => let r := g a b; some (r.1, r.2 ||| fa ||| fb)

/-- The level above a level. -/
def nextLevel (g : DWord → DWord → DWord × Flags) : List Node → List Node
  | x :: y :: r => joinNode g x y :: nextLevel g r
  | _ => []

/-- The levels of the tree over leaves, leaves first. -/
def treeLevels (g : DWord → DWord → DWord × Flags) : Nat → List Node → List (List Node)
  | 0, l => [l]
  | n + 1, l => l :: treeLevels g n (nextLevel g l)

/-- The tree's height over L lanes: Q = 2^height is the least power of two at or above L. -/
def treeHeight (L : Nat) : Nat := if L ≤ 1 then 0 else Nat.log2 (L - 1) + 1

/-- The leaves: valid lanes of a, empty elsewhere, out to Q (R100). -/
def FCtx.leaves (c : FCtx) : List Node :=
  (List.range (2 ^ treeHeight c.len)).map fun k => if k < c.len ∧ c.on k then some (c.va k, 0) else none

/-- A sum node: one rounding in the mode in force, or a wrap (R100). -/
def FCtx.sumNode (c : FCtx) (x y : DWord) : DWord × Flags :=
  if c.ifmt.isFlt then
    let r := finishFR c.pin c.mode 0 (addFV c.mode (fread c.pin x) (fread c.pin y))
    (r.bits, r.fl)
  else wrapInt c.ifmt (readInt c.ifmt x + readInt c.ifmt y)

/-- A node that takes the greater or the lesser input (R126, R118, R109). -/
def FCtx.pickNode (c : FCtx) (isMax : Bool) (x y : DWord) : DWord × Flags :=
  if c.ifmt.isFltB then minmaxF c.pin isMax x y
  else
    let a := readInt c.ifmt x
    let b := readInt c.ifmt y
    (if isMax then (if a < b then y else x) else (if b < a then y else x), 0)

/-- A scalar of a reduction to both destinations: its tag is the result tag with F0 as the firing tag holds it (R106). Where the tag
action pops or pushes a field, that value takes the field that is then innermost (DEDUCED, log 21). -/
def FCtx.reduced (c : FCtx) (valid : Bool) (v : DWord) : List Out :=
  [{ c.scalar c.d valid v with f0 := some c.base }, { c.scalar c.e valid v with f0 := some c.base }]

/-- A reduction: the root as a scalar; an empty root is +0 with its valid bit clear (R126). -/
def reduceForm (g : FCtx → DWord → DWord → DWord × Flags) (c : FCtx) : Except Stop Res :=
  let root := ((treeLevels (g c) (treeHeight c.len) c.leaves).getLastD []).headD none
  match root with
  | some (v, fl) => .ok (Res.of c.f fl (c.reduced true v) none)
  | none => c.emits (c.reduced false 0)

/-- The prefix of lane k: its nodes, the largest span first, added left to right (R101). -/
def prefixNode (g : DWord → DWord → DWord × Flags) (levels : List (List Node)) (k : Nat) : Node :=
  ((List.range 6).reverse.foldl
    (fun (p : Node × Nat) lv =>
      if (k + 1).testBit lv then (joinNode g p.1 ((levels.getD lv []).getD (p.2 / 2 ^ lv) none), p.2 + 2 ^ lv) else p)
    (none, 0)).1

/-- VSCAN (R128). -/
def vscanForm (c : FCtx) : Except Stop Res :=
  let lv := treeLevels c.sumNode (treeHeight c.len) c.leaves
  c.lanewise fun k sr =>
    match prefixNode c.sumNode lv k with
    | some (v, fl) => ⟨v, fl, sr⟩
    | none => ⟨0, 0, sr⟩

/-- Lanes and a valid word from optional lanes: an absent lane is 0 with its bit clear. -/
def optLanes (l : List (Option DWord)) : List DWord × BitVec 32 :=
  (l.map (·.getD 0), BitVec.ofNat 32 ((l.zipIdx).foldl (fun n p => if p.1.isSome then n + 2 ^ p.2 else n) 0))

/-- VPERM (R129). -/
def vpermForm (c : FCtx) : Except Stop Res :=
  let r := optLanes (c.lanes.map fun k =>
    let i := fld (c.vb k) 4 0
    if c.sideValid c.b k ∧ i < c.len ∧ c.sideValid c.a i then some (c.va i) else none)
  c.emits (c.both r.2 r.1)

/-- VSPLAT (R130): the run's base is the firing tag's F0, checked against the F0 field of the tag that the run carries. -/
def vsplatForm (c : FCtx) : Except Stop Res :=
  let isRun : Bool := match c.tok c.a with | some t => t.vec | none => false
  match c.intVal c.b with
  | none => c.format
  | some n =>
    if isRun ∨ n < 1 ∨ 32 < n ∨ 1024 < n * c.ofmt.width ∨ c.overF0 c.base n.toNat then c.format
    else
      let v := if c.sideValid c.a 0 then lanesMask n.toNat else 0
      let o := fun dst => { c.run dst v (List.replicate n.toNat (c.va 0)) with vec := true, f0 := some c.base }
      c.emits [o c.d, o c.e]

/-- Values converted in turn into the lanes that take one (R131). -/
def convMove (c : FCtx) : List (Option DWord) → Word → List DWord × Flags × Word
  | [], sr => ([], 0, sr)
  | none :: r, sr => let y := convMove c r sr; (0 :: y.1, y.2.1, y.2.2)
  | some x :: r, sr =>
    let z := convLane c.ifmt c.ofmt c.img.b8mode c.cvtMode false x sr
    let y := convMove c r z.sr
    (z.bits :: y.1, z.fl ||| y.2.1, y.2.2)

/-- Lanes moved and converted, emitted with the lanes that took one valid. -/
def moveForm (c : FCtx) (l : List (Option DWord)) : Except Stop Res :=
  let r := convMove c l c.elt.srstate
  .ok (Res.of (c.f.modEl c.el fun e => { e with srstate := r.2.2 }) r.2.1 (c.both (optLanes l).2 r.1) none)

/-- a's own valid lanes, ascending. -/
def FCtx.packed (c : FCtx) : List DWord := (c.lanes.filter fun k => c.sideValid c.a k).map c.va

/-- VPACK (R131). -/
def vpackForm (c : FCtx) : Except Stop Res := moveForm c (c.lanes.map fun k => c.packed[k]?)

/-- Packed values handed to the lanes a mask names, in order. -/
def spread : List Bool → List DWord → List (Option DWord)
  | [], _ => []
  | true :: m, x :: r => some x :: spread m r
  | true :: m, [] => none :: spread m []
  | false :: m, l => none :: spread m l

/-- VUNPK (R131). -/
def vunpkForm (c : FCtx) : Except Stop Res :=
  moveForm c (spread (c.lanes.map fun k => c.sideValid c.b k && decide (c.vb k ≠ 0)) c.packed)

/-- The lane mask of b: bit k where b's raw bits are non-zero (R132, R143). -/
def FCtx.maskB (c : FCtx) : BitVec 32 := BitVec.ofNat 32 (c.lanes.foldl (fun n k => if c.vb k ≠ 0 then n + 2 ^ k else n) 0)

/-- VMASK (R132). -/
def vmaskForm (c : FCtx) : Except Stop Res := c.emits (c.both (c.valid &&& c.maskB) c.avals)

/-- VCOUNT (R127). -/
def vcountForm (c : FCtx) : Except Stop Res :=
  c.emits (c.reduced true (w64 (popBits 32 c.valid.toNat)))

/-- VSUM (R126). -/
def execVsum (a b d e : BitVec 5) (t : BitVec 4) (s : State) : Host.Outcome State Fault Refusal :=
  fire 0x50 a b d e t (reduceForm FCtx.sumNode) s
/-- VMAX (R126). -/
def execVmax (a b d e : BitVec 5) (t : BitVec 4) (s : State) : Host.Outcome State Fault Refusal :=
  fire 0x51 a b d e t (reduceForm fun c => c.pickNode true) s
/-- VMIN (R126). -/
def execVmin (a b d e : BitVec 5) (t : BitVec 4) (s : State) : Host.Outcome State Fault Refusal :=
  fire 0x52 a b d e t (reduceForm fun c => c.pickNode false) s
/-- VSCAN (R128). -/
def execVscan (a b d e : BitVec 5) (t : BitVec 4) (s : State) : Host.Outcome State Fault Refusal :=
  fire 0x53 a b d e t vscanForm s
/-- VPERM (R129). -/
def execVperm (a b d e : BitVec 5) (t : BitVec 4) (s : State) : Host.Outcome State Fault Refusal :=
  fire 0x54 a b d e t vpermForm s
/-- VSPLAT (R130). -/
def execVsplat (a b d e : BitVec 5) (t : BitVec 4) (s : State) : Host.Outcome State Fault Refusal :=
  fire 0x55 a b d e t vsplatForm s
/-- VPACK (R131). -/
def execVpack (a b d e : BitVec 5) (t : BitVec 4) (s : State) : Host.Outcome State Fault Refusal :=
  fire 0x56 a b d e t vpackForm s
/-- VUNPK (R131). -/
def execVunpk (a b d e : BitVec 5) (t : BitVec 4) (s : State) : Host.Outcome State Fault Refusal :=
  fire 0x57 a b d e t vunpkForm s
/-- VMASK (R132). -/
def execVmask (a b d e : BitVec 5) (t : BitVec 4) (s : State) : Host.Outcome State Fault Refusal :=
  fire 0x58 a b d e t vmaskForm s
/-- VCOUNT (R127). -/
def execVcount (a b d e : BitVec 5) (t : BitVec 4) (s : State) : Host.Outcome State Fault Refusal :=
  fire 0x59 a b d e t vcountForm s

end Sys2Proof.Machine
end

