-- ==== Sys2Proof/Machine/Steer.lean ====
section
/-! DEFINITION. The steering and block forms 0x60 to 0x69 (R143-R146, R160). -/

namespace Sys2Proof.Machine

/-- Lanes of b. -/
def FCtx.bvals (c : FCtx) : List DWord := c.lanes.map c.vb

/-- SW (R143): a under V AND M to DSTA, under V AND NOT M to DSTB; an empty V goes to DSTA. -/
def swForm (c : FCtx) : Except Stop Res :=
  let t := c.valid &&& c.maskB
  let u := c.valid &&& ~~~c.maskB
  c.emits ((if t ≠ 0 ∨ c.valid = 0 then [c.run c.d t c.avals] else []) ++ (if u ≠ 0 then [c.run c.e u c.avals] else []))

/-- MRG (R144): the token that came, on either side. -/
def mrgForm (c : FCtx) : Except Stop Res :=
  c.emits (c.both c.valid (if c.s.a.isSome then c.avals else c.bvals))

/-- GATE (R143). -/
def gateForm (c : FCtx) : Except Stop Res :=
  let v := c.valid &&& c.maskB
  c.emits (if v ≠ 0 then c.both v c.avals else [])

/-- The entries that FAN's b names (R145). -/
def FCtx.fanBits (c : FCtx) : List Nat := (List.range 16).filter fun j => bit (c.vb 0) j

/-- What stops a send to entries that the firing names only at issue: a B8 send out of the region from a dynamically loaded image
(R97; with LAZY clear nothing stops it, log 47), or a route that is not fit (R203). -/
def FCtx.sendStop (c : FCtx) (js : List Nat) : Option Stop :=
  if c.img.lazy && (decide (c.fout = 11) || decide (c.fout = 12))
      && js.any (fun j => decide (destKind (c.img.dest j) = 1) && !c.f.sameRegion c.el (entryTarget c.el (c.img.dest j)))
  then some (.trap .format c.slotW)
  else
    (js.find? fun j => decide (destKind (c.img.dest j) = 2) && (routeOk c.f c.el (fld (c.img.dest j) 27 16)).isNone).map fun j =>
      .trap .illegal (w32 (fld (c.img.dest j) 27 16))

/-- FAN (R145): DSTA, DSTB, then each entry named by a bit of b; a bit that names no target raises ILLEGAL. -/
def fanForm (c : FCtx) : Except Stop Res :=
  match c.fanBits.find? fun j => destBad (c.img.dest j) with
  | some j => .error (.trap .illegal (w32 j))
  | none =>
    match c.sendStop c.fanBits with
    | some st => .error st
    | none => c.emits (c.both c.valid c.avals ++ c.fanBits.map fun j => c.run j c.valid c.avals)

/-- MOV (R143). -/
def movForm (c : FCtx) : Except Stop Res := c.emits (c.both c.valid c.avals)

/-- EXIT (R141, R143): exit j = b with value a. -/
def exitForm (c : FCtx) : Except Stop Res :=
  let j := (c.vb 0).toNat
  if c.img.exits ≤ j then .error (.trap .illegal (w32 j))
  else if destBad (c.img.dest (12 + j)) then c.illegal
  else match c.sendStop [12 + j] with
  | some st => .error st
  | none => c.emits [c.run (0x16 + j) c.valid c.avals]

/-- TRIG (R143): b under a's valid word. -/
def trigForm (c : FCtx) : Except Stop Res :=
  let v := BitVec.ofNat 32 (c.lanes.foldl (fun n k => if c.sideValid c.a k then n + 2 ^ k else n) 0)
  c.emits (c.both v c.bvals)

/-- A record put into the delay line in order of its due cycle, after those due with it (R146). -/
def insertDelay (due : Nat) (p : Pend) : List (Nat × Pend) → List (Nat × Pend)
  | [] => [(due, p)]
  | x :: r => if x.1 ≤ due then x :: insertDelay due p r else (due, p) :: x :: r

/-- DELAY (R146): a enters the delay line of 16 tokens; a delay of 0 emits at retirement. -/
def delayForm (c : FCtx) : Except Stop Res :=
  let n := min (c.vb 0).toNat 1023
  let outs := c.both c.valid c.avals
  if n = 0 then c.emits outs
  else if 16 ≤ c.elt.delays.length then .error (.park .delay 0)
  else
    let p := { c.pend with tag := c.tagNow, outs := outs, left := 1, masked := false }
    let own := c.granted || c.namesRoute
    let f := c.f.modEl c.el fun e =>
      { e with delays := insertDelay (c.f.clock + n) p e.delays, nextId := if own then e.nextId else e.nextId + 1 }
    .ok (Res.of (f.post (.delayDue c.el)) 0 [] (if own then some p else none))

/-- CSW (R160): the request goes to the anchor, and +0 follows its completion. -/
def cswForm (c : FCtx) : Except Stop Res :=
  match c.f.anchorOf c.el with
  | none => c.illegal
  | some an =>
    let p := { c.pend with left := 1, a := c.va 0, outs := [c.scalar c.d true 0, c.scalar c.e true 0] }
    .ok (Res.of (c.f.post (.cswRequest an c.el c.id)) 0 [] (some p))

/-- SW (R143). -/
def execSw (a b d e : BitVec 5) (t : BitVec 4) (s : State) : Host.Outcome State Fault Refusal :=
  fire 0x60 a b d e t swForm s
/-- MRG (R144). -/
def execMrg (d e : BitVec 5) (t : BitVec 4) (s : State) : Host.Outcome State Fault Refusal :=
  fire 0x61 0 1 d e t mrgForm s
/-- GATE (R143). -/
def execGate (a b d e : BitVec 5) (t : BitVec 4) (s : State) : Host.Outcome State Fault Refusal :=
  fire 0x62 a b d e t gateForm s
/-- FAN (R145). -/
def execFan (a b d e : BitVec 5) (t : BitVec 4) (s : State) : Host.Outcome State Fault Refusal :=
  fire 0x63 a b d e t fanForm s
/-- MOV (R143). -/
def execMov (a b d e : BitVec 5) (t : BitVec 4) (s : State) : Host.Outcome State Fault Refusal :=
  fire 0x64 a b d e t movForm s
/-- SINK (R143): the tokens are consumed. -/
def execSink (a b : BitVec 5) (t : BitVec 4) (s : State) : Host.Outcome State Fault Refusal :=
  fire 0x65 a b 0x1F 0x1F t (fun c => c.emits []) s
/-- EXIT (R141, R143). -/
def execExit (a b : BitVec 5) (t : BitVec 4) (s : State) : Host.Outcome State Fault Refusal :=
  fire 0x66 a b 0x1F 0x1F t exitForm s
/-- CSW (R160). -/
def execCsw (a b d e : BitVec 5) (t : BitVec 4) (s : State) : Host.Outcome State Fault Refusal :=
  fire 0x67 a b d e t cswForm s
/-- TRIG (R143). -/
def execTrig (a b d e : BitVec 5) (t : BitVec 4) (s : State) : Host.Outcome State Fault Refusal :=
  fire 0x68 a b d e t trigForm s
/-- DELAY (R146). -/
def execDelay (a b d e : BitVec 5) (t : BitVec 4) (s : State) : Host.Outcome State Fault Refusal :=
  fire 0x69 a b d e t delayForm s

end Sys2Proof.Machine
end

