-- ==== Sys2Proof/Machine/Tags.lean ====
section
/-! DEFINITION. The tag forms 0x70 to 0x76 (R147), the loop headers 0x78 to 0x7A (R148-R151), EOS and ZIP (R155, R156). -/

namespace Sys2Proof.Machine

/-- A number extended as NAT into a format (R93). An MX format, for which R93 gives no extension, takes its low bits as R94 has it of
literals (DEDUCED, log 21). -/
def natExt (f : Fmt) (b8 : Byte) (v : Nat) : DWord × Flags :=
  if f.isMx then (trunc f.width (w64 v), 0) else extendLit f b8 1 (w64 v) false false

/-- SPAWN (R147): a under the pushed tag, and the granted number under the firing tag. -/
def spawnForm (c : FCtx) : Except Stop Res :=
  c.emits [c.run c.d c.valid c.avals, { c.scalar c.e true 0 with firing := true, pool := true }]

/-- TGET (R147). -/
def tgetForm (c : FCtx) : Except Stop Res :=
  if c.vec then c.format
  else
    let v := natExt c.ofmt c.img.b8mode (c.img.f c.tag (fld (c.vb 0) 3 0))
    .ok (Res.of c.f v.2 [c.scalar c.d true v.1, c.scalar c.e true v.1] none)

/-- TSET (R147). -/
def tsetForm (c : FCtx) : Except Stop Res :=
  if c.vec ∨ depth c.tag = 0 then c.format
  else .ok ⟨c.f, 0, c.both c.valid c.avals, none, some (c.img.setF0 c.tag (c.vb 0).toNat)⟩

/-- RENM (R147). -/
def renmForm (c : FCtx) : Except Stop Res :=
  let j := fld (c.vb 0) 3 0
  if c.vec ∨ depth c.tag ≤ j then c.format
  else .ok ⟨c.f, 0, c.both c.valid c.avals, none, some (c.img.setLevel c.tag (depth c.tag - j) (c.va 0).toNat)⟩

/-! ## Loop headers (R148-R151) -/

/-- ALIGN with an element address (R393). -/
def alignAt {α : Type} (addr : Nat) : Except Stop α := .error (.trap .align (w32 addr))

/-- Are n bytes at an 8-aligned address inside element memory (R151)? -/
def inElem (addr n : Nat) : Bool := decide (addr % 8 = 0) && decide (addr + n ≤ Config.elemBytes)

/-- The set bits of a 64-bit word below a bound, from an index on. -/
def setBits (w : DWord) (start bound : Nat) : List Nat :=
  ((List.range 64).filter fun i => bit w i && decide (start + i < bound)).map (start + ·)

/-- The iteration values of a descriptor (R149, R150), or a stop. -/
def sloopVals (c : FCtx) (a : Nat) : Except Stop (List Nat) :=
  if !inElem a 16 then alignAt a
  else
    let w0 := c.elt.mem.word a
    let w1 := c.elt.mem.word (a + 8)
    if fld w0 61 48 ≠ 0 ∨ fld w0 31 19 ≠ 0 ∨ fld w1 63 19 ≠ 0 then c.format
    else
      let op := fld w0 63 62
      let n := fld w0 47 32 + 1
      let x := fld w0 18 0
      let y := fld w1 18 0
      let words := (n + 63) / 64
      if !inElem x (8 * words) then alignAt x
      else if op ≠ 0 ∧ !inElem y (8 * words) then alignAt y
      else
        .ok ((List.range words).flatMap fun i =>
          let p := c.elt.mem.word (x + 8 * i)
          let q := c.elt.mem.word (y + 8 * i)
          setBits (match op with | 0 => p | 1 => p &&& q | 2 => p ||| q | _ => p &&& ~~~q) (64 * i) n)

/-- STREE's leaf bits (R150). -/
def streeVals (c : FCtx) (a : Nat) : Except Stop (List Nat) :=
  if !inElem a 16 then alignAt a
  else
    let w0 := c.elt.mem.word a
    let w1 := c.elt.mem.word (a + 8)
    let lev := fld w0 63 62
    let n := fld w0 49 32 + 1
    if fld w0 61 50 ≠ 0 ∨ fld w0 31 0 ≠ 0 ∨ fld w1 63 57 ≠ 0 ∨ lev < 2 ∨ (lev = 2 ∧ 4096 < n) then c.format
    else
      let root := fld w1 56 38
      let mid := fld w1 37 19
      let leaf := fld w1 18 0
      let leaves := (n + 63) / 64
      let mids := (leaves + 63) / 64
      let roots := if lev = 2 then mids else (mids + 63) / 64
      if !inElem root (8 * roots) then alignAt root
      else if lev = 3 ∧ !inElem mid (8 * mids) then alignAt mid
      else if !inElem leaf (8 * leaves) then alignAt leaf
      else
        let m := c.elt.mem
        let tops := (List.range roots).flatMap fun i => setBits (m.word (root + 8 * i)) (64 * i) (if lev = 2 then leaves else mids)
        let lows := if lev = 2 then tops else tops.flatMap fun i => setBits (m.word (mid + 8 * i)) (64 * i) leaves
        .ok (lows.flatMap fun i => setBits (m.word (leaf + 8 * i)) (64 * i) n)

/-- The most iteration values a generator can send before an ordinal passes every field (R148): more are not kept. -/
def loopCap : Nat := 65600

/-- A loop header (R148): the chunk is checked, and the iteration values wait with the request for the credit. -/
def loopForm (vals : FCtx → Nat → Except Stop (List Nat)) (c : FCtx) : Except Stop Res :=
  let k := (c.vb 0).toNat
  if k < 1 ∨ 32 < k ∨ 1024 < k * c.ofmt.width then c.format
  else
    match vals c (c.va 0).toNat with
    | .error e => .error e
    | .ok vs => .ok (Res.of c.f 0 [] (some { c.pend with cnt := k, args := (vs.take loopCap).map w64 }))

/-- LOOP's iteration values: the trip count is the low 32 bits of a (R148). -/
def loopVals (_ : FCtx) (a : Nat) : Except Stop (List Nat) := .ok (List.range (min (a % 2 ^ 32) loopCap))

/-- One token of a generator (R148): its ordinals, or the ordinal that its field cannot hold. -/
def loopToken (img : Image) (g : LoopGen) : Except Nat Out :=
  let vs := g.todo.take g.chunk
  let max := img.f0Max g.pend.tag
  if max < g.ordinal + vs.length - 1 then .error (max + 1)
  else
    let fo := (Fmt.ofCode g.pend.fout).getD .n64
    .ok ⟨g.pend.d, g.pend.fout, decide (g.chunk ≠ 1), lanesMask vs.length, vs.map fun v => (natExt fo img.b8mode v).1, false, 0, some g.ordinal, false, false, none⟩

/-- The scalar that ends a generator: how many tokens went to DSTA, at F0 = 0 (R148). -/
def loopCount (img : Image) (g : LoopGen) : Out :=
  let fo := (Fmt.ofCode g.pend.fout).getD .n64
  ⟨g.pend.e, g.pend.fout, false, 1, [(natExt fo img.b8mode g.sent).1], false, 0, some 0, false, false, none⟩

/-- EOS (R155): a marker at the result tag, at the position of the firing tag's F0. -/
def eosForm (c : FCtx) : Except Stop Res :=
  let r := (c.vb 0).toNat
  if 1 < r then c.format
  else
    let o := fun dst => { c.run dst 0 [] with eos := r + 1, vec := false, f0 := some (c.img.f c.tag 0) }
    c.emits [o c.d, o c.e]

/-- ZIP (R156): A's lanes to DSTA and B's lanes to DSTB. -/
def zipForm (c : FCtx) : Except Stop Res := c.emits [c.run c.d c.valid c.avals, c.run c.e c.valid c.bvals]

/-- ENTER (R147). -/
def execEnter (a b d e : BitVec 5) (s : State) : Host.Outcome State Fault Refusal := fire 0x70 a b d e 0 movForm s
/-- LEAVE (R147). -/
def execLeave (a b d e : BitVec 5) (s : State) : Host.Outcome State Fault Refusal := fire 0x71 a b d e 0 movForm s
/-- SPAWN (R147). -/
def execSpawn (a b d e : BitVec 5) (s : State) : Host.Outcome State Fault Refusal := fire 0x72 a b d e 0 spawnForm s
/-- RETN (R147). -/
def execRetn (a b d e : BitVec 5) (s : State) : Host.Outcome State Fault Refusal := fire 0x73 a b d e 0 movForm s
/-- TGET (R147). -/
def execTget (a b d e : BitVec 5) (s : State) : Host.Outcome State Fault Refusal := fire 0x74 a b d e 0 tgetForm s
/-- TSET (R147). -/
def execTset (a b d e : BitVec 5) (s : State) : Host.Outcome State Fault Refusal := fire 0x75 a b d e 0 tsetForm s
/-- RENM (R147). -/
def execRenm (a b d e : BitVec 5) (s : State) : Host.Outcome State Fault Refusal := fire 0x76 a b d e 0 renmForm s
/-- LOOP (R148). -/
def execLoop (a b d e : BitVec 5) (t : BitVec 4) (s : State) : Host.Outcome State Fault Refusal := fire 0x78 a b d e t (loopForm loopVals) s
/-- SLOOP (R148, R149). -/
def execSloop (a b d e : BitVec 5) (t : BitVec 4) (s : State) : Host.Outcome State Fault Refusal := fire 0x79 a b d e t (loopForm sloopVals) s
/-- STREE (R148, R150). -/
def execStree (a b d e : BitVec 5) (t : BitVec 4) (s : State) : Host.Outcome State Fault Refusal := fire 0x7A a b d e t (loopForm streeVals) s
/-- EOS (R155). -/
def execEos (a b d e : BitVec 5) (t : BitVec 4) (s : State) : Host.Outcome State Fault Refusal := fire 0x7C a b d e t eosForm s
/-- ZIP (R156). -/
def execZip (d e : BitVec 5) (t : BitVec 4) (s : State) : Host.Outcome State Fault Refusal := fire 0x7D 0 1 d e t zipForm s

end Sys2Proof.Machine
end

