-- ==== Sys2Proof/Machine/Matrix.lean ====
section
/-! DEFINITION. The matrix forms 0x80 to 0x87 (R163-R178). Landing is in order of computation (R177); warmth and the burst
count move with the events of the slab. -/

namespace Sys2Proof.Machine

/-- The control word: b's raw bits (R169). -/
def FCtx.ctl (c : FCtx) : DWord := c.vb 0

/-- Slab formats (R164). -/
def slabFmt (n : Nat) : Bool := decide (n ∈ [0, 8, 9, 11, 12, 13])

/-- The slab cold, no burst armed. -/
def Element.slabCold (e : Element) : Element := { e with mxWarm := false, mxWarming := false, mxSince := false, mxBurst := 0 }

/-- MXMODE (R170). -/
def mxmodeForm (c : FCtx) : Except Stop Res :=
  let n := fld c.ctl 3 0
  if !slabFmt n then c.format
  else if c.elt.mxOn && decide (n ≠ c.elt.mxFmt.toNat) && !bit c.ctl 4 then c.format
  else
    let f := c.f.modEl c.el fun e =>
      let e := landAll e
      let e := if bit c.ctl 4 then { e with weights := [], sw := [] } else e
      let e := if bit c.ctl 5 then { e with acc := [] } else e
      { e.slabCold with mxOn := true, mxFmt := BitVec.ofNat 4 n }
    .ok (Res.of f 0 (c.both c.valid c.avals) none)

/-- MXEXIT (R170). -/
def mxexitForm (c : FCtx) : Except Stop Res :=
  .ok (Res.of (c.f.modEl c.el fun e => { (landAll e).slabCold with mxOn := false }) 0 (c.both c.valid c.avals) none)

/-- MMA, WLOAD and BURST need ON; WLOAD and MMA a slot of the slab's format (R169, R171, R172). -/
def FCtx.slabStop (c : FCtx) (fmt : Bool) : Option Stop :=
  if !c.elt.mxOn then some (.trap .illegal (w32 c.op))
  else if fmt && decide (c.fin ≠ c.elt.mxFmt.toNat) then some (.trap .format c.slotW)
  else none

/-- The scales of a slot: none in a plain format. -/
def FCtx.slotScales (c : FCtx) : Except Stop (Nat × List Nat × List ScaleTok) :=
  if c.ifmt.isMx then c.takeScales else .ok (16, [], c.elt.scales)

/-- WLOAD's writes: column j of W in each valid lane, and the column's scales (R171). -/
def wloadElem (c : FCtx) (n : Nat) (codes : List Nat) (e : Element) : Element :=
  let j := fld c.ctl 3 0
  let w := c.lanes.foldl (fun t k => if c.on k then tset t (16 * (c.base + k) + j) ((c.va k).setWidth 16) else t) e.weights
  let put := fun (t : Table Byte) (p : Nat × Nat) =>
    let g := (c.base + n * p.2) / 16
    let t := tset t (16 * g + j) (BitVec.ofNat 8 p.1)
    if n = 32 then tset t (16 * (g + 1) + j) (BitVec.ofNat 8 p.1) else t
  { e with weights := w, sw := (codes.zipIdx).foldl put e.sw }

/-- A run to both destinations, with its scales to the same entries in an MX slot (R165). -/
def FCtx.withScales (c : FCtx) (n : Nat) (codes : List Nat) : List Out :=
  c.both c.valid c.avals ++ c.scaleOuts c.d n (mxKind c.ifmt) codes ++ c.scaleOuts c.e n (mxKind c.ifmt) codes

/-- WLOAD (R171). -/
def wloadForm (c : FCtx) : Except Stop Res :=
  match c.slabStop true with
  | some st => .error st
  | none =>
    if 32 < c.base + c.len then c.format
    else
      match c.slotScales with
      | .error e => .error e
      | .ok (n, codes, rest) =>
        let f := (c.dropScales c.f rest).modEl c.el (wloadElem c n codes)
        .ok (Res.of f 0 (c.withScales n codes) none)

/-! ## MMA (R99, R172) -/

/-- A slab operand: with its scale in an MX format; a NaN counts as quiet. -/
def slabVal (f : Fmt) (b8 : Byte) (code : Nat) (x : DWord) : FV :=
  if f.isMx then mxVal f b8 code x
  else match readFV f b8 x with | .nan _ => .nan false | v => v

/-- An exact sum of products with the flag of an invalid one. -/
def dotSum : List FR → Option FR
  | [] => none
  | x :: r =>
    match dotSum r with
    | none => some x
    | some y => let z := addFV .rne x.1 y.1; some (z.1, x.2 ||| y.2 ||| z.2)

/-- F32 parameters. -/
def f32P : FP := fparams .f32 0

/-- A sum of plain I8 products is an integer: it has no negative zero (R172). -/
def intZero (ints : Bool) (v : FV) : FV := match v with | .zero s => .zero (s && !ints) | v => v

/-- One column of one group: the dot product rounded, then added to the ACC word (R99). -/
def mmaWord (ints : Bool) (acc : Word) (terms : List FR) : Word × Flags :=
  let d := (dotSum terms).getD (.zero false, 0)
  let x := roundFV f32P .rne false 0 (intZero ints d.1)
  let y := finishFR f32P .rne 0 (addFV .rne (fread f32P (acc.setWidth 64)) (fread f32P x.bits))
  (BitVec.ofNat 32 y.bits.toNat, d.2 ||| x.fl ||| y.fl)

/-- One group of an MMA on row r: its ACC words and flags; none where the group is skipped (R172). -/
def mmaGroup (c : FCtx) (acc : Table Word) (r g sx : Nat) : Option (List (Nat × Word) × Flags) :=
  let mx := c.ifmt.isMx
  let sw := fun j : Nat => (tget (0 : Byte) c.elt.sw (16 * g + j)).toNat
  if mx && decide (sx = 0) then none
  else if mx && (List.range 16).all (fun j => decide (sw j = 0)) then none
  else
    let cols := (List.range 16).filter fun j => !(mx && decide (sw j = 0))
    let ks := (List.range 16).filter fun i => c.on (16 * g + i - c.base)
    let ws := cols.map fun j =>
      let terms := ks.map fun i =>
        mulFV (slabVal c.ifmt c.img.b8mode sx (c.va (16 * g + i - c.base)))
          (slabVal c.ifmt c.img.b8mode (sw j) ((tget (0 : BitVec 16) c.elt.weights (16 * (16 * g + i) + j)).setWidth 64))
      (16 * r + j, mmaWord (c.ifmt == .i8) (tget 0 acc (16 * r + j)) terms)
    some (ws.map fun p => (p.1, p.2.1), ws.foldl (fun fl p => fl ||| p.2.2) 0)

/-- The groups of an MMA in turn: the landing writes and the flags. -/
def mmaGroups (c : FCtx) (r n : Nat) (codes : List Nat) : List Nat → Table Word → List (List (Nat × Word)) × Flags
  | [], _ => ([], 0)
  | g :: gs, acc =>
    match mmaGroup c acc r g (codes.getD ((16 * g - c.base) / n) 0) with
    | none => mmaGroups c r n codes gs acc
    | some (ws, fl) =>
      let y := mmaGroups c r n codes gs (ws.foldl (fun t p => tset t p.1 p.2) acc)
      (ws :: y.1, fl ||| y.2)

/-- An event of the slab's clocking, in place of an earlier one of its kind. -/
def Fabric.repost (f : Fabric) (i : Ev) : Fabric := { f with agenda := f.agenda.filter (· ≠ i) ++ [i] }

/-- Warmth and burst count after an MMA that computed groups or none (R177). -/
def mmaWarm (e : Element) (groups : Nat) : Element :=
  { e with
    mxSince := (e.mxWarm && e.mxSince) || decide (0 < groups)
    mxWarm := true
    mxWarming := false
    mxBurst := e.mxBurst - 1 }

/-- MMA (R172). -/
def mmaForm (c : FCtx) : Except Stop Res :=
  match c.slabStop true with
  | some st => .error st
  | none =>
    if c.base % 16 ≠ 0 ∨ c.len % 16 ≠ 0 ∨ 32 < c.base + c.len then c.format
    else
      match c.slotScales with
      | .error e => .error e
      | .ok (n, codes, rest) =>
        let r := if bit c.ctl 4 then c.img.f c.tag 1 % 16 else fld c.ctl 3 0
        let gs := (List.range 2).filter fun g => decide (c.base ≤ 16 * g) && decide (16 * g < c.base + c.len)
        let x := mmaGroups c r n codes gs (landAll c.elt).acc
        let k := x.1.length
        let f := (c.dropScales c.f rest).modEl c.el fun e => mmaWarm { e with landing := e.landing ++ x.1 } k
        let f := f.postAll (List.replicate k (.groupLanding c.el))
        let f := if (f.el c.el).mxBurst = 0 then f.repost (.slabCool c.el) else f.repost (.burstTimeout c.el)
        let v := (roundFV f32P .rne false 0 (intFV k 0)).bits
        .ok (Res.of f x.2 [c.scalar c.d true v, c.scalar c.e true v] none)

/-- SCALE (R174). -/
def scaleForm (c : FCtx) : Except Stop Res :=
  if c.ifmt.isMx then
    match c.takeScales with
    | .error e => .error e
    | .ok (n, codes, rest) => .ok (Res.of (c.dropScales c.f rest) 0 (c.withScales n codes) none)
  else c.emits (c.both c.valid c.avals)

/-- BURST (R177). -/
def burstForm (c : FCtx) : Except Stop Res :=
  match c.slabStop false with
  | some st => .error st
  | none =>
    let n := min (fld c.ctl 10 0) 1024
    let e := c.elt
    let f :=
      if n = 0 then
        if e.mxSince then (c.f.modEl c.el fun e => { e with mxBurst := 0, mxWarming := false }).repost (.slabCool c.el)
        else c.f.modEl c.el Element.slabCold
      else
        let start := !e.mxWarm && !e.mxWarming
        let f := c.f.modEl c.el fun e => { e with mxBurst := n, mxWarming := e.mxWarming || start }
        let f := if start then f.post (.warmupDone c.el) else f
        f.repost (.burstTimeout c.el)
    .ok (Res.of f 0 (c.both c.valid c.avals) none)

/-! ## ACC (R175) -/

/-- F0 of the result tag as far as issue knows it, v being the value on DSTA (R137): a credit pushes 0; the number that SPAWN will
push is judged at the grant (lateOver), so 0, the least, stands for it here. -/
def FCtx.resultF0 (c : FCtx) (v : DWord) : Nat :=
  match c.act with
  | 2 | 4 => 0
  | 6 => v.toNat % 2 ^ c.img.width (depth c.tag)
  | _ => c.img.f c.tagNow 0

/-- ACCRD (R175). -/
def accrdForm (c : FCtx) : Except Stop Res :=
  let n := fld c.ctl 12 8 + 1
  let e := landAll c.elt
  let at_ := fun k : Nat => (fld c.ctl 7 0 + k) % 256
  let r := runLanes (fun k sr => convLane .f32 c.ofmt c.img.b8mode c.cvtMode false ((tget 0 e.acc (at_ k)).setWidth 64) sr)
    (lanesMask n) (fun _ => 0) (List.range n) c.elt.srstate
  if c.passesF0 [c.d, c.e] (c.resultF0 (r.vals.headD 0)) n then c.format
  else
    let is := if bit c.ctl 15 then (List.range n).map at_ else []
    let f := c.f.modEl c.el fun e =>
      let e := { landAll e with srstate := r.sr }
      if c.granted then e else clearAcc e is
    let o := fun dst => { c.run dst (lanesMask n) r.vals with vec := true }
    .ok (Res.of f r.fl [o c.d, o c.e] (if c.granted then some { c.pend with args := is.map w64 } else none))

/-- ACCZ (R175). -/
def acczForm (c : FCtx) : Except Stop Res :=
  let n := fld c.ctl 15 8 + 1
  let f := c.f.modEl c.el fun e => clearAcc (landAll e) ((List.range n).map fun k => (fld c.ctl 7 0 + k) % 256)
  .ok (Res.of f 0 (c.both c.valid c.avals) none)

/-- MXMODE (R170). -/
def execMxmode (a b d e : BitVec 5) (t : BitVec 4) (s : State) : Host.Outcome State Fault Refusal :=
  fire 0x80 a b d e t mxmodeForm s
/-- WLOAD (R171). -/
def execWload (a b d e : BitVec 5) (t : BitVec 4) (s : State) : Host.Outcome State Fault Refusal :=
  fire 0x81 a b d e t wloadForm s
/-- MMA (R172). -/
def execMma (a b d e : BitVec 5) (t : BitVec 4) (s : State) : Host.Outcome State Fault Refusal :=
  fire 0x82 a b d e t mmaForm s
/-- ACCRD (R175). -/
def execAccrd (a b d e : BitVec 5) (t : BitVec 4) (s : State) : Host.Outcome State Fault Refusal :=
  fire 0x83 a b d e t accrdForm s
/-- ACCZ (R175). -/
def execAccz (a b d e : BitVec 5) (t : BitVec 4) (s : State) : Host.Outcome State Fault Refusal :=
  fire 0x84 a b d e t acczForm s
/-- SCALE (R174). -/
def execScale (a b d e : BitVec 5) (t : BitVec 4) (s : State) : Host.Outcome State Fault Refusal :=
  fire 0x85 a b d e t scaleForm s
/-- BURST (R177). -/
def execBurst (a b d e : BitVec 5) (t : BitVec 4) (s : State) : Host.Outcome State Fault Refusal :=
  fire 0x86 a b d e t burstForm s
/-- MXEXIT (R170). -/
def execMxexit (a b d e : BitVec 5) (t : BitVec 4) (s : State) : Host.Outcome State Fault Refusal :=
  fire 0x87 a b d e t mxexitForm s

end Sys2Proof.Machine
end

