-- ==== Sys2Proof/Machine/Select.lean ====
section
/-! DEFINITION. The selection forms 0x88 to 0x8C (R180-R187). -/

namespace Sys2Proof.Machine

/-- The selection state with HIST (R180, R181). -/
structure Sel where
  hist : Table Word
  desc : Bool
  short : Bool
  p : Nat
  k : Word
  pfx : DWord

def Element.sel (e : Element) : Sel :=
  ⟨e.hist, bit e.selctl 31, bit e.selctl 30, fld e.selctl 27 24, e.selk, e.selpfx⟩

def Element.setSel (e : Element) (x : Sel) : Element :=
  { e with hist := x.hist, selctl := w32 (x.desc.toNat * 2 ^ 31 + x.short.toNat * 2 ^ 30 + x.p % 16 * 2 ^ 24), selk := x.k, selpfx := x.pfx }

/-- The top P bytes of a key of w bits. -/
def topBytes (w p : Nat) (x : DWord) : Nat := if w < 8 * p then x.toNat else x.toNat / 2 ^ (w - 8 * p)
/-- The prefix: its P fixed bytes. -/
def Sel.prefixNum (x : Sel) : Nat := x.pfx.toNat % 2 ^ (8 * x.p)
/-- Does a key match the prefix? -/
def Sel.ties (x : Sel) (w : Nat) (key : DWord) : Bool := decide (topBytes w x.p key = x.prefixNum)
/-- Is a key better than the prefix (R181)? -/
def Sel.better (x : Sel) (w : Nat) (key : DWord) : Bool :=
  if x.desc then decide (x.prefixNum < topBytes w x.p key) else decide (topBytes w x.p key < x.prefixNum)

/-- HIST's reset (R182). -/
def Sel.restart (desc : Bool) : Sel := ⟨[], desc, false, 0, 0, 0⟩

/-- The keys that match the prefix binned by their next byte (R182): the state and how many. -/
def Sel.bin (x : Sel) (w : Nat) : List DWord → Sel × Nat
  | [] => (x, 0)
  | key :: r =>
    if x.ties w key then
      let d := key.toNat / 2 ^ (w - 8 - 8 * x.p) % 256
      let y := Sel.bin { x with hist := tset x.hist d (satAdd (tget 0 x.hist d) 1) } w r
      (y.1, y.2 + 1)
    else Sel.bin x w r

/-- The sum of the counters. -/
def Sel.total (x : Sel) : Nat := ((List.range 256).map fun i => (tget 0 x.hist i).toNat).sum

/-- The first bucket at which the counts reach k: bucket and the count before it. -/
def findBucket (hist : Table Word) (k : Nat) : List Nat → Nat → Nat × Nat
  | [], c => (0, c)
  | i :: r, c => let n := (tget 0 hist i).toNat; if k ≤ c + n then (i, c) else findBucket hist k r (c + n)

/-- A count as a 32-bit value: the spec states none beyond 32 bits (log 12). -/
def count32 (n : Nat) : Word := if n < 2 ^ 32 then w32 n else Config.beyond32 n

/-- HSCAN for a rank of 1 or more (R183): the state and its two results. -/
def Sel.scan (x : Sel) (k : Nat) : Sel × Word × Word :=
  let T := x.total
  if T < k then ({ x with short := true, k := count32 T, hist := [] }, count32 T, 0xFFFFFFFF)
  else
    let r := findBucket x.hist k (if x.desc then (List.range 256).reverse else List.range 256) 0
    ({ x with pfx := w64 (x.pfx.toNat * 256 + r.1), p := x.p + 1, k := w32 (k - r.2), hist := [] }, w32 (k - r.2), w32 r.1)

/-- RSEL over lanes in turn (R184): the state and which lanes are kept; an invalid lane is none. A tie takes one of SELK while it is
positive, under SHORT too. -/
def Sel.keep (x : Sel) (w : Nat) : List (Option DWord) → Sel × List Bool
  | [] => (x, [])
  | none :: r => let y := Sel.keep x w r; (y.1, false :: y.2)
  | some key :: r =>
    if x.better w key then let y := Sel.keep x w r; (y.1, true :: y.2)
    else if x.ties w key && decide (x.k ≠ 0) then let y := Sel.keep { x with k := x.k - 1 } w r; (y.1, true :: y.2)
    else if x.ties w key && x.short then let y := Sel.keep x w r; (y.1, true :: y.2)
    else let y := Sel.keep x w r; (y.1, false :: y.2)

/-- The lanes of a, none where V is clear. -/
def FCtx.keys (c : FCtx) : List (Option DWord) := c.lanes.map fun k => if c.on k then some (c.va k) else none

/-- A word of bits. -/
def boolsWord (l : List Bool) : BitVec 32 := BitVec.ofNat 32 ((l.zipIdx).foldl (fun n p => if p.1 then n + 2 ^ p.2 else n) 0)

/-- HIST (R182). -/
def histForm (c : FCtx) : Except Stop Res :=
  let x := if bit (c.vb 0) 0 then Sel.restart (bit (c.vb 0) 1) else c.elt.sel
  if c.w / 8 ≤ x.p then c.format
  else
    let r := x.bin c.w (c.keys.filterMap id)
    .ok (Res.of (c.f.modEl c.el fun e => e.setSel r.1) 0 [c.scalar c.d true (w64 r.2), c.scalar c.e true (w64 r.2)] none)

/-- HSCAN (R183). -/
def hscanForm (c : FCtx) : Except Stop Res :=
  let k := (c.va 0).toNat
  if c.vec ∨ k = 0 then c.format
  else
    let r := c.elt.sel.scan k
    .ok (Res.of (c.f.modEl c.el fun e => e.setSel r.1) 0 [c.scalar c.d true (r.2.1.setWidth 64), c.scalar c.e true (r.2.2.setWidth 64)] none)

/-- RSEL (R184). -/
def rselForm (c : FCtx) : Except Stop Res :=
  let x := c.elt.sel
  if c.w / 8 < x.p ∨ (!x.short ∧ x.p ≠ c.w / 8) then c.format
  else
    let r := x.keep c.w c.keys
    .ok (Res.of (c.f.modEl c.el fun e => e.setSel r.1) 0 (c.both (boolsWord r.2) c.avals) none)

/-! ## Selection lists (R185-R187) -/

/-- An entry of a list: index and key. -/
abbrev Entry := Nat × Nat

/-- Does x stand before y: larger key, then lower index? -/
def entryBefore (x y : Entry) : Bool := decide (y.2 < x.2) || (decide (x.2 = y.2) && decide (x.1 ≤ y.1))

/-- An entry put into its place. -/
def insertEntry (x : Entry) : List Entry → List Entry
  | [] => [x]
  | y :: r => if entryBefore x y then x :: y :: r else y :: insertEntry x r

/-- A list in order. -/
def sortEntries (l : List Entry) : List Entry := l.foldr insertEntry []

/-- The lanes of a list of m places: entries, then sentinels. -/
def listLanes (m : Nat) (l : List Entry) : List DWord :=
  (l.take m).flatMap (fun x => [w64 x.1, w64 x.2]) ++ (List.replicate (m - l.length) [(0xFFFFFFFF : DWord), 0]).flatten

/-- A selection list to one destination and its count to the other. -/
def FCtx.listOuts (c : FCtx) (m : Nat) (l : List Entry) : List Out :=
  let n := min m l.length
  [{ c.run c.d (lanesMask (2 * n)) (listLanes m l) with vec := true, f0 := some 0 }, c.scalar c.e true (w64 n)]

/-- TOPK's passes: HSCAN, and HIST after every HSCAN but the last (R186). -/
def Sel.passes (w : Nat) (keys : List DWord) : Nat → Nat → Sel → Sel
  | 0, _, x => x
  | n + 1, k, x =>
    let r := x.scan k
    if r.1.short then r.1
    else if n = 0 then r.1
    else Sel.passes w keys n r.2.1.toNat (r.1.bin w keys).1

/-- TOPK (R186): its list of 2k lanes from base 0, which goes to DSTA, is checked under R27. -/
def topkForm (c : FCtx) : Except Stop Res :=
  let k := (c.vb 0).toNat
  if k < 1 ∨ (if c.w = 32 then 16 else 8) < k ∨ c.passesF0 [c.d] 0 (2 * k) then c.format
  else
    let keys := c.keys.filterMap id
    let x := Sel.passes c.w keys (c.w / 8) k ((Sel.restart true).bin c.w keys).1
    let r := x.keep c.w c.keys
    let kept := (c.lanes.zip r.2).filter (·.2)
    let l := sortEntries (kept.map fun p => (c.base + p.1, (c.va p.1).toNat))
    .ok (Res.of (c.f.modEl c.el fun e => e.setSel r.1) 0 (c.listOuts k l) none)

/-- The valid entries of a side (R185). -/
def FCtx.entries (c : FCtx) (sel : Nat) : List Entry :=
  ((List.range (c.len / 2)).filter fun i => c.sideValid sel (2 * i) && c.sideValid sel (2 * i + 1)).map fun i =>
    (((c.src sel (2 * i)).1).toNat, ((c.src sel (2 * i + 1)).1).toNat)

/-- Entries without later copies of an index; a copy with another key is answered with its index (R187). -/
def dedupe : List Entry → List Entry → Except Nat (List Entry)
  | acc, [] => .ok acc
  | acc, x :: r =>
    match acc.find? fun y => y.1 = x.1 with
    | some y => if y.2 = x.2 then dedupe acc r else .error x.1
    | none => dedupe (acc ++ [x]) r

/-- MERGEK (R187): its list is a run from base 0, checked under R27. -/
def mergekForm (c : FCtx) : Except Stop Res :=
  let E := c.entries 0 ++ c.entries 1
  if !c.vec ∨ c.len % 2 ≠ 0 ∨ c.passesF0 [c.d] 0 c.len then c.format
  else if E.any fun x => x.1 = 0xFFFFFFFF then .error (.trap .data 0xFFFFFFFF)
  else
    match dedupe [] E with
    | .error i => .error (.trap .data (w32 i))
    | .ok l => c.emits (c.listOuts (c.len / 2) (sortEntries l))

/-- HIST (R182). -/
def execHist (a b d e : BitVec 5) (t : BitVec 4) (s : State) : Host.Outcome State Fault Refusal :=
  fire 0x88 a b d e t histForm s
/-- HSCAN (R183). -/
def execHscan (a b d e : BitVec 5) (t : BitVec 4) (s : State) : Host.Outcome State Fault Refusal :=
  fire 0x89 a b d e t hscanForm s
/-- RSEL (R184). -/
def execRsel (a b d e : BitVec 5) (t : BitVec 4) (s : State) : Host.Outcome State Fault Refusal :=
  fire 0x8A a b d e t rselForm s
/-- MERGEK (R187). -/
def execMergek (d e : BitVec 5) (t : BitVec 4) (s : State) : Host.Outcome State Fault Refusal :=
  fire 0x8B 0 1 d e t mergekForm s
/-- TOPK (R186). -/
def execTopk (a b d e : BitVec 5) (t : BitVec 4) (s : State) : Host.Outcome State Fault Refusal :=
  fire 0x8C a b d e t topkForm s

end Sys2Proof.Machine
end

