-- ==== Sys2Proof/Machine/Memory.lean ====
section
/-! DEFINITION. Element memory with its windows (R189-R198), address generators (R199, R200), requests on their way (R201-R207,
R368), and the memory forms 0x90 to 0xA4 (R209-R227). An access to element memory takes effect at issue (log 7); any other
leaves as a request and completes with its answer. -/

namespace Sys2Proof.Machine

/-! ## Windows (R192-R196) -/

def winRole (w : Word) : Nat := fld w 31 29
def winBase (w : Word) : Nat := fld w 28 22 * 4096
/-- Z, the window's length in bytes. -/
def winLen (w : Word) : Nat := (fld w 21 15 + 1) * 4096
/-- B and BS of an OSTORE window (R193). -/
def winBufs (w : Word) : Nat := fld w 14 11 + 1
def winBufLen (w : Word) : Nat := (winLen w - 64) / winBufs w / 8 * 8
/-- C of a FIFO window (R194). -/
def fifoWords (w : Word) : Nat := (winLen w - 64) / 8
/-- RB and N of a LINE window (R195). -/
def lineRow (w : Word) : Nat := 8 * (fld w 10 0 + 1)
def lineRows (w : Word) : Nat := (winLen w - 64) / lineRow w
/-- D of an ISTR window (R196). -/
def istrWords (w : Word) : Nat := 64 * fld w 10 0
/-- Offset of an ISTR window's data words, and of its reader records. -/
def istrData (w : Word) : Nat := 64 + istrWords w / 8
def istrRecs (w : Word) : Nat := 64 + 9 * istrWords w / 8

/-- The window that holds an address, with its number. -/
def Element.windowAt (e : Element) (a : Nat) : Option (Nat × Word) :=
  e.wins.find? fun p => decide (winRole p.2 ≠ 0) && decide (winBase p.2 ≤ a) && decide (a < winBase p.2 + winLen p.2)

/-- What an element address names. -/
inductive Site where
  /-- bytes of memory -/
  | bytes (a : Nat)
  /-- a header word of a window: role, window start, word number -/
  | header (w : Word) (h : Nat)
  /-- a byte of OSTORE buffer i, and whether it is full -/
  | buf (full : Bool) (a : Nat)
  /-- word i of an ISTR window -/
  | istr (w : Word) (i : Nat)
  /-- a LINE row out of range -/
  | noRow
  deriving DecidableEq, Repr

/-- The site of an element address. -/
def Element.site (e : Element) (a : Nat) : Site :=
  match e.windowAt a with
  | none => .bytes a
  | some (_, w) =>
    let o := a - winBase w
    if winRole w = 5 then .bytes a
    else if o < 64 then .header w (o / 8)
    else match winRole w with
      | 1 =>
        let i := (o - 64) / max 8 (winBufLen w)
        if i < winBufs w then .buf (bit (e.mem.word (winBase w)) i) a else .bytes a
      | 3 =>
        let q := (o - 64) / lineRow w
        if lineRows w ≤ q then .noRow
        else .bytes (winBase w + 64 + ((e.mem.word (winBase w)).toNat + q) % lineRows w * lineRow w + (o - 64) % lineRow w)
      | 6 => if istrData w ≤ o ∧ o < istrData w + 8 * istrWords w then .istr w ((o - istrData w) / 8) else .bytes a
      | _ => .bytes a

/-- The 8-byte word that a store to an address reaches (R191-R195). -/
def Element.storedWord (e : Element) (a : Nat) : DWord :=
  match e.site a with
  | .bytes b => e.mem.word b
  | .buf _ b => e.mem.word b
  | _ => e.mem.word a

/-- Is word i of an ISTR window full? -/
def Element.istrFull (e : Element) (w : Word) (i : Nat) : Bool := bit (e.mem.read (winBase w + 64 + i / 8)) (i % 8)
/-- The presence bit of word i written. -/
def Element.setFull (e : Element) (w : Word) (i : Nat) (v : Bool) : Element :=
  let a := winBase w + 64 + i / 8
  e.putByte a (setFld (e.mem.read a) (i % 8) (i % 8) v.toNat)
/-- The address of word i of an ISTR window. -/
def istrAddr (w : Word) (i : Nat) : Nat := winBase w + istrData w + 8 * i
/-- The address of reader record r. -/
def recAddr (w : Word) (r : Nat) : Nat := winBase w + istrRecs w + 16 * r

/-- How a memory side serves an access: done with a value and the answers owed to deferred readers, deferred, a wait, or
a trap. -/
inductive Served where
  | done (e : Element) (val : Nat) (ans : List Ans)
  | deferred (e : Element)
  | park (r : ParkReason)
  | trap (c : Cause) (info : Word)

/-- An access that took effect without a value. -/
def served (e : Element) : Served := .done e 0 []

/-- Sets parked for a reason are examined again at an element. -/
def Element.wakeReason (e : Element) (r : ParkReason) : Element := e.wake fun x => x.reason == r

/-- A load of an empty word becomes its last reader, in a record from the free list (R196, R197). `rec` is the record's first
word and its second word but for the link. -/
def Element.defer (e : Element) (w : Word) (i : Nat) (rec : DWord × DWord) (q : Req) : Served :=
  let h0 := winBase w
  let r := (e.mem.word h0).toNat
  if (e.mem.word (h0 + 8)).toNat ≤ r then .park .defer
  else
    let a := recAddr w r
    let nextFree := fld (e.mem.word (a + 8)) 63 48
    let word := e.mem.word (istrAddr w i)
    let first := fld word 31 16
    let last := fld word 15 0
    let e := (e.putWord h0 (w64 nextFree)).putWords a [rec.1, setFld rec.2 63 48 0xFFFF]
    let e := if first = 0xFFFF then e else let b := recAddr w last + 8; e.putWord b (setFld (e.mem.word b) 63 48 r)
    let e := e.putWord (istrAddr w i) (setFld (setFld word 31 16 (if first = 0xFFFF then r else first)) 15 0 r)
    .deferred { e with defers := e.defers ++ [⟨istrAddr w i, r, q⟩] }

/-- The answer of a deferred reader from the full 8-byte word. -/
def deferredAns (v : Nat) (d : Deferred) : Ans :=
  ⟨d.q.el, d.q.id, d.q.lane, w64 (v / 2 ^ (8 * (d.q.addr % 8)) % 2 ^ (8 * d.q.bytes)), true, false, 0⟩

/-- An empty word becomes full with a value; its readers are answered in order and their records freed, and sets that wait for the word or
for a record look again (R197, R198, R223). -/
def Element.fill (e : Element) (w : Word) (i : Nat) (v : Nat) : Served :=
  let a := istrAddr w i
  let rs := e.defers.filter fun d => d.addr = a
  let e := rs.foldl (fun (e : Element) d =>
    let b := recAddr w d.rcd + 8
    (e.putWord b (setFld (e.mem.word b) 63 48 (e.mem.word (winBase w)).toNat)).putWord (winBase w) (w64 d.rcd)) e
  let e := ({ e.putWord a (w64 v) with defers := e.defers.filter fun d => d.addr ≠ a } : Element).setFull w i true
  .done (e.wakeReason .defer) 0 (rs.map (deferredAns v))

/-- A push of words into a FIFO window (R194). -/
def Element.push (e : Element) (w : Word) (slot : Nat) (vs : List Nat) : Served :=
  let C := fifoWords w
  let h0 := (e.mem.word (winBase w)).toNat
  let h1 := (e.mem.word (winBase w + 8)).toNat
  if C < vs.length then .trap .format (w32 slot)
  else if C < vs.length + (h1 - h0) then .park .fifo
  else
    let e := (vs.zipIdx).foldl (fun (e : Element) p => e.putWord (winBase w + 64 + 8 * ((h1 + p.2) % C)) (w64 p.1)) e
    served ((e.putWord (winBase w + 8) (w64 (h1 + vs.length))).wakeReason .fifo)

/-- A pop of a FIFO window (R194): the word. -/
def Element.pop (e : Element) (w : Word) : Served :=
  let h0 := (e.mem.word (winBase w)).toNat
  let h1 := (e.mem.word (winBase w + 8)).toNat
  if h1 = h0 then .park .fifo
  else
    let v := (e.mem.word (winBase w + 64 + 8 * (h0 % fifoWords w))).toNat
    .done ((e.putWord (winBase w) (w64 (h0 + 1))).wakeReason .fifo) v []

/-- Does an atomic write its word: a compare that fails leaves it unwritten (R228)? -/
def atomicWrites (op : Byte) (f : Fmt) (old c : DWord) : Bool := decide (op.toNat % 8 ≠ 7) || decide (trunc f.width old = trunc f.width c)

/-- A store to a header word (R192-R196, R264). What a count or a FULL bit held back looks again. -/
def Element.putHeader (e : Element) (w : Word) (h slot : Nat) (a n v : Nat) : Served :=
  let plainPut := fun (r : ParkReason) => served ((e.putN a v n).wakeReason r)
  match winRole w, h with
  | 1, 0 => let e := e.putN a v n; served ((e.putWord (winBase w) (w64 ((e.mem.word (winBase w)).toNat % 2 ^ winBufs w))).wakeReason .buf)
  | 1, 1 =>
    if v % 16 < winBufs w then served ((e.putWord (winBase w) (setFld (e.mem.word (winBase w)) (v % 16) (v % 16) 1)).wakeReason .buf) else served e
  | 1, 2 =>
    if v % 16 < winBufs w then served ((e.putWord (winBase w) (setFld (e.mem.word (winBase w)) (v % 16) (v % 16) 0)).wakeReason .buf) else served e
  | 2, 0 => plainPut .fifo
  | 2, 1 => plainPut .fifo
  | 2, 2 => e.push w slot [v]
  | 3, 0 => served (e.putN a v n)
  | 3, 1 => served (e.putWord (winBase w) (w64 (((e.mem.word (winBase w)).toNat + v) % lineRows w)))
  | 6, 0 => plainPut .defer
  | 6, 1 => plainPut .defer
  | _, _ => served e

/-- New word of an atomic (R228). -/
def atomicNew (op : Byte) (f : Fmt) (old a c : DWord) : DWord :=
  let isInt := f ≠ .f32
  match op.toNat % 8 with
  | 0 =>
    if isInt then keepBits f.width (readInt f old + readInt f a)
    else (finishFR f32P .rne 0 (addFV .rne (fread f32P old) (fread f32P a))).bits
  | 1 => if isInt then (if readInt f a < readInt f old then a else old) else (minmaxF f32P false old a).1
  | 2 => if isInt then (if readInt f old < readInt f a then a else old) else (minmaxF f32P true old a).1
  | 3 => old &&& a
  | 4 => old ||| a
  | 5 => old ^^^ a
  | 6 => a
  | _ => if trunc f.width old = trunc f.width c then a else old

/-- An atomic on n bytes of plain memory: its old value, and the word written where the operation writes. -/
def Element.rmwAt (e : Element) (op : Byte) (f : Fmt) (q : Req) : Served :=
  let old := w64 (e.mem.readN q.addr q.bytes)
  .done (if atomicWrites op f old q.cmp then e.putN q.addr (atomicNew op f old q.data q.cmp).toNat q.bytes else e) old.toNat []

/-- ONE ACCESS AT AN ELEMENT'S MEMORY SIDE (R189-R197, R221, R229): the request's address is an element address. -/
def Element.serve (e : Element) (rec : DWord × DWord) (slot : Nat) (q : Req) : Served :=
  let a := q.addr
  let n := q.bytes
  let align := Served.trap .align (w32 a)
  let access := Served.trap .access (w32 a)
  if a % n ≠ 0 ∨ Config.elemBytes < a + n then align
  else match q.op with
  | .pref => served e
  | .load =>
    match e.site a with
    | .bytes b => .done e (e.mem.readN b n) []
    | .header w h =>
      if winRole w = 2 ∧ h = 3 then
        match e.pop w with
        | .done e v _ => .done e (v / 2 ^ (8 * (a % 8)) % 2 ^ (8 * n)) []
        | x => x
      else .done e (e.mem.readN a n) []
    | .buf full b => if full then .done e (e.mem.readN b n) [] else .park .buf
    | .istr w i => if e.istrFull w i then .done e (e.mem.readN a n) [] else e.defer w i rec q
    | .noRow => align
  | .store =>
    match e.site a with
    | .bytes b => served (e.putN b q.data.toNat n)
    | .header w h => e.putHeader w h slot a n (q.data.toNat % 2 ^ (8 * n))
    | .buf full b => if full then .park .buf else served (e.putN b q.data.toNat n)
    | .istr w i =>
      if e.istrFull w i then .trap .writeOnce (w32 a)
      else e.fill w i (q.data.toNat % 2 ^ (8 * n) * 2 ^ (8 * (a % 8)))
    | .noRow => align
  | .feset =>
    match e.site a with
    | .istr w i =>
      if e.istrFull w i then served e else e.fill w i (e.mem.word (istrAddr w i)).toNat
    | _ => access
  | .feclr =>
    match e.site a with
    | .istr w i =>
      if e.istrFull w i then
        let e := e.setFull w i false
        served (e.putWord (istrAddr w i) (setFld (e.mem.word (istrAddr w i)) 31 0 0xFFFFFFFF))
      else served e
    | _ => access
  | .atomic op f =>
    match e.windowAt a with
    | some (_, w) =>
      if winRole w ≠ 4 ∧ winRole w ≠ 5 then access
      else if winRole w = 4 ∧ a - winBase w < 64 then .done e (e.mem.readN a n) []
      else e.rmwAt op f q
    | none => e.rmwAt op f q

/-- The element of a served access replaced. -/
def Served.onEl (g : Element → Element) : Served → Served
  | .done e v ans => .done (g e) v ans
  | .deferred e => .deferred (g e)
  | x => x

/-- An access that acts as a plain one whatever the windows are (R204). -/
def Element.servePlain (e : Element) (slot : Nat) (q : Req) : Served :=
  Served.onEl (fun x => { x with wins := e.wins }) (({ e with wins := [] } : Element).serve (0, 0) slot q)

/-- The stop of an access that neither took effect nor was deferred. -/
def Served.stop : Served → Option Stop
  | .park r => some (.park r 0)
  | .trap c i => some (.trap c i)
  | _ => none

/-- Accesses of one firing in lane order: the values by lane, none where a load was deferred, and the answers owed. -/
def serveAll (rec : DWord × DWord) (slot : Nat) : Element → List Req → Except Stop (Element × List (Nat × Option DWord) × List Ans)
  | e, [] => .ok (e, [], [])
  | e, q :: r =>
    match e.serve rec slot q with
    | .done e v ans => (serveAll rec slot e r).map fun x => (x.1, (q.lane, some (w64 v)) :: x.2.1, ans ++ x.2.2)
    | .deferred e => (serveAll rec slot e r).map fun x => (x.1, (q.lane, none) :: x.2.1, x.2.2)
    | .park p => .error (.park p 0)
    | .trap c i => .error (.trap c i)

/-- The lowest full guarded word that a list of stores names (R197). -/
def fullTarget (e : Element) (qs : List Req) : Option Nat :=
  let hits := (qs.filter fun q => match q.op, e.site q.addr with | .store, .istr w i => e.istrFull w i | _, _ => false).map (·.addr)
  match hits with
  | [] => none
  | x :: r => some (r.foldl min x)

/-- A store to a guarded word as a store of the whole word: its bytes in their place, the others zero. -/
def Req.whole (q : Req) : Req :=
  { q with addr := 8 * (q.addr / 8), bytes := 8, data := w64 (q.data.toNat % 2 ^ (8 * q.bytes) * 2 ^ (8 * (q.addr % 8))) }

/-- Stores of one firing that meet in a guarded word make one store of it (R197: an access acts on each word). -/
def joinWords (guarded : Nat → Bool) : List Req → List Req
  | [] => []
  | q :: r =>
    let r := joinWords guarded r
    if q.op = .store ∧ guarded q.addr = true then
      match r with
      | x :: s => if x.op = .store ∧ x.addr = 8 * (q.addr / 8) then { x with data := x.data ||| (Req.whole q).data } :: s else Req.whole q :: r
      | [] => [Req.whole q]
    else q :: r

/-- Does an address lie in a presence-guarded word of an element? -/
def Element.guarded (e : Element) (a : Nat) : Bool := match e.site a with | .istr _ _ => true | _ => false

/-- The accesses of one run at a memory side: a run stored from a FIFO window's push word on pushes whole (R194), and a store
of several guarded words checks every word first (R197). -/
def serveRun (rec : DWord × DWord) (slot : Nat) (runPush : Bool) (e : Element) (qs : List Req) (lane0 : Nat) :
    Except Stop (Element × List (Nat × Option DWord) × List Ans) :=
  match fullTarget e qs with
  | some a => .error (.trap .writeOnce (w32 a))
  | none =>
    match runPush, e.site lane0 with
    | true, .header w 2 =>
      if winRole w = 2 then
        match e.push w slot (qs.map fun q => q.data.toNat % 2 ^ (8 * q.bytes)) with
        | .done e _ _ => .ok (e, [], [])
        | x => .error (x.stop.getD (.park .fifo 0))
      else serveAll rec slot e qs
    | _, _ => serveAll rec slot e (joinWords e.guarded qs)

/-! ## Records of memory firings -/

/-- The reader record of a load that may be deferred (R196): its firing tag, and where its value goes. -/
def readerRec (img : Image) (p : Pend) : DWord × DWord :=
  let d := if p.d ≤ 0x0F then img.dest p.d else 0
  (p.set.tag, w64 (fld d 27 12 * 2 ^ 32 + fld d 9 5 * 2 ^ 27 + fld d 4 4 * 2 ^ 26 + fld d 11 10 * 2 ^ 24 + p.fout * 2 ^ 20))

/-- Is an opcode a load that delivers a value run to DSTA? -/
def isLoadOp (op : Nat) : Bool := inRanges op [(0x90, 0x90), (0x92, 0x92), (0x95, 0x95), (0x99, 0x99), (0x9C, 0x9C), (0x9E, 0x9E)]
/-- An indirect stream, a gather, an ordered stream. -/
def isIndirect (op : Nat) : Bool := inRanges op [(0xA0, 0xA1), (0xA3, 0xA4)]
def isGather (op : Nat) : Bool := decide (op = 0xA0) || decide (op = 0xA3)
def isOrdered (op : Nat) : Bool := decide (op = 0xA3) || decide (op = 0xA4)
/-- An MX slot's load or store (R223): `fin` is the slot's format. -/
def Pend.isMx (p : Pend) : Bool := decide (p.fin = 12 ∨ p.fin = 13) && decide (p.op = 0x90 ∨ p.op = 0x91 ∨ p.op = 0x9C ∨ p.op = 0x9D)

/-- Does a firing still owe flags to EL.AFLAGS: a load in an MX format, whose conversion sets them once its words have come (R92)? -/
def Pend.owesFlags (p : Pend) : Bool := p.isMx && decide (p.op = 0x90 ∨ p.op = 0x9C) && decide (p.left ≠ 0) && !p.dead

/-- A value token of a record. -/
def Pend.value (p : Pend) (dst : Nat) (vec : Bool) (valid : BitVec 32) (vals : List DWord) : Out :=
  ⟨dst, p.fout, vec, valid, vals.map (trunc (codeWidth p.fout)), false, 0, none, false, false, none⟩

/-- The tokens of a memory form at its completion (R211, R213, R214, R223-R225, R228). -/
def memOuts (p : Pend) : List Out :=
  let ord := fun dst => ordTok dst p.fout p.fail p.cause
  if isLoadOp p.op then
    let vals := (p.vals.zipIdx).map fun x => if bit p.valid x.2 then x.1 else 0
    let scales : List Out := if p.isMx then
        (p.args.zipIdx).map fun x => ⟨p.d, p.fout, p.vec, 0, [], false, 0, some (p.base + p.cnt * x.2), false, false, some (mkScale (decide (p.fin = 13)) p.cnt x.1.toNat)⟩
      else []
    p.value p.d p.vec p.valid vals :: scales ++ [ord p.e]
  else if p.op = 0xA3 then [p.value p.d true p.valid ((p.vals.zipIdx).map fun x => if bit p.valid x.2 then x.1 else 0), ord p.e]
  else if p.op = 0xA0 then [ord p.e]
  else if p.op = 0xA2 then [p.value p.d false 1 [p.args.getD 0 0], ord p.e]
  else if isAtomicOp p.op then [p.value p.d false p.valid [if bit p.valid 0 then p.vals.getD 0 0 else 0], ord p.e]
  else [ord p.d, ord p.e]

/-- What became of a memory form's accesses: all done, some awaited, or a stop with nothing changed. -/
inductive Perf where
  | done (f : Fabric) (p : Pend) (fl : Flags)
  | wait (f : Fabric) (p : Pend)
  | stop (s : Stop)

/-- A request of a record's firing. -/
def Fabric.mkReq (f : Fabric) (el : Nat) (p : Pend) (lane : Nat) (op : ReqOp) (bytes addr : Nat) (data cmp : DWord) : Req :=
  { el := el, id := p.id, lane := lane, ctx := p.set.ctx, part := f.partOf el, priv := p.priv,
    ukind := if isFatik el then 1 else 0, op := op, bytes := bytes, addr := addr, data := data, cmp := cmp, oid := 64 * p.id + lane, pred := none,
    eng := isIndirect p.op || decide (p.op = 0xA2), fe := false }

/-- The valid lanes of a record. -/
def Pend.onLanes (p : Pend) : List Nat := (List.range (max p.args.length p.vals.length)).filter fun k => bit p.valid k
/-- The access width of a record in bytes. -/
def Pend.bytes (p : Pend) : Nat := codeWidth p.fin / 8

/-- Values filled in by lane. -/
def fillVals (vals : List DWord) (xs : List (Nat × Option DWord)) : List DWord :=
  xs.foldl (fun v x => match x.2 with | some y => v.set x.1 y | none => v) vals

/-! ## Requests by virtual address (R204-R207, R359, R368, R452) -/

/-- The table region of a partition's sequencer: its offset and length, where valid (R354). -/
def Fabric.tableRegion (f : Fabric) (part : Nat) : Option (Nat × Nat) :=
  (f.sequencer part).bind fun sd =>
    let w := f.bd sd 0
    if bit w 0 then some (fld w 36 21 * 2 ^ 21, (fld w 20 8 + 1) * 2 ^ 21) else none

/-- The package that an address names; none for a local one (R205). -/
def podPkg (f : Fabric) (a : Nat) : Option Nat :=
  if a / 2 ^ 56 % 2 = 1 ∧ a / 2 ^ 46 % 1024 ≠ f.pkg then some (a / 2 ^ 46 % 1024) else none

/-- The faults of a virtual address found at the issuing element, before anything is sent (R204, R205, R207, R359, R452). -/
def Fabric.vaStop (f : Fabric) (el priv : Nat) (op : ReqOp) (wide : Bool) (n a : Nat) : Option Stop :=
  let part := f.partOf el
  let o := a % 2 ^ 46
  let sp := o / 2 ^ 40
  let access := some (Stop.trap .access (w32 a))
  let plainOp := decide (op = .load) || decide (op = .store)
  if 2 ^ 57 ≤ a ∨ (a / 2 ^ 56 = 0 ∧ a / 2 ^ 46 ≠ 0) then some (.trap .page (pageInfo 3 o))
  else if (podPkg f a).isSome then
    if sp = 0x3E then access else if a % n ≠ 0 then some (.trap .align (w32 a)) else none
  else if sp = 0x3E then
    match f.sequencer part with
    | none => some (.trap .page (pageInfo 0 o))
    | some _ =>
      match f.tableRegion part with
      | none => access
      | some (_, len) => if !plainOp || !wide || priv = 0 || o % 8 ≠ 0 || decide (len ≤ o % 2 ^ 40) then access else none
  else if sp = 0x3D then
    if !plainOp || !wide || priv ≠ 2 || o % 8 ≠ 0 || decide (0x80 ≤ o % 2 ^ 40) then access else none
  else if a % n ≠ 0 then some (.trap .align (w32 a))
  else if sp = 0x3F then (if (f.stripeAt el (o % 2 ^ 40)).isNone then access else none)
  else if (f.home part a).isNone then some (.trap .page (pageInfo 0 o))
  else none

/-- The scale-out port that traffic of a partition to a package takes (R446). -/
def Fabric.peerPort (f : Fabric) (part d : Nat) : Option Nat :=
  let ps := (List.range 16).filter fun n => tget 0 f.portPart n = part
  let i := (f.pkg ^^^ d) % max 1 ps.length
  (ps.drop i ++ ps.take i).find? fun n => !(f.portAt n).dead

/-- MREQ's operation code (R425). -/
def reqOpc : ReqOp → Nat
  | .load => 0 | .store => 1 | .atomic _ _ => 2 | .feset => 3 | .feclr => 4 | .pref => 5

/-- The flits of a request (R423, R425): header and request, then write data with an atomic's format code above them, then the
compared value (log 14). -/
def reqFlits (tag : DWord) (apl : Nat) (q : Req) : List (BitVec 256) :=
  let flits := match q.op with | .atomic _ _ => 3 | .store => 2 | _ => 1
  let aop := match q.op with | .atomic o _ => o.toNat | _ => 0
  BitVec.ofNat 256 (2 * 2 ^ 253 + (flits - 1) * 2 ^ 248 + reqOpc q.op * 2 ^ 240 + q.part * 2 ^ 236 + q.priv * 2 ^ 234 + q.ukind * 2 ^ 232
      + tag.toNat * 2 ^ 160 + q.el % 65536 * 2 ^ 144 + apl % 32 * 2 ^ 139 + Nat.log2 q.bytes * 2 ^ 136 + q.oid % 65536 * 2 ^ 120
      + (match q.pred with | some p => p % 65536 | none => 0xFFFF) * 2 ^ 104 + aop * 2 ^ 96 + q.addr % 2 ^ 57)
    :: [BitVec.ofNat 256 (q.data.toNat + (match q.op with | .atomic _ x => x.code * 2 ^ 64 | _ => 0)), q.cmp.setWidth 256].take (flits - 1)

/-- A frame leaves through a port and waits for its acknowledgment (R445, R446). -/
def Fabric.sendFrame (f : Fabric) (port dpkg part cls : Nat) (flits : List (BitVec 256)) : Fabric :=
  f.modPair port dpkg fun o =>
    { o with seq := o.seq + 1, told := o.rx - 1, unacked := o.unacked ++ [⟨dpkg, f.pkg, part, cls, o.seq, o.rx - 1, flits⟩] }

/-- An answer's flits (R423, R425): header, the issuer's element and order id where its request had them, FAIL and cause,
then data (log 14). -/
def rspFlits (opc part el oid : Nat) (fail : Bool) (cause : BitVec 2) (data : List DWord) : List (BitVec 256) :=
  let more := (data.length + 3) / 4
  BitVec.ofNat 256 (3 * 2 ^ 253 + more * 2 ^ 248 + opc * 2 ^ 240 + part * 2 ^ 236 + (fail.toNat + 2 * cause.toNat) * 2 ^ 221
      + el % 65536 * 2 ^ 144 + oid % 65536 * 2 ^ 120)
    :: (List.range more).map fun i =>
      BitVec.ofNat 256 ((List.range 4).foldl (fun n j => n + (data.getD (4 * i + j) 0).toNat * 2 ^ (64 * j)) 0)

/-- An answer leaves for the package that asked; with no live port it is lost with its link (R446). -/
def Fabric.answerPeer (f : Fabric) (d part : Nat) (flits : List (BitVec 256)) : Fabric :=
  match f.peerPort part d with
  | some n => f.sendFrame n d part 3 flits
  | none => f

/-- The answer of a request that a dead link loses (R215, R368, R422): a store or PREF completes, anything else raises DATA. -/
def Fabric.deadAnswer (f : Fabric) (q : Req) : Fabric :=
  match (if q.eng then .load else q.op) with
  | .store | .feset | .feclr => f.post (.memoryAnswer ⟨q.el, q.id, q.lane, 0, true, true, 2⟩)
  | .pref => f.post (.memoryAnswer ⟨q.el, q.id, q.lane, 0, true, false, 0⟩)
  | _ => f.post (.faultAnswer q .data (pageInfo 0 (q.addr % 2 ^ 46)))

/-- An access to the signer aperture (R452). -/
def Fabric.signerAccess (f : Fabric) (q : Req) : Fabric :=
  let o := q.addr % 2 ^ 40
  let done := fun (f : Fabric) (v : DWord) => f.post (.memoryAnswer ⟨q.el, q.id, q.lane, v, true, false, 0⟩)
  match q.op with
  | .store =>
    if o ≠ 0 then done f 0
    else if bit f.sigStat 63 then done { f with sigStat := setFld f.sigStat 7 0 8 } 0
    else
      let f := match fld q.data 63 60 with
        | 1 => { f with sigStat := 0x8000000000000000 }.post (.signerCheck (fld q.data 59 56) (BitVec.ofNat 42 (fld q.data 41 0)))
        | 2 => { f with sigStat := 0x8000000000000000 }.post (.signerClear (fld q.data 59 56))
        | _ => f
      done f 0
  | _ =>
    done f (if o = 8 then f.sigStat else if 0x40 ≤ o then BitVec.ofNat 64 (f.sigMeas.toNat / 2 ^ (8 * (o - 0x40))) else 0)

/-- A REQUEST LEAVES for the place that serves its virtual address: a peer, the page-table aperture, the signer aperture, the
stripe space, or its home base die. A lane that has none in a partition without stacks raises PAGE (R207). -/
def Fabric.sendReq (f : Fabric) (q : Req) : Fabric :=
  let o := q.addr % 2 ^ 46
  match podPkg f q.addr with
  | some d =>
    match f.peerPort q.part d with
    | none => f.deadAnswer q
    | some n =>
      let tag := (((f.el q.el).pendOf q.id).map (·.set.tag)).getD 0
      { f.sendFrame n d q.part 2 (reqFlits tag 0 q) with peers := f.peers ++ [(n, q)] }
  | none =>
    if o / 2 ^ 40 = 0x3E then f.post (if q.op = .load then .apertureLoad q else .apertureStore q)
    else if o / 2 ^ 40 = 0x3D then f.signerAccess q
    else if o / 2 ^ 40 = 0x3F then f.post (.stripeAccess q)
    else match f.home q.part q.addr with
      | some sd => f.post (.translationRequest sd q)
      | none => f.post (.faultAnswer q .page (pageInfo 0 o))

/-- What a firing's engine request that found no command place, or a piece that found no park place, is sent again as (R339). -/
def Pend.againEv (p : Pend) (el lane : Nat) : List Ev :=
  if p.op = 0xA2 then [if p.phase = 40 then .copyCommand el p.id else .copyPieceComplete el p.id lane]
  else if isIndirect p.op && decide (p.phase = 40) then [.indirectStreamCommand el p.id]
  else []

/-- Firings by rising stamp. -/
def insertPend (p : Pend) : List Pend → List Pend
  | [] => [p]
  | x :: r => if x.set.stamp ≤ p.set.stamp then x :: insertPend p r else p :: x :: r

/-- A parked access is sent again: over its route, or by its virtual address. -/
def Fabric.sendAgain (f : Fabric) (q : Req) : Fabric :=
  match (f.el q.el).pendOf q.id with
  | some p => if p.routed then f.post (.routeAccess (p.b.toNat / 8) (p.b.toNat % 8) q) else f.sendReq q
  | none => f.sendReq q

/-- Accesses that an element holds parked for a reason are sent again, in stamp order (R198, R339, R365). -/
def Fabric.resendAccs (f : Fabric) (el : Nat) (r : ParkReason) : Fabric :=
  let ps := (f.el el).pend.foldl (fun l p => insertPend p l) []
  let go := ps.flatMap fun p => (p.accs.filter fun a => a.reason == r).filterMap (·.q)
  let evs := ps.flatMap fun p => (p.accs.filter fun a => a.reason == r && a.q.isNone).flatMap fun a => p.againEv el a.lane
  let f := if go.isEmpty && evs.isEmpty then f else f.modEl el fun e =>
    { e with pend := e.pend.map fun p => { p with accs := p.accs.filter fun a => !(a.reason == r) } }
  (go.foldl Fabric.sendAgain f).postAll evs

/-- Does a partition's local address lie in host memory, by the page tables as they stand (R357)? -/
def Fabric.inHost (f : Fabric) (part a : Nat) : Bool :=
  match f.home part a with
  | some sd => (f.translate sd part (a % 2 ^ 46)).any fun x => decide (pteTier x.1 = 2)
  | none => false

/-- The scope within which a virtual target lies for an element (R237). -/
def Fabric.scopeOf (f : Fabric) (el a : Nat) : Nat :=
  if (podPkg f a).isSome then 4
  else if f.inHost (f.partOf el) a then 5
  else if a % 2 ^ 46 / 2 ^ 40 = 0x3F then
    match f.stripeAt el (a % 2 ^ 40) with
    | some (m, _) => if m = el then 0 else if blockOf m = blockOf el then 1 else if dieOf m = dieOf el then 2 else 3
    | none => 3
  else 3

/-- The scope of another element's memory. -/
def scopeEl (el m : Nat) : Nat := if m = el then 0 else if blockOf m = blockOf el then 1 else if dieOf m = dieOf el then 2 else 3

/-! ## MX arrays (R82, R83, R223) -/

/-- An array descriptor. -/
structure MxDesc where
  ocp : Bool
  n : Nat
  kind : Bool
  nblk : Nat
  deriving DecidableEq, Repr

/-- A descriptor's fields; none with a reserved bit set or no block. -/
def mxDesc (w : DWord) : Option MxDesc :=
  if fld w 62 61 ≠ 0 ∨ fld w 58 32 ≠ 0 ∨ fld w 31 0 = 0 then none
  else some ⟨bit w 63, if bit w 60 then 32 else 16, bit w 59, fld w 31 0⟩

/-- Does a run fit an array (R223)? -/
def MxDesc.fits (d : MxDesc) (isI8 : Bool) (base L : Nat) : Bool :=
  decide (d.kind = isI8) && decide (base % d.n = 0) && decide (L % d.n = 0) && decide (base / d.n + L / d.n ≤ d.nblk)

/-- Where an array's elements begin. -/
def MxDesc.elems (d : MxDesc) (addr : Nat) : Nat := addr + 8 + (d.nblk + 7) / 8 * 8

/-- The address of block j's elements, from the scale bytes before it; none for a block that stores none. -/
def MxDesc.blockAddr (d : MxDesc) (addr : Nat) (scales : List Nat) (j : Nat) : Option Nat :=
  if d.ocp then some (d.elems addr + d.n * j)
  else if scales.getD j 0 = 0 then none
  else some (d.elems addr + d.n * ((scales.take j).countP (· ≠ 0)))

/-- An element halved with RNE (R83): its code, whether inexact, whether a non-zero element became zero. An MXB8 element is read and
encoded in the context's B8 variant, also in an OCP array (DEDUCED, log 20). -/
def halveElem (isI8 : Bool) (b8 : Byte) (x : DWord) : DWord × Bool × Bool :=
  if isI8 then
    let r := roundInt .rne 0 ⟨sint 8 x, 2⟩
    (keepBits 8 r.1, r.2.1, decide (r.1 = 0) && decide (sint 8 x ≠ 0))
  else
    match fread (b8Params b8) x with
    | .fin q =>
      let r := roundFV (b8Params b8) .rne false 0 (.fin (Q.mul q ⟨1, 2⟩))
      (r.bits, decide (r.fl ≠ 0), decide (r.bits = 0))
    | _ => (trunc 8 x, false, false)

/-- One block as loaded: elements, scale, flags (R83, R223). -/
def mxBlock (d : MxDesc) (b8 : Byte) (scale : Nat) (codes : List DWord) : List DWord × Nat × Flags :=
  if scale ≠ 0 then (codes, scale, 0)
  else if d.ocp then
    let hs := codes.map (halveElem d.kind b8)
    let nx := hs.any (·.2.1)
    let fl := flagIf nx flNX ||| flagIf (hs.any (·.2.2)) flUF
    let cs := hs.map (·.1)
    if cs.all (· = 0) then (cs, 0, fl) else (cs, 1, fl)
  else (List.replicate d.n 0, 0, 0)

/-- Bytes of a list of 8-byte words, as codes. -/
def wordBytes (ws : List DWord) : List DWord := ws.flatMap fun w => (List.range 8).map fun i => w64 (w.toNat / 2 ^ (8 * i) % 256)

/-- The word of eight byte codes. -/
def bytesWord (bs : List DWord) : DWord := w64 (bs.foldr (fun b n => b.toNat % 256 + 256 * n) 0)

/-- The words of a whole array in the device layout (R223): address and word. -/
def mxImage (addr n : Nat) (kind : Bool) (codes : List Nat) (elems : List DWord) : List (Nat × DWord) :=
  let nblk := codes.length
  let desc := w64 ((if n = 32 then 2 ^ 60 else 0) + kind.toNat * 2 ^ 59 + nblk)
  let scaleWords := (List.range ((nblk + 7) / 8)).map fun i => bytesWord ((List.range 8).map fun j => w64 (codes.getD (8 * i + j) 0))
  let live := (List.range nblk).filter fun j => codes.getD j 0 ≠ 0
  let body := live.flatMap fun j => (List.range (n / 8)).map fun i => bytesWord ((elems.drop (n * j + 8 * i)).take 8)
  ((desc :: scaleWords ++ body).zipIdx).map fun x => (addr + 8 * x.2, x.1)

/-- Bytes of element memory read for an MX array, by the roles of its windows; an empty word is waited for. -/
def Element.peek (e : Element) (a n : Nat) : Except Stop Nat :=
  if a % n ≠ 0 ∨ Config.elemBytes < a + n then .error (.trap .align (w32 a))
  else match e.site a with
    | .bytes b => .ok (e.mem.readN b n)
    | .header _ _ => .ok (e.mem.readN a n)
    | .buf full b => if full then .ok (e.mem.readN b n) else .error (.park .buf 0)
    | .istr w i => if e.istrFull w i then .ok (e.mem.readN a n) else .error (.park .defer 0)
    | .noRow => .error (.trap .align (w32 a))

/-- Several reads in turn. -/
def Element.peeks (e : Element) (n : Nat) : List Nat → Except Stop (List Nat)
  | [] => .ok []
  | a :: r => (e.peek a n).bind fun v => (e.peeks n r).map (v :: ·)

/-- The blocks of a run as loaded from element memory (R223): elements, scales, flags. -/
def Element.mxLoad (e : Element) (slot : Nat) (b8 : Byte) (isI8 : Bool) (addr base L : Nat) : Except Stop (Nat × List DWord × List Nat × Flags) :=
  (e.peek addr 8).bind fun dw =>
    match mxDesc (w64 dw) with
    | none => .error (.trap .format (w32 slot))
    | some d =>
      if !d.fits isI8 base L then .error (.trap .format (w32 slot))
      else
        let lo := base / d.n
        let hi := lo + L / d.n
        (e.peeks 1 ((List.range hi).map fun j => addr + 8 + j)).bind fun scales =>
          let blocks := (List.range (hi - lo)).map (· + lo)
          let one := fun j =>
            match d.blockAddr addr scales j with
            | some b => (e.peeks 1 ((List.range d.n).map (b + ·))).map fun (v : List Nat) => mxBlock d b8 (scales.getD j 0) (v.map w64)
            | none => .ok (mxBlock d b8 (scales.getD j 0) [])
          blocks.foldr (fun j (acc : Except Stop (Nat × List DWord × List Nat × Flags)) =>
            acc.bind fun x => (one j).map fun y => (d.n, y.1 ++ x.2.1, y.2.1 :: x.2.2.1, y.2.2 ||| x.2.2.2)) (.ok (d.n, [], [], 0))

/-! ## Performing a memory form -/

/-- Elements whose loads wait under DEFER for a free record or table entry are told that there is one (R198). -/
def Fabric.releaseDefer (f : Fabric) : Fabric :=
  f.postAll ((f.els.filter fun p => p.2.pend.any fun x => x.accs.any fun a => a.reason == .defer).map fun p => .deferRelease p.1)

/-- An element after accesses at its memory side, with the answers of the deferred readers whose records it freed (R197, R198). -/
def Fabric.afterServe (f : Fabric) (el : Nat) (e : Element) (ans : List Ans) : Fabric :=
  let f := (f.setEl el e).postAll (ans.map Ev.memoryAnswer)
  if ans.isEmpty then f else f.releaseDefer

/-- The end of accesses at the issuer's own memory side: the values so far, the answers owed, and what is still deferred. -/
def localEnd (f : Fabric) (el : Nat) (p : Pend) (x : Element × List (Nat × Option DWord) × List Ans) : Perf :=
  let f := f.afterServe el x.1 x.2.2
  let p := { p with vals := fillVals p.vals x.2.1 }
  let n := x.2.1.countP (·.2.isNone)
  if n = 0 then .done f p 0 else .wait f { p with left := n, phase := 2000 }

/-- Is an earlier set of a context parked on a trap, at a memory side that holds it, or as a release that waits (R231, R239, R242)?
Earlier means a lower stamp. -/
def Element.accessParked (e : Element) (ctx stamp : Nat) (test : MSet → Nat → Bool) : Bool :=
  e.parked.any fun x =>
    decide (x.set.ctx = ctx) && decide (x.set.stamp < stamp)
      && (x.reason == .trap || x.reason == .buf || x.reason == .fifo || x.reason == .defer || x.reason == .rmw || x.reason == .fence)
      && test x.set (fieldOp (Image.instr (e.imageOf ctx) x.set.slot)).toNat

/-- Is an issued firing's access still incomplete? -/
def Pend.incomplete (p : Pend) : Bool := decide (p.phase ≠ 1000) && (decide (p.left ≠ 0) || !p.accs.isEmpty)

/-- Has an element earlier stores or atomics of a context that are not complete (R229, R242, R248)? -/
def Element.storesPending (e : Element) (ctx stamp : Nat) : Bool :=
  e.accessParked ctx stamp (fun _ op => isStoreForm op)
    || e.pend.any fun p => decide (p.set.ctx = ctx) && decide (p.set.stamp < stamp) && p.store && p.incomplete

/-- Loads and stores of the issuer's own memory (R213). A store to a presence-guarded word is a release: it waits for the context's
earlier stores and atomics (R242). -/
def performLocal (f : Fabric) (el : Nat) (p : Pend) (store : Bool) : Perf :=
  let qs := p.onLanes.map fun k =>
    f.mkReq el p k (if store then .store else .load) p.bytes (p.args.getD k 0).toNat (p.vals.getD k 0) 0
  if store && qs.any (fun q => (f.el el).guarded q.addr) && (f.el el).storesPending p.set.ctx p.set.stamp then .stop (.park .fence 0)
  else match serveRun (readerRec ((f.el el).imageOf p.set.ctx) p) p.set.slot (store && decide (p.op = 0x91 ∨ p.op = 0x93)) (f.el el) qs (p.args.getD 0 0).toNat with
  | .error s => .stop s
  | .ok x => localEnd f el p x

/-- Consecutive 8-byte words stored at the issuer's own memory by a record's firing, as its stores are (R300). -/
def Fabric.storeWords (f : Fabric) (el : Nat) (p : Pend) (a : Nat) (ws : List DWord) : Except Stop Fabric :=
  let qs := (ws.zipIdx).map fun x => f.mkReq el p x.2 .store 8 (a + 8 * x.2) x.1 0
  if qs.any (fun q => (f.el el).guarded q.addr) && (f.el el).storesPending p.set.ctx p.set.stamp then .error (.park .fence 0)
  else (serveRun (0, 0) p.set.slot false (f.el el) qs a).map fun x => f.afterServe el x.1 x.2.2

/-- The words of an MX store checked against the array in place (R223): may the new array be written? -/
def mxReplaces (old : DWord) (nblk : Nat) : Bool := decide (old = 0) || decide (nblk ≤ fld old 31 0)

/-- AGSET (R218): the descriptor at p.a into generator p.b. -/
def performAgset (f : Fabric) (el : Nat) (p : Pend) : Perf :=
  match (f.el el).peeks 8 [p.a.toNat, p.a.toNat + 8] with
  | .error s => .stop s
  | .ok ws =>
    let w0 := w64 (ws.getD 0 0)
    let w1 := w64 (ws.getD 1 0)
    if bit w0 19 || decide (fld w1 43 1 ≠ 0) then .stop (.trap .format (w32 p.set.slot))
    else .done (f.modEl el fun e => { e with gens := tset e.gens (fld p.b 1 0) ⟨w0, w1, 0, 0⟩ }) { p with phase := 0, cur := 1 } 0

/-- The atomic a record performs. -/
def Pend.atomic (p : Pend) : ReqOp := .atomic (BitVec.ofNat 8 p.op) ((Fmt.ofCode p.fin).getD .n64)
/-- The operation of a form with an address word. -/
def Pend.spaceOp (p : Pend) : ReqOp := if p.op = 0x9A then .feset else if p.op = 0x9B then .feclr else p.atomic

/-- Atomics, FESET and FECLR by SPACE (R210, R221, R229): p.a is the address word. -/
def performSpace (f : Fabric) (el : Nat) (p : Pend) : Perf :=
  let addr := fld p.a 56 0
  let n := if isAtomicOp p.op then p.bytes else 8
  let q := f.mkReq el p 0 p.spaceOp n addr (p.vals.getD 0 0) p.c
  if !bit p.valid 0 then .done f p 0
  else match fld p.a 63 62 with
  | 0 =>
    if isAtomicOp p.op then
      match (f.el el).serve (0, 0) p.set.slot q with
      | .trap c i => .stop (.trap c i)
      | _ =>
        if 3 ≤ (f.el el).rmw.length then .stop (.park .rmw 0)
        else .wait ((f.modEl el fun e => { e with rmw := e.rmw ++ [q] }).post (.rmwComplete el)) { p with left := 1 }
    else
      match (f.el el).serve (0, 0) p.set.slot q with
      | .done e _ ans => localEnd f el p (e, [], ans)
      | x => .stop (x.stop.getD (.park .defer 0))
  | 1 =>
    match routeOk f el (fld p.a 30 19) with
    | some w => if fld w 62 61 = 2 then
        .wait (f.post (.routeAccess (fld w 41 26) (fld w 60 58) { q with addr := fld p.a 18 0, route := p.route })) { p with left := 1, b := w64 (fld w 41 26 * 8 + fld w 60 58) }
      else .stop (.trap .illegal (w32 (fld p.a 30 19)))
    | none => .stop (.trap .illegal (w32 (fld p.a 30 19)))
  | _ => .wait (f.sendReq q) { p with left := 1 }

/-- Do stores reach another package? The element cannot know whether their pages are presence-guarded there, and so treats each as a release
(R197, R242; DESIGN CHOICE, log 23). -/
def Fabric.peerStores (f : Fabric) (qs : List Req) : Bool := qs.any fun q => decide (q.op = .store) && (podPkg f q.addr).isSome

/-- GLD and GST (R213, R222): one request for each valid lane, in lane order. -/
def performVirtual (f : Fabric) (el : Nat) (p : Pend) (store : Bool) : Perf :=
  let qs := p.onLanes.map fun k =>
    f.mkReq el p k (if store then .store else .load) p.bytes (p.args.getD k 0).toNat (p.vals.getD k 0) 0
  if qs.isEmpty then .done f p 0
  else if f.peerStores qs && (f.el el).storesPending p.set.ctx p.set.stamp then .stop (.park .fence 0)
  else .wait (qs.foldl Fabric.sendReq f) { p with left := qs.length }

/-- An MX load or store of the issuer's own memory (R223): p.a is the descriptor address; a store's scales are p.args. -/
def performMxLocal (f : Fabric) (el : Nat) (p : Pend) : Perf :=
  let img := (f.el el).imageOf p.set.ctx
  let e := f.el el
  if p.op = 0x90 then
    match e.mxLoad p.set.slot img.b8mode (decide (p.fin = 13)) p.a.toNat p.base p.vals.length with
    | .error s => .stop s
    | .ok (n, vals, codes, fl) => .done f { p with vals := vals, args := codes.map w64, cnt := n } fl
  else
    let ws := mxImage p.a.toNat p.cnt (decide (p.fin = 13)) (p.args.map (·.toNat)) p.vals
    match e.peek p.a.toNat 8 with
    | .error s => .stop s
    | .ok old =>
      if !mxReplaces (w64 old) p.args.length then .stop (.trap .format (w32 p.set.slot))
      else if ws.any (fun x => e.guarded x.1) && e.storesPending p.set.ctx p.set.stamp then .stop (.park .fence 0)
      else
        match serveRun (0, 0) p.set.slot false e (ws.map fun x => f.mkReq el p 0 .store 8 x.1 x.2 0) 0 with
        | .error s => .stop s
        | .ok x => localEnd f el p (x.1, [], x.2.2)

/-- An MX load or store by virtual address begins with its descriptor's word (R223). -/
def performMxVirtual (f : Fabric) (el : Nat) (p : Pend) : Perf :=
  .wait (f.sendReq (f.mkReq el p 0 .load 8 p.a.toNat 0 0)) { p with left := 1, phase := if p.op = 0x9C then 10 else 20 }

/-- A MEMORY FORM IS PERFORMED, at issue or at its release from the store buffer. `cur` of an AGSET is 1 once its generator is
loaded. -/
def perform (f : Fabric) (el : Nat) (p : Pend) : Perf :=
  if p.op = 0x94 then (if p.cur = 1 then .done f p 0 else performAgset f el p)
  else if p.op = 0x9A ∨ p.op = 0x9B ∨ isAtomicOp p.op then performSpace f el p
  else if p.isMx && decide (p.valid = 0) then .done f p 0
  else if p.isMx then (if p.op ≤ 0x91 then performMxLocal f el p else performMxVirtual f el p)
  else if p.op = 0x9C ∨ p.op = 0x9D then performVirtual f el p (decide (p.op = 0x9D))
  else if p.op = 0x97 ∧ (f.vaStop el (Image.priv ((f.el el).imageOf p.set.ctx)) .pref false 1 p.a.toNat).isSome then .done f p 0
  else if p.op = 0x97 then .wait (f.sendReq (f.mkReq el p 0 .pref 8 p.a.toNat 0 0)) { p with left := 1 }
  else if p.op = 0x9E ∨ p.op = 0x9F then
    if p.onLanes.isEmpty then .done f p 0
    else .wait (f.post (.routeAccess (p.b.toNat / 8) (p.b.toNat % 8) { f.mkReq el p 0 (if p.op = 0x9F then .store else .load) p.bytes p.a.toNat 0 0 with route := p.route }))
        { p with left := if p.op = 0x9F then 1 else p.onLanes.length }
  else if isIndirect p.op then
    if p.onLanes.isEmpty then .done f p 0
    else .wait (f.post (.indirectStreamCommand el p.id)) { p with left := p.onLanes.length, phase := 40 }
  else if p.op = 0xA2 then
    if p.args.getD 0 0 = 0 then .done f p 0 else .wait (f.post (.copyCommand el p.id)) { p with left := 1, phase := 40 }
  else performLocal f el p (isStoreForm p.op)

/-! ## Wave order (R226, R227) -/

/-- Is a wave of a context and tag tracked? -/
def Block.waveOf (b : Block) (ctx : Nat) (tag : DWord) : Option Wave := b.waveTab.find? fun w => decide (w.ctx = ctx) && decide (w.tag = tag)

/-- A wave-ordered firing enters its block's store buffer of 64 accesses and 16 waves. -/
def FCtx.enterWave (c : FCtx) (f : Fabric) (p : Pend) : Except Stop Res :=
  let bk := bufOf c.el
  let b := f.blk bk
  let known := (b.waveOf c.ctx c.tag).isSome
  if 64 ≤ b.buffer.length || (!known && decide (16 ≤ b.waveTab.length)) then .error (.park .wave 0)
  else
    let f := f.modBlk bk fun b =>
      { b with
        buffer := b.buffer ++ [⟨c.el, p.id, c.ctx, c.tag, c.control, !isStoreForm p.op⟩]
        waveTab := if known then b.waveTab else b.waveTab ++ [⟨c.ctx, c.tag, none, 0, 0, false⟩] }
    .ok (Res.of ((f.post (.waveRelease bk)).askWave c.el) 0 [] (some { p with left := 1, phase := 3000 }))

/-- The end of a memory form's issue: performed at once, or into the store buffer. -/
def FCtx.memRun (c : FCtx) (f : Fabric) (p : Pend) : Except Stop Res :=
  let p := { p with store := isStoreForm c.op }
  if c.img.wave then c.enterWave f p
  else
    match perform f c.el p with
    | .stop s => .error s
    | .done f p fl => .ok (Res.of f fl (memOuts p) none)
    | .wait f p => .ok (Res.of f 0 [] (some p))

/-! ## The forms -/

/-- Bytes of an access in the slot's format. -/
def FCtx.bytes (c : FCtx) : Nat := c.ifmt.width / 8

/-- ALIGN where a valid lane's element address is unaligned or out of range (R190, R212). -/
def FCtx.elemStop (c : FCtx) (addrs : List Int) : Option Stop :=
  match (addrs.zipIdx).find? fun x => c.on x.2 && (decide (x.1 % (c.bytes : Int) ≠ 0) || decide (x.1 < 0) || decide ((Config.elemBytes : Int) < x.1 + (c.bytes : Int))) with
  | some (a, _) => some (.trap .align (BitVec.ofNat 32 (a % 2 ^ 32).toNat))
  | none => none

/-- A record of an access to the issuer's own memory at lane addresses. -/
def FCtx.localPend (c : FCtx) (addrs : List Int) (vals : List DWord) : Pend :=
  { c.pend with args := addrs.map (keepBits 64), vals := vals, target := (addrs.headD 0).toNat, scope := 0 }

/-- A load or store of element memory at lane addresses. -/
def FCtx.localRun (c : FCtx) (f : Fabric) (addrs : List Int) (vals : List DWord) : Except Stop Res :=
  match c.elemStop addrs with
  | some s => .error s
  | none => c.memRun f (c.localPend addrs vals)

/-- Lane addresses from a base. -/
def FCtx.from (c : FCtx) (base : DWord) (first : Nat) : List Int := c.lanes.map fun k => (base.toNat + (first + k) * c.bytes : Nat)
/-- No values yet. -/
def FCtx.zeros (c : FCtx) : List DWord := c.lanes.map fun _ => 0

/-- An MX array access: descriptor address, and for a store its scales (R223). -/
def FCtx.mxRun (c : FCtx) (addr : DWord) (store : Bool) (scope : Nat) : Except Stop Res :=
  let p := { c.pend with a := addr, vals := if store then c.avals else c.zeros, target := addr.toNat % 2 ^ 48, scope := scope }
  if store then
    if c.base ≠ 0 ∧ c.valid ≠ 0 then c.format
    else match c.takeScales with
      | .error e => .error e
      | .ok (n, codes, rest) => c.memRun (c.dropScales c.f rest) { p with args := codes.map w64, cnt := n }
  else c.memRun c.f p

/-- LD (R213, R217, R223). -/
def ldForm (c : FCtx) : Except Stop Res := if c.ifmt.isMx then c.mxRun c.ra false 0 else c.localRun c.f (c.from c.ra 0) c.zeros
/-- ST (R213, R223). -/
def stForm (c : FCtx) : Except Stop Res := if c.ifmt.isMx then c.mxRun c.rb true 0 else c.localRun c.f (c.from c.rb 0) c.avals
/-- LDX (R217). -/
def ldxForm (c : FCtx) : Except Stop Res := c.localRun c.f (c.from c.ra c.base) c.zeros
/-- STX (R217). -/
def stxForm (c : FCtx) : Except Stop Res := c.localRun c.f (c.from c.rb c.base) c.avals

/-- AGSET (R218). The generators follow issue order, so the descriptor is read and the generator loaded at issue; in a wave-ordered
context the firing then takes its place in the store buffer and completes in its turn there (DESIGN CHOICE, log 44). -/
def agsetForm (c : FCtx) : Except Stop Res :=
  if !inElem c.ra.toNat 16 then alignAt c.ra.toNat
  else
    match performAgset c.f c.el { c.pend with a := c.ra, b := c.rb, target := c.ra.toNat, scope := 0 } with
    | .stop s => .error s
    | .done f p _ => c.memRun f p
    | .wait f p => c.memRun f p

/-! ### Address generators (R199, R200) -/

/-- The address at a generator's position. -/
def Gen.addr (g : Gen) : Int :=
  (fld g.w0 18 0 : Int) + g.i0 * sint 20 (w64 (fld g.w0 39 20)) + g.i1 * sint 20 (w64 (fld g.w1 63 44))

/-- The position after a draw; with WRAP clear the last is followed by none. -/
def Gen.next (g : Gen) : Gen :=
  if g.i0 < fld g.w0 63 52 then { g with i0 := g.i0 + 1 }
  else if g.i1 < fld g.w0 51 40 ∨ !bit g.w1 0 then { g with i0 := 0, i1 := g.i1 + 1 }
  else { g with i0 := 0, i1 := 0 }

/-- Is a generator past its last position? -/
def Gen.spent (g : Gen) : Bool := decide (fld g.w0 51 40 < g.i1)

/-- L addresses drawn; none where a draw passes the last position. -/
def Gen.draw (g : Gen) : Nat → Option (List Int × Gen)
  | 0 => some ([], g)
  | n + 1 => if g.spent then none else (g.next.draw n).map fun x => (g.addr :: x.1, x.2)

/-- LDA and STA (R218): the addresses are drawn at issue. -/
def FCtx.genRun (c : FCtx) (num : DWord) (vals : List DWord) : Except Stop Res :=
  let j := fld num 1 0
  match (tget ⟨0, 0, 0, 0⟩ c.elt.gens j).draw c.len with
  | none => .error (.trap .format (w32 j))
  | some (addrs, g) => c.localRun (c.f.modEl c.el fun e => { e with gens := tset e.gens j g }) addrs vals

/-- LDA (R218). -/
def ldaForm (c : FCtx) : Except Stop Res := c.genRun c.ra c.zeros
/-- STA (R218). -/
def staForm (c : FCtx) : Except Stop Res := c.genRun c.rb c.avals

/-- The stop of an I-structure handle (R212, R221): the window, the handle's bits, and the index of every valid lane. -/
def FCtx.istrStop (c : FCtx) (h : DWord) : Option Stop :=
  let w := tget (0 : Word) c.elt.wins (fld h 22 20)
  let i := fld h 16 0
  let lane := fun k : Nat => istrAddr w i + k * c.bytes
  if c.valid = 0 then none
  else if winRole w ≠ 6 then some (.trap .access (w32 h.toNat))
  else if h.toNat ≠ fld h 22 20 * 2 ^ 20 + i then some (.trap .align (w32 (istrAddr w i)))
  else (c.lanes.find? fun k => c.on k && decide (istrAddr w (istrWords w) < lane k + c.bytes)).map fun k => .trap .align (w32 (lane k))

/-- An access to the words that an I-structure handle names. -/
def FCtx.istrRun (c : FCtx) (h : DWord) (vals : List DWord) : Except Stop Res :=
  match c.istrStop h with
  | some s => .error s
  | none => c.localRun c.f (c.from (w64 (istrAddr (tget (0 : Word) c.elt.wins (fld h 22 20)) (fld h 16 0))) 0) vals

/-- IWRITE (R221). -/
def iwriteForm (c : FCtx) : Except Stop Res := c.istrRun c.rb c.avals
/-- IREAD (R221). -/
def ireadForm (c : FCtx) : Except Stop Res := c.istrRun c.ra c.zeros

/-! ### Address words, routes and virtual addresses -/

/-- The stops of an address word (R210, R212, R231) for an access of n bytes. -/
def FCtx.spaceStop (c : FCtx) (w : DWord) (op : ReqOp) (n : Nat) (spSc : Bool) : Option Stop :=
  let a := fld w 56 0
  if fld w 63 62 = 3 ∨ (spSc ∧ 6 ≤ fld w 61 59) then some (.trap .format c.slotW)
  else match fld w 63 62 with
  | 0 => if a % n ≠ 0 ∨ Config.elemBytes < a + n then some (.trap .align (w32 a)) else none
  | 1 => if 2 ^ 31 ≤ a ∨ a % n ≠ 0 then some (.trap .align (w32 a)) else none
  | _ => c.f.vaStop c.el c.priv op false n a

/-- The scope of an address word's target. -/
def FCtx.spaceScope (c : FCtx) (w : DWord) : Nat :=
  match fld w 63 62 with
  | 0 => 0
  | 1 => match c.f.routeEntry c.el (fld w 30 19) with | some r => scopeEl c.el (fld r 41 26) | none => 3
  | _ => c.f.scopeOf c.el (fld w 56 0)

/-- The scope of accesses at lane addresses: the least of those that are performed (R237). -/
def FCtx.lanesScope (c : FCtx) (addrs : List Int) : Nat :=
  ((addrs.zipIdx).filter fun x => c.on x.2).foldl (fun n x => min n (c.f.scopeOf c.el x.1.toNat)) 7

/-- FESET and FECLR (R221). -/
def feForm (op : ReqOp) (c : FCtx) : Except Stop Res :=
  match c.spaceStop c.ra op 8 false with
  | some s => .error s
  | none => c.memRun c.f { c.pend with a := c.ra, valid := 1, target := fld c.ra 47 0, scope := c.spaceScope c.ra }

/-- The first stop of a valid lane's virtual address. -/
def FCtx.vaStops (c : FCtx) (op : ReqOp) (addrs : List Int) : Option Stop :=
  ((addrs.zipIdx).filter fun x => c.on x.2).findSome? fun x => c.f.vaStop c.el c.priv op (decide (c.fin = 3) || decide (c.fin = 7)) c.bytes x.1.toNat

/-- GLD and GST (R222, R223). -/
def FCtx.virtualRun (c : FCtx) (addr : DWord) (store : Bool) : Except Stop Res :=
  if c.ifmt.isMx then
    match (if c.valid = 0 then none else c.f.vaStop c.el c.priv (if store then .store else .load) false 8 addr.toNat) with
    | some s => .error s
    | none => c.mxRun addr store (c.f.scopeOf c.el addr.toNat)
  else
    let addrs := c.from addr 0
    match c.vaStops (if store then .store else .load) addrs with
    | some s => .error s
    | none =>
      c.memRun c.f { c.localPend addrs (if store then c.avals else c.zeros) with target := addr.toNat % 2 ^ 48, scope := c.lanesScope addrs }

/-- PREF (R220): what would trap ends it silently. -/
def prefForm (c : FCtx) : Except Stop Res :=
  let p := { c.pend with a := c.ra, target := c.ra.toNat % 2 ^ 48, scope := c.f.scopeOf c.el c.ra.toNat }
  match c.f.vaStop c.el c.priv .pref false 1 c.ra.toNat with
  | some _ => if c.img.wave then c.enterWave c.f p else .ok (Res.of c.f 0 (memOuts p) none)
  | none => c.memRun c.f p

/-- SLD and SST (R219): a route address. A firing whose V is zero sends nothing (R213). -/
def FCtx.routeRun (c : FCtx) (w : DWord) (vals : List DWord) : Except Stop Res :=
  let r := fld w 30 19
  if c.valid = 0 then c.memRun c.f { c.pend with vals := vals, args := vals }
  else match routeOk c.f c.el r with
  | none => .error (.trap .illegal (w32 r))
  | some e =>
    if fld e 62 61 ≠ 2 then .error (.trap .illegal (w32 r))
    else if 2 ^ 31 ≤ w.toNat ∨ fld w 18 0 % c.bytes ≠ 0 then .error (.trap .align (w32 (fld w 18 0)))
    else
      let f := if c.elt.routes.contains r then c.f else c.f.post (.routeSetup c.el r)
      c.memRun f { c.pend with
        a := w64 (fld w 18 0), b := w64 (fld e 41 26 * 8 + fld e 60 58), c := w64 r, vals := vals, args := vals,
        target := fld w 18 0, scope := scopeEl c.el (fld e 41 26) }

/-! ### Indirect streams and copies -/

/-- The Fatik element that serves an element at a stack (R208). -/
def FCtx.engine (c : FCtx) (sd : Nat) : DWord := w64 (fatikKey sd (c.el % 4))

/-- A lane's address as it is kept: one outside the local space keeps its low 46 bits and bit 63 (R224). -/
def laneWord (a : Int) : DWord := if 0 ≤ a ∧ a < 2 ^ 46 then keepBits 64 a else w64 (2 ^ 63 + (a % 2 ^ 46).toNat)

/-- The table base that K15 gives an indirect stream (R224). -/
def FCtx.tableBase (c : FCtx) : Nat := fld (c.img.lit 15) 29 0 * 65536
/-- The lane addresses of an indirect stream (R224). -/
def FCtx.tableLanes (c : FCtx) (sel : Nat) : List Int := c.lanes.map fun k => (c.tableBase : Int) + c.role sel true k * c.bytes

/-- IGATH and ISCAT (R208, R224). -/
def FCtx.indirectRun (c : FCtx) (sel : Nat) (vals : List DWord) : Except Stop Res :=
  let base := c.tableBase
  match c.f.home c.part base with
  | none => .error (.trap .page (pageInfo 0 base))
  | some sd =>
    let addrs := c.tableLanes sel
    c.memRun c.f { c.pend with
      args := addrs.map laneWord, vals := vals, c := c.engine sd, target := base, scope := c.lanesScope addrs }

/-- CPY (R225): the descriptor is read and checked at issue; a length of zero makes no access and completes there. -/
def cpyForm (c : FCtx) : Except Stop Res :=
  let d := c.ra.toNat
  if !inElem d 32 then alignAt d
  else (c.elt.peeks 8 [d, d + 8, d + 16, d + 24]).bind fun ws =>
    let src := w64 (ws.getD 0 0)
    let dst := w64 (ws.getD 1 0)
    let w2 := w64 (ws.getD 2 0)
    let w3 := w64 (ws.getD 3 0)
    let zf := bit w3 0
    let len := fld w2 31 0
    let sa := fld src 56 0
    let da := fld dst 56 0
    let ss := fld src 63 62
    let ds := fld dst 63 62
    if da % 8 ≠ 0 ∨ (ds = 0 ∧ Config.elemBytes < da + len) then alignAt da
    else if !zf ∧ (sa % 8 ≠ 0 ∨ (ss = 0 ∧ Config.elemBytes < sa + len)) then alignAt sa
    else if len % 8 ≠ 0 then alignAt (d + 16)
    else if (!zf ∧ ss = 0 ∧ ds = 0) ∨ ds = 1 ∨ ds = 3 ∨ (!zf ∧ (ss = 1 ∨ ss = 3)) then c.format
    else if fld w2 63 32 ≠ 0 ∨ fld w3 63 1 ≠ 0 ∨ fld dst 58 57 ≠ 0 ∨ (!zf ∧ fld src 58 57 ≠ 0) then c.format
    else if !zf ∧ ss = ds ∧ c.f.ownAddr sa < c.f.ownAddr da + len ∧ c.f.ownAddr da < c.f.ownAddr sa + len then c.format
    else if len = 0 then c.memRun c.f { c.pend with args := [0, 0], scope := 7 }
    else
      let first := if ds = 2 then da else sa
      let bad := if ds = 2 ∨ !zf then 2 ^ 57 ≤ first ∨ (first / 2 ^ 56 = 0 ∧ first / 2 ^ 46 ≠ 0) else False
      if bad then .error (.trap .page (pageInfo 3 (first % 2 ^ 46)))
      else
        let home := if ds = 2 ∨ !zf then c.f.home c.part (first % 2 ^ 46) else c.f.sequencer c.part
        match home with
        | none => .error (.trap .page (pageInfo 0 (first % 2 ^ 46)))
        | some sd =>
          c.memRun c.f { c.pend with
            a := src, b := dst, args := [w64 len, if zf then 1 else 0], c := c.engine sd,
            target := da % 2 ^ 48, scope := if ds = 0 then 0 else c.f.scopeOf c.el da }

/-! ### Atomics (R228, R229) -/

/-- An atomic form: `.REL` waits for the context's earlier stores and atomics. -/
def atomicForm (spSc rel : Bool) (c : FCtx) : Except Stop Res :=
  let w := c.rb
  if c.vec then c.format
  else
    let op : ReqOp := .atomic (BitVec.ofNat 8 c.op) c.ifmt
    let p := { c.pend with a := w, c := c.vc 0, vals := [c.va 0], args := [w], target := fld w 47 0, scope := c.spaceScope w }
    if !c.on 0 then c.memRun c.f p
    else match c.spaceStop w op c.bytes spSc with
      | some s => .error s
      | none => if rel && c.elt.storesPending c.ctx c.s.stamp then .error (.park .fence 0) else c.memRun c.f p

/-- A firing that DISCARD completes without effect: a load or atomic has its valid bits clear, a store its FAIL (R231). -/
def FCtx.emptyPend (c : FCtx) : Pend :=
  { c.pend with vals := c.zeros, args := [], valid := if isStoreForm c.op && !isAtomicOp c.op then c.valid else 0 }

/-- A memory form: note 10 marks a set whose trap DISCARD answered. -/
def FCtx.memForm (body : FCtx → Except Stop Res) (c : FCtx) : Except Stop Res :=
  if c.s.note = 10 then .ok (Res.of c.f 0 (memOuts c.emptyPend) none) else body c

/-- LD (R213). -/
def execLd (a b d e : BitVec 5) (t : BitVec 4) (s : State) : Host.Outcome State Fault Refusal := fire 0x90 a b d e t (FCtx.memForm ldForm) s
/-- ST (R213). -/
def execSt (a b d e : BitVec 5) (t : BitVec 4) (s : State) : Host.Outcome State Fault Refusal := fire 0x91 a b d e t (FCtx.memForm stForm) s
/-- LDX (R217). -/
def execLdx (a b d e : BitVec 5) (t : BitVec 4) (s : State) : Host.Outcome State Fault Refusal := fire 0x92 a b d e t (FCtx.memForm ldxForm) s
/-- STX (R217). -/
def execStx (a b d e : BitVec 5) (t : BitVec 4) (s : State) : Host.Outcome State Fault Refusal := fire 0x93 a b d e t (FCtx.memForm stxForm) s
/-- AGSET (R218). -/
def execAgset (a b d e : BitVec 5) (t : BitVec 4) (s : State) : Host.Outcome State Fault Refusal := fire 0x94 a b d e t (FCtx.memForm agsetForm) s
/-- LDA (R218). -/
def execLda (a b d e : BitVec 5) (t : BitVec 4) (s : State) : Host.Outcome State Fault Refusal := fire 0x95 a b d e t (FCtx.memForm ldaForm) s
/-- STA (R218). -/
def execSta (a b d e : BitVec 5) (t : BitVec 4) (s : State) : Host.Outcome State Fault Refusal := fire 0x96 a b d e t (FCtx.memForm staForm) s
/-- PREF (R220). -/
def execPref (a b d e : BitVec 5) (t : BitVec 4) (s : State) : Host.Outcome State Fault Refusal := fire 0x97 a b d e t (FCtx.memForm prefForm) s
/-- IWRITE (R221). -/
def execIwrite (a b d e : BitVec 5) (t : BitVec 4) (s : State) : Host.Outcome State Fault Refusal := fire 0x98 a b d e t (FCtx.memForm iwriteForm) s
/-- IREAD (R221). -/
def execIread (a b d e : BitVec 5) (t : BitVec 4) (s : State) : Host.Outcome State Fault Refusal := fire 0x99 a b d e t (FCtx.memForm ireadForm) s
/-- FESET (R221). -/
def execFeset (a b d e : BitVec 5) (t : BitVec 4) (s : State) : Host.Outcome State Fault Refusal := fire 0x9A a b d e t (FCtx.memForm (feForm .feset)) s
/-- FECLR (R221). -/
def execFeclr (a b d e : BitVec 5) (t : BitVec 4) (s : State) : Host.Outcome State Fault Refusal := fire 0x9B a b d e t (FCtx.memForm (feForm .feclr)) s
/-- GLD (R222). -/
def execGld (a b d e : BitVec 5) (t : BitVec 4) (s : State) : Host.Outcome State Fault Refusal :=
  fire 0x9C a b d e t (FCtx.memForm (fun c => c.virtualRun c.ra false)) s
/-- GST (R222). -/
def execGst (a b d e : BitVec 5) (t : BitVec 4) (s : State) : Host.Outcome State Fault Refusal :=
  fire 0x9D a b d e t (FCtx.memForm (fun c => c.virtualRun c.rb true)) s
/-- SLD (R219). -/
def execSld (a b d e : BitVec 5) (t : BitVec 4) (s : State) : Host.Outcome State Fault Refusal :=
  fire 0x9E a b d e t (FCtx.memForm (fun c => c.routeRun c.ra c.zeros)) s
/-- SST (R219). -/
def execSst (a b d e : BitVec 5) (t : BitVec 4) (s : State) : Host.Outcome State Fault Refusal :=
  fire 0x9F a b d e t (FCtx.memForm (fun c => c.routeRun c.rb c.avals)) s
/-- IGATH (R208, R224). -/
def execIgath (a b d e : BitVec 5) (t : BitVec 4) (s : State) : Host.Outcome State Fault Refusal :=
  fire 0xA0 a b d e t (FCtx.memForm (fun c => c.indirectRun c.a c.zeros)) s
/-- ISCAT (R208, R224). -/
def execIscat (a b d e : BitVec 5) (t : BitVec 4) (s : State) : Host.Outcome State Fault Refusal :=
  fire 0xA1 a b d e t (FCtx.memForm (fun c => c.indirectRun c.b c.avals)) s
/-- CPY (R225). -/
def execCpy (a b d e : BitVec 5) (t : BitVec 4) (s : State) : Host.Outcome State Fault Refusal := fire 0xA2 a b d e t (FCtx.memForm cpyForm) s
/-- IGATH.ORD (R208, R224). -/
def execIgathOrd (a b d e : BitVec 5) (t : BitVec 4) (s : State) : Host.Outcome State Fault Refusal :=
  fire 0xA3 a b d e t (FCtx.memForm (fun c => c.indirectRun c.a c.zeros)) s
/-- ISCAT.ORD (R208, R224). -/
def execIscatOrd (a b d e : BitVec 5) (t : BitVec 4) (s : State) : Host.Outcome State Fault Refusal :=
  fire 0xA4 a b d e t (FCtx.memForm (fun c => c.indirectRun c.b c.avals)) s

end Sys2Proof.Machine
end

