-- ==== Sys2Proof/Machine/Atomic.lean ====
section
/-! DEFINITION. The atomic forms 0xA8 to 0xBF (R228-R230): one meaning each over the shared atomic form. -/

namespace Sys2Proof.Machine

/-- AADD (R228). -/
def execAadd (a b d e : BitVec 5) (t : BitVec 4) (s : State) : Host.Outcome State Fault Refusal := fire 0xA8 a b d e t (FCtx.memForm (atomicForm false false)) s
/-- AMIN (R228). -/
def execAmin (a b d e : BitVec 5) (t : BitVec 4) (s : State) : Host.Outcome State Fault Refusal := fire 0xA9 a b d e t (FCtx.memForm (atomicForm false false)) s
/-- AMAX (R228). -/
def execAmax (a b d e : BitVec 5) (t : BitVec 4) (s : State) : Host.Outcome State Fault Refusal := fire 0xAA a b d e t (FCtx.memForm (atomicForm false false)) s
/-- AAND (R228). -/
def execAand (a b d e : BitVec 5) (t : BitVec 4) (s : State) : Host.Outcome State Fault Refusal := fire 0xAB a b d e t (FCtx.memForm (atomicForm false false)) s
/-- AOR (R228). -/
def execAor (a b d e : BitVec 5) (t : BitVec 4) (s : State) : Host.Outcome State Fault Refusal := fire 0xAC a b d e t (FCtx.memForm (atomicForm false false)) s
/-- AXOR (R228). -/
def execAxor (a b d e : BitVec 5) (t : BitVec 4) (s : State) : Host.Outcome State Fault Refusal := fire 0xAD a b d e t (FCtx.memForm (atomicForm false false)) s
/-- AXCHG (R228). -/
def execAxchg (a b d e : BitVec 5) (t : BitVec 4) (s : State) : Host.Outcome State Fault Refusal := fire 0xAE a b d e t (FCtx.memForm (atomicForm false false)) s
/-- ACAS (R228). -/
def execAcas (a b d e : BitVec 5) (t : BitVec 4) (s : State) : Host.Outcome State Fault Refusal := fire 0xAF a b d e t (FCtx.memForm (atomicForm false false)) s
/-- AADD.ACQ (R228, R229). -/
def execAaddAcq (a b d e : BitVec 5) (t : BitVec 4) (s : State) : Host.Outcome State Fault Refusal := fire 0xB0 a b d e t (FCtx.memForm (atomicForm true false)) s
/-- AMIN.ACQ (R228, R229). -/
def execAminAcq (a b d e : BitVec 5) (t : BitVec 4) (s : State) : Host.Outcome State Fault Refusal := fire 0xB1 a b d e t (FCtx.memForm (atomicForm true false)) s
/-- AMAX.ACQ (R228, R229). -/
def execAmaxAcq (a b d e : BitVec 5) (t : BitVec 4) (s : State) : Host.Outcome State Fault Refusal := fire 0xB2 a b d e t (FCtx.memForm (atomicForm true false)) s
/-- AAND.ACQ (R228, R229). -/
def execAandAcq (a b d e : BitVec 5) (t : BitVec 4) (s : State) : Host.Outcome State Fault Refusal := fire 0xB3 a b d e t (FCtx.memForm (atomicForm true false)) s
/-- AOR.ACQ (R228, R229). -/
def execAorAcq (a b d e : BitVec 5) (t : BitVec 4) (s : State) : Host.Outcome State Fault Refusal := fire 0xB4 a b d e t (FCtx.memForm (atomicForm true false)) s
/-- AXOR.ACQ (R228, R229). -/
def execAxorAcq (a b d e : BitVec 5) (t : BitVec 4) (s : State) : Host.Outcome State Fault Refusal := fire 0xB5 a b d e t (FCtx.memForm (atomicForm true false)) s
/-- AXCHG.ACQ (R228, R229). -/
def execAxchgAcq (a b d e : BitVec 5) (t : BitVec 4) (s : State) : Host.Outcome State Fault Refusal := fire 0xB6 a b d e t (FCtx.memForm (atomicForm true false)) s
/-- ACAS.ACQ (R228, R229). -/
def execAcasAcq (a b d e : BitVec 5) (t : BitVec 4) (s : State) : Host.Outcome State Fault Refusal := fire 0xB7 a b d e t (FCtx.memForm (atomicForm true false)) s
/-- AADD.REL (R228, R229). -/
def execAaddRel (a b d e : BitVec 5) (t : BitVec 4) (s : State) : Host.Outcome State Fault Refusal := fire 0xB8 a b d e t (FCtx.memForm (atomicForm true true)) s
/-- AMIN.REL (R228, R229). -/
def execAminRel (a b d e : BitVec 5) (t : BitVec 4) (s : State) : Host.Outcome State Fault Refusal := fire 0xB9 a b d e t (FCtx.memForm (atomicForm true true)) s
/-- AMAX.REL (R228, R229). -/
def execAmaxRel (a b d e : BitVec 5) (t : BitVec 4) (s : State) : Host.Outcome State Fault Refusal := fire 0xBA a b d e t (FCtx.memForm (atomicForm true true)) s
/-- AAND.REL (R228, R229). -/
def execAandRel (a b d e : BitVec 5) (t : BitVec 4) (s : State) : Host.Outcome State Fault Refusal := fire 0xBB a b d e t (FCtx.memForm (atomicForm true true)) s
/-- AOR.REL (R228, R229). -/
def execAorRel (a b d e : BitVec 5) (t : BitVec 4) (s : State) : Host.Outcome State Fault Refusal := fire 0xBC a b d e t (FCtx.memForm (atomicForm true true)) s
/-- AXOR.REL (R228, R229). -/
def execAxorRel (a b d e : BitVec 5) (t : BitVec 4) (s : State) : Host.Outcome State Fault Refusal := fire 0xBD a b d e t (FCtx.memForm (atomicForm true true)) s
/-- AXCHG.REL (R228, R229). -/
def execAxchgRel (a b d e : BitVec 5) (t : BitVec 4) (s : State) : Host.Outcome State Fault Refusal := fire 0xBE a b d e t (FCtx.memForm (atomicForm true true)) s
/-- ACAS.REL (R228, R229). -/
def execAcasRel (a b d e : BitVec 5) (t : BitVec 4) (s : State) : Host.Outcome State Fault Refusal := fire 0xBF a b d e t (FCtx.memForm (atomicForm true true)) s

end Sys2Proof.Machine
end

