-- ==== Sys2Proof/Machine/Order.lean ====
section
/-! DEFINITION. The ordering forms 0xC0 to 0xC5 (R237-R241, R248, R252, R254) and the Lode lines as a form sees them (R244,
R245). -/

namespace Sys2Proof.Machine

/-! ## Lines (R244, R245) -/

/-- The line register that serves an element. -/
def Fabric.lineReg (f : Fabric) (el n : Nat) : Word :=
  BitVec.ofNat 32 (if isFatik el then f.bd (fatikStack el) (0x40 + n) else f.bk (blockOf el) (0x40 + n)).toNat
def lineV (w : Word) : Bool := bit w 31
def lineMode (w : Word) : Nat := fld w 30 29
def linePart (w : Word) : Nat := fld w 27 24
/-- Is a context enrolled on a line? -/
def lineCtx (w : Word) (c : Nat) : Bool := decide (c &&& fld w 15 8 = fld w 23 16 &&& fld w 15 8)
/-- Is an element's tap enrolled on line n? -/
def Element.enrolled (e : Element) (n : Nat) : Bool := if n < 32 then bit e.lodeen0 n else bit e.lodeen1 (n - 32)
/-- Is line n assigned to the element's partition? -/
def Fabric.lineMine (f : Fabric) (el n : Nat) : Bool := lineV (f.lineReg el n) && decide (linePart (f.lineReg el n) = f.partOf el)
/-- May a BARW or BARA use line n (R248)? -/
def Fabric.lineBarrier (f : Fabric) (el n : Nat) : Bool :=
  f.lineMine el n && decide (lineMode (f.lineReg el n) = 0) && (f.el el).enrolled n
/-- May a QWAIT or FIXQ wait on line n (R252)? -/
def Fabric.lineQuiet (f : Fabric) (el n : Nat) : Bool :=
  f.lineMine el n && (decide (lineMode (f.lineReg el n) = 1) || decide (lineMode (f.lineReg el n) = 2))

/-- Waves of a QUIET line start: the next one joins the agenda (R250). -/
def Fabric.startWaves (f : Fabric) (n : Nat) : Fabric :=
  if (f.root n).running then f
  else (f.modRoot n fun r => { r with running := true, clean := 0, podClean := 0, podSums := none }).post (.lodeWave n)

/-- Waves, or pod waves, that a line has run. -/
def Fabric.wavesOf (f : Fabric) (el n : Nat) : Nat := if lineMode (f.lineReg el n) = 2 then (f.root n).podWaves else (f.root n).waves

/-! ## The forms -/

/-- The scope within which the target of a set's memory form lies (R237). -/
def FCtx.targetScope (c : FCtx) : Nat :=
  match c.op with
  | 0x97 => c.f.scopeOf c.el c.ra.toNat
  | 0x9A => c.spaceScope c.ra
  | 0x9B => c.spaceScope c.ra
  | 0x9C => c.lanesScope (c.from c.ra 0)
  | 0x9D => c.lanesScope (c.from c.rb 0)
  | 0x9E => c.spaceScope (setFld c.ra 63 62 1)
  | 0x9F => c.spaceScope (setFld c.rb 63 62 1)
  | 0xA0 => c.lanesScope (c.tableLanes c.a)
  | 0xA3 => c.lanesScope (c.tableLanes c.a)
  | 0xA1 => c.lanesScope (c.tableLanes c.b)
  | 0xA4 => c.lanesScope (c.tableLanes c.b)
  | 0xA2 =>
    let d := c.elt.mem.word (c.ra.toNat + 8)
    if fld d 63 62 = 0 then 0 else c.f.scopeOf c.el (fld d 56 0)
  | op => if isAtomicOp op then c.spaceScope c.rb else 0

/-- Has the context earlier memory, copy, indirect or atomic forms within a scope that are not complete (R239)? -/
def FCtx.scopePending (c : FCtx) (s : Nat) : Bool :=
  c.elt.accessParked c.ctx c.s.stamp (fun x op => isMemForm op && decide ((c.f.ctxOf c.el x).targetScope ≤ s))
    || c.elt.pend.any fun p => decide (p.set.ctx = c.ctx) && decide (p.set.stamp < c.s.stamp) && isMemForm p.op && decide (p.scope ≤ s) && p.incomplete

/-- The status word of a failure record (R240). -/
def fenceStatus (r : FailRec) : DWord :=
  w64 (r.addr.toNat * 2 ^ 16 + r.count * 2 ^ 8 + r.causes.toNat * 2 + (if r.count = 0 then 1 else 0))

/-- An element with a context's failure record replaced. -/
def Element.setFail (e : Element) (ctx : Nat) (r : FailRec) : Element :=
  { e with slots := e.slots.map fun p => if p.2.ctx = ctx then (p.1, { p.2 with fail := r }) else p }

/-- FENCE (R239, R240). -/
def fenceForm (c : FCtx) : Except Stop Res :=
  let s := fld c.ra 2 0
  if 5 < s then c.format
  else if c.scopePending s then .error (.park .fence 0)
  else
    let r := ((c.elt.residentOf c.ctx).map (·.fail)).getD FailRec.empty
    .ok (Res.of (c.f.modEl c.el fun e => e.setFail c.ctx FailRec.empty) 0
      [c.scalar c.d true (fenceStatus r), ordTok c.e c.fout (decide (0 < r.count)) r.first] none)

/-- FAIL and cause that an ordering source carries (R241). -/
def FCtx.ordIn (c : FCtx) (sel : Nat) : Bool × BitVec 2 :=
  match c.tok sel with
  | some t => if t.ord then (bit (t.lane 0) 0, BitVec.ofNat 2 (fld (t.lane 0) 2 1)) else (false, 0)
  | none => (false, 0)

/-- ORDJ (R241): of two failures the cause is that of side A's token, whichever operand reads it. -/
def ordjForm (c : FCtx) : Except Stop Res :=
  let x := c.ordIn (if c.b = 0 then 0 else c.a)
  let y := c.ordIn (if c.b = 0 then c.a else c.b)
  let o := fun dst => ordTok dst c.fout (x.1 || y.1) (if x.1 then x.2 else if y.1 then y.2 else 0)
  c.emits [o c.d, o c.e]

/-- The set as it waits, with a mark and what goes with it. -/
def FCtx.marked (c : FCtx) (note : Nat) (arg : DWord) : MSet := { c.s with note := note, arg := arg }

/-- An arrival at a barrier line registers, and the line passes its AND (R247). -/
def Fabric.arrive (f : Fabric) (el ctx n : Nat) : Fabric :=
  (f.modEl el fun e => { e with arrived := setFld e.arrived n n 1, arrivedBy := tset e.arrivedBy n ctx }).post (.barrierRelease n)

/-- BARW and BARA (R248): `wait` is BARW. Note 1 marks a set whose arrival is registered, note 6 one that the release
reached, with Φ, and note 9 one it reached while the set waited for the answer to LODE: RESUME checks its line first (R255). -/
def barForm (wait : Bool) (c : FCtx) : Except Stop Res :=
  let n := fld c.ra 5 0
  if c.s.note = 6 then c.emits [c.scalar c.d true c.s.arg, c.ord c.e]
  else if !c.f.lineBarrier c.el n then .error (.trap .lode (w32 n))
  else if c.s.note = 9 then c.emits [c.scalar c.d true c.s.arg, c.ord c.e]
  else if c.s.note = 1 then .error (.park .lode n)
  else if c.elt.storesPending c.ctx c.s.stamp then .error (.park .fence 0)
  else if bit c.elt.arrived n then .error (.park .lode n)
  else if wait then .error (.hold (c.f.arrive c.el c.ctx n) (c.marked 1 0) .lode n)
  else .ok (Res.of (c.f.arrive c.el c.ctx n) 0 [c.ord c.d, c.ord c.e] none)

/-- QWAIT (R252): note 1 marks a set that waits since the wave in its arg, note 6 one that a declaration answered. -/
def qwaitForm (c : FCtx) : Except Stop Res :=
  let n := fld c.ra 5 0
  if c.s.note = 6 then c.emits [c.scalar c.d true c.s.arg, c.ord c.e]
  else if !c.f.lineQuiet c.el n then .error (.trap .lode (w32 n))
  else .error (.hold (c.f.startWaves n) (c.marked 1 (w64 (c.f.wavesOf c.el n))) .lode n)

/-- The line status word (R254). -/
def FCtx.lineStatus (c : FCtx) (n : Nat) : DWord :=
  let w := c.f.lineReg c.el n
  let r := c.f.root n
  if c.f.lineMine c.el n then
    w64 (2 ^ 31 + lineMode w * 2 ^ 29 + r.lastBusy.toNat * 2 ^ 28 + r.lastClean.toNat * 2 ^ 27 + (bit c.elt.arrived n).toNat * 2 ^ 26 + r.lastCount.toNat)
  else 0

/-- LODEQ (R254): bit 6 of a on a QUIET line of the partition starts waves. -/
def lodeqForm (c : FCtx) : Except Stop Res :=
  let n := fld c.ra 5 0
  let ask := bit c.ra 6 && c.f.lineMine c.el n && decide (lineMode (c.f.lineReg c.el n) = 1)
  let f := if ask then (c.f.startWaves n).modRoot n fun r => { r with asked := true } else c.f
  .ok (Res.of f 0 [c.scalar c.d true (c.lineStatus n), c.ord c.e] none)

/-- FENCE (R239). -/
def execFence (a b d e : BitVec 5) (t : BitVec 4) (s : State) : Host.Outcome State Fault Refusal := fire 0xC0 a b d e t fenceForm s
/-- ORDJ (R241). -/
def execOrdj (a b d e : BitVec 5) (t : BitVec 4) (s : State) : Host.Outcome State Fault Refusal := fire 0xC1 a b d e t ordjForm s
/-- BARW (R248). -/
def execBarw (a b d e : BitVec 5) (t : BitVec 4) (s : State) : Host.Outcome State Fault Refusal := fire 0xC2 a b d e t (barForm true) s
/-- BARA (R248). -/
def execBara (a b d e : BitVec 5) (t : BitVec 4) (s : State) : Host.Outcome State Fault Refusal := fire 0xC3 a b d e t (barForm false) s
/-- QWAIT (R252). -/
def execQwait (a b d e : BitVec 5) (t : BitVec 4) (s : State) : Host.Outcome State Fault Refusal := fire 0xC4 a b d e t qwaitForm s
/-- LODEQ (R254). -/
def execLodeq (a b d e : BitVec 5) (t : BitVec 4) (s : State) : Host.Outcome State Fault Refusal := fire 0xC5 a b d e t lodeqForm s

end Sys2Proof.Machine
end

