-- ==== Sys2Proof/Machine/Relation.lean ====
section
/-! DEFINITION. Relations (R261-R284): descriptors, members, tuple entries, the five algebras, insertion, and the relation
forms 0xC8 to 0xD5. What a form does at its members is done by its events, with the operations named here. -/

namespace Sys2Proof.Machine

/-! ## Descriptors and members (R261, R262, R264) -/

/-- A bound relation's descriptor: six words. -/
abbrev Rel := List DWord
def Rel.w (r : Rel) (i : Nat) : DWord := r.getD i 0
def Rel.no (r : Rel) : Nat := fld (r.w 0) 63 56
/-- Columns. -/
def Rel.arity (r : Rel) : Nat := fld (r.w 0) 55 54 + 1
def Rel.alg (r : Rel) : Nat := fld (r.w 0) 53 51
def Rel.wfmt (r : Rel) : Nat := fld (r.w 0) 50 47
def Rel.keyc (r : Rel) : Nat := fld (r.w 0) 46 43
def Rel.dual (r : Rel) : Bool := bit (r.w 0) 42
def Rel.strat (r : Rel) : Nat := fld (r.w 0) 41 38
def Rel.win (r : Rel) : Nat := fld (r.w 0) 37 35
def Rel.ninit (r : Rel) : Nat := fld (r.w 0) 31 0
def Rel.gw (r : Rel) : Nat := fld (r.w 1) 47 40 + 1
def Rel.init (r : Rel) : Nat := fld (r.w 2) 56 0
def Rel.gbase (r : Rel) : Nat := fld (r.w 3) 56 0
def Rel.idx (r : Rel) : Nat := fld (r.w 4) 56 0
def Rel.nv (r : Rel) : Nat := fld (r.w 5) 31 0
/-- M, the members of the home group. -/
def Rel.members (r : Rel) : Nat := r.gw * (fld (r.w 1) 39 32 + 1)
/-- The columns of the key, ascending. -/
def Rel.keyCols (r : Rel) : List Nat := (List.range 4).filter fun c => decide (c < 4) && (r.keyc.testBit c)

/-- The element of member m; none off the package. -/
def Rel.memberEl (r : Rel) (m : Nat) : Option Nat :=
  let x := fld (r.w 1) 63 56 + m % r.gw * (if bit (r.w 1) 31 then 2 else 1)
  let y := fld (r.w 1) 55 48 + m / r.gw
  if x < 256 ∧ y < 256 then some (elAt x y) else none

/-- The weight format that an algebra fixes (R269): BOOL and COUNT N32, MINI I32, MINF and WVIT F32. -/
def algFmt (alg : Nat) : Nat := if alg ≤ 1 then 6 else if alg = 2 then 2 else 10

/-- Does a descriptor break R261, R275 or R289? -/
def Rel.bad (r : Rel) : Bool :=
  decide (r.no = 255) || decide (4 < r.alg) || decide (r.wfmt ≠ algFmt r.alg) || decide (fld (r.w 0) 34 32 ≠ 0)
    || decide (fld (r.w 1) 30 0 ≠ 0) || decide (fld (r.w 2) 63 57 ≠ 0) || decide (fld (r.w 3) 63 57 ≠ 0)
    || decide (r.keyc = 0) || decide (r.keyc / 2 ^ r.arity ≠ 0) || decide (r.init % 8 ≠ 0) || decide (r.gbase % 8 ≠ 0)
    || decide (1024 < r.members)
    || (if r.dual then decide (fld (r.w 4) 63 57 ≠ 0) || decide (fld (r.w 5) 63 32 ≠ 0) || decide (r.arity ≠ 2) || decide (r.keyc ≠ 3)
          || decide (r.nv = 0) || decide (r.idx % 65536 ≠ 0)
        else decide (r.w 4 ≠ 0) || decide (r.w 5 ≠ 0))

/-- The directory entry of a relation number in a partition. -/
def Fabric.rel (f : Fabric) (part no : Nat) : Option Rel := tfind f.rels (part * 256 + no)

/-- Capacity of a REL window (R264). -/
def relCap (w : Word) : Nat := min 12288 ((winLen w - 64) / 32)

/-- A member's partition: its element, window start and capacity E. -/
structure Member where
  el : Nat
  base : Nat
  cap : Nat
  deriving DecidableEq, Repr

/-- Member m of a relation, where its window is bound to it (R273). -/
def Fabric.member (f : Fabric) (r : Rel) (m : Nat) : Option Member :=
  if r.members ≤ m then none
  else (r.memberEl m).bind fun el =>
    let w := tget (0 : Word) (f.el el).wins r.win
    let h0 := (f.el el).mem.word (winBase w)
    if winRole w = 4 ∧ bit h0 30 ∧ fld h0 63 56 = r.no then some ⟨el, winBase w, relCap w⟩ else none

/-- Header word i of a member. -/
def Fabric.relHdr (f : Fabric) (x : Member) (i : Nat) : DWord := (f.el x.el).mem.word (x.base + 8 * i)
/-- Header word i of a member written. -/
def Fabric.setHdr (f : Fabric) (x : Member) (i : Nat) (v : DWord) : Fabric :=
  f.modEl x.el fun e => e.putWord (x.base + 8 * i) v
/-- ROUNDS modulo 4 of a member. -/
def Fabric.rounds (f : Fabric) (x : Member) : Nat := (f.relHdr x 1).toNat % 4
/-- Is a member closed? -/
def Fabric.relClosed (f : Fabric) (x : Member) : Bool := bit (f.relHdr x 0) 31

/-! ## Tuple entries (R265-R267, R270) -/

/-- An entry: four columns as two words, weight, status, witness. -/
structure Ent where
  k0 : DWord
  k1 : DWord
  wt : Word
  st : Word
  wit : DWord
  deriving DecidableEq, Repr

def Ent.col (e : Ent) (c : Nat) : Nat :=
  match c with | 0 => fld e.k0 31 0 | 1 => fld e.k0 63 32 | 2 => fld e.k1 31 0 | _ => fld e.k1 63 32
def Ent.used (e : Ent) : Bool := bit e.st 31
def Ent.retr (e : Ent) : Bool := bit e.st 2
def Ent.susp (e : Ent) : Bool := bit e.st 3
def Ent.live (e : Ent) : Bool := e.used && !e.retr && !e.susp
def Ent.neg2 (e : Ent) : Bool := bit e.st 4
def Ent.stamp (e : Ent) : Nat := fld e.st 1 0
def Ent.delta (e : Ent) (r : Nat) : Bool := decide (e.stamp = r % 4)
/-- OLD: neither DELTA nor NEXT. -/
def Ent.old (e : Ent) (r : Nat) : Bool := !e.delta r && decide (e.stamp ≠ (r + 1) % 4)

/-- No reference (R267). -/
def noRef : Nat := 0xFFFFFFFF
/-- The address of entry j of a member. -/
def entAddr (x : Member) (j : Nat) : Nat := x.base + 64 + 32 * j

/-- Entry j of a member. -/
def Fabric.ent (f : Fabric) (x : Member) (j : Nat) : Ent :=
  let m := (f.el x.el).mem
  let a := entAddr x j
  ⟨m.word a, m.word (a + 8), w32 (m.readN (a + 16) 4), w32 (m.readN (a + 20) 4), m.word (a + 24)⟩

/-- Entry j of a member written. -/
def Fabric.setEnt (f : Fabric) (x : Member) (j : Nat) (e : Ent) : Fabric :=
  f.modEl x.el fun u => u.putWords (entAddr x j) [e.k0, e.k1, w64 (e.wt.toNat + e.st.toNat * 2 ^ 32), e.wit]

/-- The key of four column values. -/
def mkKey (cs : List Nat) : DWord × DWord :=
  (w64 (cs.getD 0 0 + cs.getD 1 0 * 2 ^ 32), w64 (cs.getD 2 0 + cs.getD 3 0 * 2 ^ 32))
/-- The reference of slot j of member m. -/
def mkRef (r : Rel) (m j : Nat) : Nat := r.no * 2 ^ 24 + m * 16384 + j

/-- The relation, member and slot that a reference names in a partition (R267). -/
def Fabric.refAt (f : Fabric) (part ref : Nat) : Option (Rel × Member × Nat) :=
  if ref = noRef then none
  else (f.rel part (ref / 2 ^ 24)).bind fun r =>
    (f.member r (ref % 2 ^ 24 / 16384)).bind fun x => if ref % 16384 < x.cap then some (r, x, ref % 16384) else none

/-- An unused entry. -/
def Ent.none : Ent := ⟨0, 0, 0, 0, 0⟩

/-- The entry a reference names; an unused one where it names none. -/
def Fabric.entOf (f : Fabric) (part ref : Nat) : Ent :=
  match f.refAt part ref with
  | some (_, x, j) => f.ent x j
  | none => Ent.none

/-- May an engine request of an element reach another element (R398)? -/
def Fabric.engineMay (f : Fabric) (el tgt : Nat) (p : Pend) : Bool :=
  decide (tgt = el) || f.blkAllows (blockOf tgt) (f.partOf el) (Image.priv ((f.el el).imageOf p.set.ctx)) (if isFatik el then 1 else 0) 3

/-- Is the home of a reference open to the issuer? A reference that names no entry is read nowhere. -/
def Fabric.refMay (f : Fabric) (el : Nat) (p : Pend) (ref : Nat) : Bool :=
  match f.refAt (f.partOf el) ref with
  | some (_, x, _) => f.engineMay el x.el p
  | none => true

/-! ## Homes and chains (R263) -/

/-- The hash of a key. -/
def keyHash (r : Rel) (e : Ent) : Nat :=
  let k := r.keyCols.foldl (fun k c => (k ^^^ e.col c) * 0x01000193 % 2 ^ 32) 0x811C9DC5
  k ^^^ (k / 2 ^ 15)
/-- The home member of a key. -/
def homeMember (r : Rel) (e : Ent) : Nat := keyHash r e % max 1 r.members
/-- The first slot of a key's chain. -/
def homeStart (r : Rel) (e : Ent) (cap : Nat) : Nat := keyHash r e / max 1 r.members % max 1 cap

/-- The used slots of a chain in order, and the free slot that ends it. -/
def Fabric.chain (f : Fabric) (x : Member) (j : Nat) : Nat → List (Nat × Ent) × Option Nat
  | 0 => ([], none)
  | n + 1 =>
    let e := f.ent x j
    if e.used then
      let rest := f.chain x ((j + 1) % x.cap) n
      ((j, e) :: rest.1, rest.2)
    else ([], some j)

/-- The chain of a key at its home. -/
def Fabric.chainOf (f : Fabric) (r : Rel) (x : Member) (key : Ent) : List (Nat × Ent) × Option Nat :=
  f.chain x (homeStart r key x.cap) x.cap

/-! ## The algebras (R269) -/

/-- Is a weight a NaN? -/
def nanW (w : Word) : Bool := (fread f32P (w.setWidth 64)).isNan

/-- Is x better than the weight y an entry holds? -/
def betterW (alg : Nat) (x y : Word) : Bool :=
  match alg with
  | 0 => decide (y ||| x ≠ y)
  | 1 => false
  | 2 => decide (sint 32 (x.setWidth 64) < sint 32 (y.setWidth 64))
  | 3 => !nanW x && decide ((minmaxF f32P false (y.setWidth 64) (x.setWidth 64)).1 ≠ y.setWidth 64)
  | _ => !nanW x && decide ((minmaxF f32P true (y.setWidth 64) (x.setWidth 64)).1 ≠ y.setWidth 64)

/-- A float result in binary32 under RNE. -/
def f32Rne (r : FR) : Word := BitVec.ofNat 32 (finishFR f32P .rne 0 r).bits.toNat

/-- The conjunction of two weights. -/
def conjW (alg : Nat) (x y : Word) : Word :=
  match alg with
  | 0 => x &&& y
  | 1 => w32 (min (x.toNat * y.toNat) 0xFFFFFFFF)
  | 2 => BitVec.ofNat 32 (keepBits 32 (clampInt .i32 (sint 32 (x.setWidth 64) + sint 32 (y.setWidth 64)))).toNat
  | 3 => f32Rne (addFV .rne (fread f32P (x.setWidth 64)) (fread f32P (y.setWidth 64)))
  | _ => f32Rne (mulFV (fread f32P (x.setWidth 64)) (fread f32P (y.setWidth 64)))

/-- 1 - p in binary32, RNE. -/
def oneMinus (p : Word) : Word := f32Rne (addFV .rne (fread f32P 0x3F800000) (negFV (fread f32P (p.setWidth 64))))

/-- A weight that raises DATA where it would be written. -/
def badW (alg : Nat) (w : Word) : Bool :=
  (decide (3 ≤ alg) && nanW w) || (decide (alg = 4) && decide (w ≠ 0x80000000) && decide (0x3F800000 < w.toNat))

/-! ## Insertion (R268, R278, R294) -/

/-- Order of two witnesses of equal weight: the lower is kept (R269, or R294 for an edge program: by the key of parent 1, a missing
parent last; the key of an entry not in use reads zero, R265). -/
def Fabric.witLess (f : Fabric) (part : Nat) (edge : Bool) (x y : DWord) : Bool :=
  if edge then
    let rank := fun w : DWord =>
      let e := f.entOf part (fld w 63 32)
      if fld w 63 32 = noRef then 2 ^ 32 else if e.used then e.col 0 else 0
    decide (rank x < rank y) || (decide (rank x = rank y) && decide (fld x 31 0 < fld y 31 0))
  else decide (x.toNat < y.toNat)

/-- What an insertion did: the fabric, the answer code and the reference. -/
abbrev Ins := Fabric × Nat × Nat

/-- An insertion at the member x of number m: `key` carries key and weight, `wit` the witness, `stamp` what a change
writes, `full` the information word of RELFULL (R268), `closed` that of STRATUM. -/
def Fabric.insert (f : Fabric) (part : Nat) (r : Rel) (m : Nat) (x : Member) (key : Ent) (wit : DWord) (neg2 edge : Bool) (stamp : Nat)
    (full closed data : Word) : Except (Cause × Word) Ins :=
  if f.relClosed x then .error (.stratum, closed)
  else
    let ch := f.chainOf r x key
    let fresh : Ent := ⟨key.k0, key.k1, key.wt, w32 (2 ^ 31 + neg2.toNat * 16 + stamp % 4), wit⟩
    let change := fun (j code : Nat) (e : Ent) =>
      let f := f.setEnt x j e
      (f.setHdr x 3 (f.relHdr x 3 + 1), code, mkRef r m j)
    match ch.1.find? fun p => decide (p.2.k0 = key.k0) && decide (p.2.k1 = key.k1) with
    | none =>
      match ch.2 with
      | none => .error (.relFull, full)
      | some j =>
        if 7 * x.cap / 8 ≤ (f.relHdr x 2).toNat then .error (.relFull, full)
        else if badW r.alg key.wt then .error (.data, data)
        else .ok (let y := change j 1 fresh; (y.1.setHdr x 2 (y.1.relHdr x 2 + 1), y.2))
    | some (j, e) =>
      if e.retr ∨ e.susp ∨ betterW r.alg key.wt e.wt then
        let w := if e.retr ∨ e.susp then key.wt else if r.alg = 0 then e.wt ||| key.wt else key.wt
        if badW r.alg w then .error (.data, data)
        else .ok (change j (if e.retr then 1 else if e.susp then 3 else 2) { fresh with wt := w })
      else if r.alg = 1 ∧ e.wt.toNat < min (e.wt.toNat + key.wt.toNat) 0xFFFFFFFF then
        .ok (change j 2 { e with wt := w32 (min (e.wt.toNat + key.wt.toNat) 0xFFFFFFFF), st := setFld e.st 1 0 stamp })
      else if e.wt = key.wt ∧ (2 ≤ r.alg ∨ edge) ∧ f.witLess part edge wit e.wit then
        .ok (f.setEnt x j { e with wit := wit, st := setFld e.st 4 4 neg2.toNat }, 0, mkRef r m j)
      else .ok (f, 0, mkRef r m j)

/-! ## The forms' shared steps -/

/-- The target relation of a form's control literal, or ILLEGAL with its number (R273). -/
def FCtx.target (c : FCtx) : Except Stop Rel :=
  match c.f.rel c.part (fld c.control 7 0) with
  | some r => .ok r
  | none => .error (.trap .illegal (w32 (fld c.control 7 0)))

/-- The two references of an a operand (R273): a reference in N32, a pair in N64. -/
def FCtx.parents (c : FCtx) : Except Stop (Nat × Nat) :=
  if c.fin = 6 then .ok (fld (c.va 0) 31 0, noRef) else if c.fin = 7 then .ok (fld (c.va 0) 63 32, fld (c.va 0) 31 0) else c.format

/-- An engine request whose work an event does: the record waits, and the event is posted. A firing whose ENTER or SPAWN waits for a
grant makes its request at the grant; no rule says when it begins (R11, R92, R137; DESIGN CHOICE, log 7). -/
def FCtx.engineWait (c : FCtx) (p : Pend) (evs : List Ev) : Except Stop Res :=
  .ok (Res.of (if c.granted then c.f else c.f.postAll evs) 0 [] (some p))

/-- A raw value and an ordering token of a record. -/
def Pend.raw (p : Pend) (dst : Nat) (v : DWord) : Out := p.value dst false 1 [v]
def Pend.ordOut (p : Pend) (dst : Nat) : Out := ordTok dst p.fout false 0
/-- The answer word of a TINS or TDEL (R274). -/
def answerWord (code ref : Nat) : DWord := w64 (code * 2 ^ 32 + ref)

/-- The tokens of a TINS or TDEL. -/
def answerOuts (p : Pend) (code ref : Nat) : List Out := [p.raw p.d (answerWord code ref), p.ordOut p.e]
/-- The tokens of a relation or edge form that DISCARD completes with SAME or zero answers (R285, R300). -/
def zeroOuts (p : Pend) : List Out :=
  if p.op = 0xCA ∨ p.op = 0xD2 then answerOuts p 0 noRef
  else if p.op = 0xC9 ∨ p.op = 0xD3 then p.outs ++ [p.raw p.e 0]
  else if 0xCB ≤ p.op ∧ p.op ≤ 0xCD then [p.raw p.e 0]
  else if p.op = 0xCE ∨ p.op = 0xD5 then [p.raw p.d 0, p.raw p.e 0]
  else if p.op = 0xDA then [p.ordOut p.d, p.ordOut p.e]
  else [p.raw p.d 0, p.ordOut p.e]
/-- A relation or edge form: note 10 marks a set whose trap at issue DISCARD answered (R285, R300). -/
def FCtx.relForm (body : FCtx → Except Stop Res) (c : FCtx) : Except Stop Res :=
  if c.s.note = 10 then .ok (Res.of c.f 0 (zeroOuts c.pend) none) else body c

/-- Head selectors of TINS and TDEL (R278): one for each column, or FORMAT. -/
def FCtx.selectors (c : FCtx) (r : Rel) (p2 : Nat) : Except Stop (List Nat) :=
  let ss := (List.range r.arity).map fun k => fld c.control (10 + 3 * k) (8 + 3 * k)
  if fld c.control 31 21 ≠ 0 ∨ (p2 = noRef ∧ ss.any (4 ≤ ·)) then c.format else .ok ss

/-- The head key of two parents under selectors. -/
def headKey (ss : List Nat) (p1 p2 : Ent) : DWord × DWord := mkKey (ss.map fun s => if s < 4 then p1.col s else p2.col (s - 4))

/-- The phase of an EPROG or EDENS that has fetched its index area from a peer package. -/
abbrev fetchedPhase : Nat := 72

/-- The events that begin a form's work at its members, once it has no grant to wait for: one alone while an EPROG or EDENS has an index
area in a peer package to fetch (R205). -/
def startEvents (f : Fabric) (el : Nat) (p : Pend) : List Ev :=
  let away := decide (p.phase ≠ fetchedPhase) && (f.rel (f.partOf el) (fld p.a 55 48)).any fun e => (podPkg f (Rel.idx e)).isSome
  let each := fun (g : Nat → Ev) => match f.rel (f.partOf el) p.base with | some r => (List.range r.members).map g | none => []
  match p.op with
  | 0xC8 => [.rbindMember el p.id 0]
  | 0xC9 => [.relationScanVisit el p.id]
  | 0xD3 => [.relationScanVisit el p.id]
  | 0xCA => [.tupleInsertAtHome el p.id]
  | 0xCB => [.probeAtHome el p.id]
  | 0xCC => [.probeAtHome el p.id]
  | 0xCD => [.probeAtHome el p.id]
  | 0xCE => [.probeAtHome el p.id]
  | 0xCF => each fun m => .roundAtMember el p.id m
  | 0xD1 => each fun m => .closeAtMember el p.id m
  | 0xD2 => [.tupleDeleteAtHome el p.id]
  | 0xD4 => [.gradientStep el p.id]
  | 0xD5 => [.probeAtHome el p.id]
  | 0xD8 => if away then [.pushSourceVisit el p.id 0] else each fun m => if bit p.a 39 then .pullVertexVisit el p.id m else .pushSourceVisit el p.id m
  | 0xD9 => if away then [.edensCount el p.id 0] else each fun m => .edensCount el p.id m
  | _ => []

/-- A relation form's record starts its work. `base` of the record holds the relation whose members do it. -/
def FCtx.begin (c : FCtx) (p : Pend) : Except Stop Res := c.engineWait p (startEvents c.f c.el p)

/-! ## The forms -/

/-- RBIND (R275, R289): the descriptor and the members are checked at issue. -/
def rbindForm (c : FCtx) : Except Stop Res :=
  let a := c.ra.toNat
  if !inElem a 48 then alignAt a
  else
    let r : Rel := c.elt.mem.words a 6
    if r.bad then c.format
    else
      let fault := (List.range r.members).findSome? fun m =>
        match r.memberEl m with
        | none => some (w32 m)
        | some x =>
          if c.f.partOf x ≠ c.part then some (w32 m)
          else if winRole (tget (0 : Word) (c.f.el x).wins r.win) ≠ 4 then some (w32 (2 ^ 31 + m)) else none
      match fault with
      | some w => .error (.trap .access w)
      | none => c.begin { c.pend with left := 1, args := r, base := r.no }

/-- RULE and TREDR (R276): the issuer's own partition. -/
def scanForm (c : FCtx) : Except Stop Res :=
  c.target.bind fun r =>
    match (List.range r.members).find? fun m => r.memberEl m == some c.el with
    | none => c.illegal
    | some m =>
      if (c.f.member r m).isNone then .error (.trap .illegal (w32 r.no))
      else c.begin { c.pend with left := 1, base := r.no, a := w64 m, b := if c.op = 0xC9 ∧ bit c.control 8 then 1 else 0 }

/-- TINS (R278). -/
def tinsForm (c : FCtx) : Except Stop Res :=
  c.target.bind fun r =>
    if c.vec then c.format
    else c.parents.bind fun ps => (c.selectors r ps.2).bind fun ss =>
      c.begin { c.pend with left := 1, base := r.no, a := w64 ps.1, b := w64 ps.2, args := ss.map w64, cnt := fld c.control 20 20 }

/-- TPROBE and TNOT (R277): a selector for each key column, or for every column. -/
def probeForm (neg : Bool) (c : FCtx) : Except Stop Res :=
  c.target.bind fun r =>
    if c.vec ∨ c.fin ≠ 6 then c.format
    else
      let cols := if neg then List.range r.arity else r.keyCols
      let ss := (List.range cols.length).map fun k => fld c.control (11 + 4 * k) (8 + 4 * k)
      if ss.any (4 ≤ ·) then c.format
      else c.begin { c.pend with left := 1, base := r.no, a := w64 (fld (c.va 0) 31 0), args := ss.map w64 }

/-- ROUND and RCLOSE (R280, R282): every member. -/
def membersForm (c : FCtx) : Except Stop Res :=
  c.target.bind fun r => c.begin { c.pend with left := r.members, base := r.no, b := if bit c.control 8 then 1 else 0 }

/-- FIXQ's line faults (R281): the faulting line. -/
def Fabric.fixqFault (f : Fabric) (el : Nat) (ctl : Word) : Option Nat :=
  let q := fld ctl 5 0
  let k := fld ctl 13 8
  if !f.lineQuiet el q then some q
  else if k = q || !f.lineMine el k || decide (lineMode (f.lineReg el k) ≠ lineMode (f.lineReg el q)) || (f.root k).running then some k
  else none

/-- FIXQ (R281): note 1 marks a set that waits for a declaration on q, note 7 one whose pass runs, note 6 one with its
result. -/
def fixqForm (c : FCtx) : Except Stop Res :=
  if c.s.note = 6 then c.emits [c.scalar c.d true c.s.arg, c.ord c.e]
  else match c.f.fixqFault c.el c.control with
    | some n => .error (.trap .lode (w32 n))
    | none => .error (.hold (c.f.startWaves (fld c.control 5 0)) (c.marked 1 0) .lode (fld c.control 5 0))

/-- TDEL (R279). -/
def tdelForm (c : FCtx) : Except Stop Res :=
  c.target.bind fun r =>
    if c.vec then c.format
    else c.parents.bind fun ps =>
      if c.fin = 6 then
        if (c.f.refAt c.part ps.1).isNone then .error (.trap .illegal (w32 ps.1))
        else c.begin { c.pend with left := 1, base := r.no, a := w64 ps.1, b := w64 noRef }
      else (c.selectors r ps.2).bind fun ss =>
        c.begin { c.pend with left := 1, base := r.no, a := w64 ps.1, b := w64 ps.2, args := ss.map w64 }

/-- TGRAD (R283): a's raw bits hold the reference, b the gradient, in the input format FX64 (R274). The record's args are the branches still to walk, three
words each. -/
def tgradForm (c : FCtx) : Except Stop Res :=
  c.target.bind fun r =>
    if c.vec ∨ c.fin ≠ Fmt.fx64.code ∨ fld (c.va 0) 63 32 ≠ 0 ∨ r.alg < 3 then c.format
    else c.begin { c.pend with left := 1, base := r.no, args := [w64 (fld (c.va 0) 31 0), c.vb 0, 0] }

/-- What TWIT sends of an entry (R284): the witness, then status and weight. -/
def twitWords (e : Ent) : List DWord :=
  if e.used then [e.wit, w64 (e.st.toNat * 2 ^ 32 + e.wt.toNat)] else [0xFFFFFFFFFFFFFFFF, 0]

/-- TWIT (R284). A request that the home's access table turns away parks there (R285, R398), so it goes there. -/
def twitForm (c : FCtx) : Except Stop Res :=
  c.target.bind fun r =>
    let ref := fld (c.va 0) 31 0
    if c.vec ∨ c.fin ≠ 6 then c.format
    else if !c.f.refMay c.el c.pend ref then c.begin { c.pend with left := 1, base := r.no, a := w64 ref }
    else c.emits ((twitWords (c.f.entOf c.part ref)).zip [c.d, c.e] |>.map fun x => c.scalar x.2 true x.1)

/-- RBIND (R275). -/
def execRbind (a b d e : BitVec 5) (t : BitVec 4) (s : State) : Host.Outcome State Fault Refusal := fire 0xC8 a b d e t (FCtx.relForm rbindForm) s
/-- RULE (R276). -/
def execRule (a b d e : BitVec 5) (t : BitVec 4) (s : State) : Host.Outcome State Fault Refusal := fire 0xC9 a b d e t (FCtx.relForm scanForm) s
/-- TINS (R278). -/
def execTins (a b d e : BitVec 5) (t : BitVec 4) (s : State) : Host.Outcome State Fault Refusal := fire 0xCA a b d e t (FCtx.relForm tinsForm) s
/-- TPROBE (R277). -/
def execTprobe (a b d e : BitVec 5) (t : BitVec 4) (s : State) : Host.Outcome State Fault Refusal := fire 0xCB a b d e t (FCtx.relForm (probeForm false)) s
/-- TPROBE.D (R277). -/
def execTprobeD (a b d e : BitVec 5) (t : BitVec 4) (s : State) : Host.Outcome State Fault Refusal := fire 0xCC a b d e t (FCtx.relForm (probeForm false)) s
/-- TPROBE.ALL (R277). -/
def execTprobeAll (a b d e : BitVec 5) (t : BitVec 4) (s : State) : Host.Outcome State Fault Refusal := fire 0xCD a b d e t (FCtx.relForm (probeForm false)) s
/-- TNOT (R277). -/
def execTnot (a b d e : BitVec 5) (t : BitVec 4) (s : State) : Host.Outcome State Fault Refusal := fire 0xCE a b d e t (FCtx.relForm (probeForm true)) s
/-- ROUND (R280). -/
def execRound (a b d e : BitVec 5) (t : BitVec 4) (s : State) : Host.Outcome State Fault Refusal := fire 0xCF a b d e t (FCtx.relForm membersForm) s
/-- FIXQ (R281). -/
def execFixq (a b d e : BitVec 5) (t : BitVec 4) (s : State) : Host.Outcome State Fault Refusal := fire 0xD0 a b d e t (FCtx.relForm fixqForm) s
/-- RCLOSE (R282). -/
def execRclose (a b d e : BitVec 5) (t : BitVec 4) (s : State) : Host.Outcome State Fault Refusal := fire 0xD1 a b d e t (FCtx.relForm membersForm) s
/-- TDEL (R279). -/
def execTdel (a b d e : BitVec 5) (t : BitVec 4) (s : State) : Host.Outcome State Fault Refusal := fire 0xD2 a b d e t (FCtx.relForm tdelForm) s
/-- TREDR (R276). -/
def execTredr (a b d e : BitVec 5) (t : BitVec 4) (s : State) : Host.Outcome State Fault Refusal := fire 0xD3 a b d e t (FCtx.relForm scanForm) s
/-- TGRAD (R283). -/
def execTgrad (a b d e : BitVec 5) (t : BitVec 4) (s : State) : Host.Outcome State Fault Refusal := fire 0xD4 a b d e t (FCtx.relForm tgradForm) s
/-- TWIT (R284). -/
def execTwit (a b d e : BitVec 5) (t : BitVec 4) (s : State) : Host.Outcome State Fault Refusal := fire 0xD5 a b d e t (FCtx.relForm twitForm) s

end Sys2Proof.Machine
end

