-- ==== Sys2Proof/Machine/Edge.lean ====
section
/-! DEFINITION. Edge programs (R289-R300): the descriptor and its checks, the transfer, the index area, and the forms 0xD8 to
0xDA. -/

namespace Sys2Proof.Machine

/-! ## The index area (R290) -/

/-- The master that reads or writes an index area: the issuer, by an engine request (R362, R398). -/
def Fabric.engMaster (f : Fabric) (el ctx : Nat) : Master :=
  ⟨f.partOf el, Image.priv ((f.el el).imageOf ctx), if isFatik el then 1 else 0, 3⟩

/-- T, the edge count of an index area, or the fault of its translation. -/
def Fabric.edgeCount (f : Fabric) (m : Master) (r : Rel) : Except (Cause × Word) Nat := f.vread m 4 r.idx

/-- Where the offsets and entries of an index begin: CSR, or CSC. -/
def indexAt (r : Rel) (t : Nat) (csc : Bool) : Nat × Nat :=
  let p1 := 8 + 4 * (r.nv + 1)
  let p2 := (p1 + 4 * t + 7) / 8 * 8
  if csc then (p2, p2 + 4 * (r.nv + 1)) else (8, p1)

/-- Bytes of an index area of t edges. -/
def indexLen (r : Rel) (t : Nat) : Nat := (indexAt r t true).2 + 4 * t

/-- Does an index area lie in a peer package (R205)? A form fetches its words before it reads them. -/
def Fabric.indexAway (f : Fabric) (r : Rel) : Bool := (podPkg f r.idx).isSome

/-- A reader of an index area: 4 bytes at a virtual address, or the fault of their translation (R300, R363). -/
abbrev IndexGet : Type := Nat → Except (Cause × Word) Nat

/-- How a record reads an index area: by its address, or in the words that it has fetched, which follow its descriptor's eight. -/
def Fabric.indexGet (f : Fabric) (el : Nat) (p : Pend) (r : Rel) : IndexGet :=
  if f.indexAway r then fun a => .ok (fld (p.args.getD (8 + (a - r.idx) / 8) 0) (8 * (a % 8) + 31) (8 * (a % 8)))
  else fun a => f.vread (f.engMaster el p.set.ctx) 4 a

/-- The bounds of row v of an index. -/
def rowBounds (g : IndexGet) (r : Rel) (csc : Bool) (v : Nat) : Except (Cause × Word) (Nat × Nat) :=
  if r.nv ≤ v then .ok (0, 0)
  else (g r.idx).bind fun t =>
    let a := r.idx + (indexAt r t csc).1 + 4 * v
    (g a).bind fun lo => (g (a + 4)).map fun hi => (lo, hi)

/-- Consecutive 4-byte words. -/
def indexWordsAt (g : IndexGet) (addr : Nat) : Nat → Except (Cause × Word) (List Nat)
  | 0 => .ok []
  | n + 1 => (g addr).bind fun x => (indexWordsAt g (addr + 4) n).map fun (r : List Nat) => x :: r

/-- The edge references of row v of an index, or the fault of their translation. -/
def indexRow (g : IndexGet) (r : Rel) (csc : Bool) (v : Nat) : Except (Cause × Word) (List Nat) :=
  (rowBounds g r csc v).bind fun b => (g r.idx).bind fun t => indexWordsAt g (r.idx + (indexAt r t csc).2 + 4 * b.1) (b.2 - b.1)

/-! ## The descriptor (R292, R293) -/

/-- The forms a transfer word may be, by opcode: those that read no third operand and do nothing beyond their result. -/
def transferForm (op : Nat) : Option (FCtx → Except Stop Res) :=
  match op with
  | 0 => some addForm
  | 1 => some subForm
  | 2 => some mulForm
  | 3 => some mulhForm
  | 5 => some divForm
  | 6 => some remForm
  | 7 => some negForm
  | 8 => some absForm
  | 9 => some minForm
  | 10 => some maxForm
  | 11 => some andForm
  | 12 => some orForm
  | 13 => some xorForm
  | 14 => some notForm
  | 15 => some shlForm
  | 16 => some shrForm
  | 17 => some sarForm
  | 18 => some rotForm
  | 19 => some clzForm
  | 20 => some popcForm
  | 21 => some brevForm
  | 22 => some bfxForm
  | 24 => some cmpForm
  | 25 => some selForm
  | 26 => some addSatForm
  | 27 => some subSatForm
  | 28 => some mulSatForm
  | 30 => some negSatForm
  | 31 => some absSatForm
  | 32 => some shlSatForm
  | 40 => some faddForm
  | 41 => some fsubForm
  | 42 => some fmulForm
  | 44 => some fminForm
  | 45 => some fmaxForm
  | 46 => some fabsForm
  | 47 => some fnegForm
  | _ => none

/-- May a transfer word of a weight format be this one? -/
def transferOk (wfmt : Nat) (w : Word) : Bool :=
  let op := (fieldOp w).toNat
  let src := fun (rl : Role) (x : Nat) => decide (rl = .unread) || decide (x ≤ 5) || decide (x = 0x19)
  (fieldD w).toNat == 0x1F && (fieldE w).toNat == 0x1F && (fieldT w).toNat == 0
    && (transferForm op).isSome && (if wfmt = 10 then decide (0x28 ≤ op) else decide (op ≤ 0x20))
    && src (formOf op).ra (fieldA w).toNat && src (formOf op).rb (fieldB w).toNat

/-- The transfer words of a descriptor. -/
def transferWords (ds : List DWord) : List Word :=
  ([fld (ds.getD 2 0) 31 0, fld (ds.getD 2 0) 63 32, fld (ds.getD 3 0) 31 0, fld (ds.getD 3 0) 63 32].map w32).take (fld (ds.getD 0 0) 35 32)

/-- An image that holds the four transfer literals as raw bits and rounds with RNE. -/
def transferImage (ds : List DWord) (wfmt : Nat) : Image :=
  (List.range 48).map fun i =>
    if i = 24 then ds.getD 4 0 else if i = 25 then ds.getD 5 0 else if i = 32 then 0x3333
    else if i = 42 then w64 (wfmt * 16 + wfmt) else if i = 5 then 1 else 0

/-- A scalar token of a weight. -/
def weightTok (side : Bool) (wfmt : Nat) (w : Word) : Tok := ⟨mkHdr 0 0 0 side wfmt 1 0 false false false false, 1, 0, [w.setWidth 64]⟩

/-- One transfer word on a running value (R293): the value its form gives to a destination. -/
def transferStep (f : Fabric) (ds : List DWord) (wfmt : Nat) (x e : Word) (w : Word) : Word :=
  let c : FCtx :=
    { f := f, el := 0, s := { MSet.none with a := some (weightTok false wfmt x), b := some (weightTok true wfmt e) }, img := transferImage ds wfmt,
      op := (fieldOp w).toNat, a := (fieldA w).toNat, b := (fieldB w).toNat, d := 0x1F, e := 0x1F, t := 0, vec := false, len := 1, valid := 1, base := 0 }
  match transferForm c.op with
  | none => x
  | some g =>
    match g c with
    | .ok r => match r.outs.head? with | some o => BitVec.ofNat 32 (o.lanes.getD 0 0).toNat | none => x
    | .error _ => x

/-- The candidate weight (R293). -/
def transfer (f : Fabric) (ds : List DWord) (alg : Nat) (s e : Word) : Word :=
  let ws := transferWords ds
  if ws.isEmpty then conjW alg s e else ws.foldl (fun x w => transferStep f ds (algFmt alg) x e w) s

/-- Is a candidate a contribution; none where it raises DATA (R293)? -/
def contribution (alg : Nat) (c : Word) : Option Bool :=
  if badW alg c ∨ (alg = 0 ∧ 1 < c.toNat) then none else some (!(decide (alg = 0) && decide (c = 0)))

/-- The descriptor of an edge form at an element address, checked (R292, R293): its words and relations. -/
def FCtx.edgeDesc (c : FCtx) : Except Stop (List DWord × Rel × Rel × Rel) :=
  let a := c.ra.toNat
  if !inElem a 64 then alignAt a
  else
    let ds := c.elt.mem.words a 8
    let w0 := ds.getD 0 0
    if bit w0 38 ∨ fld w0 37 36 = 3 ∨ 4 < fld w0 35 32 ∨ fld (ds.getD 1 0) 31 0 ≠ 0 ∨ ds.getD 6 0 ≠ 0 ∨ ds.getD 7 0 ≠ 0 then c.format
    else match c.f.rel c.part (fld w0 63 56), c.f.rel c.part (fld w0 55 48), c.f.rel c.part (fld w0 47 40) with
    | some s, some e, some d =>
      if !e.dual || decide (s.arity ≠ 1) || decide (s.keyc ≠ 1) || decide (d.arity ≠ 1) || decide (d.keyc ≠ 1)
          || decide (s.alg ≠ e.alg) || decide (s.alg ≠ d.alg) || decide (s.alg = 1) then c.format
      else match ((transferWords ds).zipIdx).find? fun x => !transferOk s.wfmt x.1 with
        | some (_, i) => .error (.trap .format (w32 (256 + i)))
        | none => .ok (ds, s, e, d)
    | _, _, _ => c.illegal

/-! ## The forms -/

/-- EPROG (R296): one round, in the mode read at issue. `vals` of the record holds each member's cursor. -/
def eprogForm (c : FCtx) : Except Stop Res :=
  c.edgeDesc.bind fun x =>
    let by_ := if bit (x.1.getD 0 0) 39 then x.2.2.2 else x.2.1
    let p := { c.pend with left := by_.members, base := by_.no, a := x.1.getD 0 0, args := x.1, vals := List.replicate by_.members 0 }
    if c.f.indexAway x.2.2.1 then c.begin p
    else match c.f.edgeCount (c.f.engMaster c.el c.ctx) x.2.2.1 with
    | .error (w, i) => .error (.trap w i)
    | .ok 0 => c.emits [c.scalar c.d true 0, c.ord c.e]
    | .ok _ => c.begin p

/-- EDENS (R298): `b` of the record holds the descriptor's address. -/
def edensForm (c : FCtx) : Except Stop Res :=
  c.edgeDesc.bind fun x =>
    let p := { c.pend with left := x.2.1.members, base := x.2.1.no, a := x.1.getD 0 0, b := c.ra, args := x.1 }
    if c.f.indexAway x.2.2.1 then c.begin p
    else match c.f.edgeCount (c.f.engMaster c.el c.ctx) x.2.2.1 with
    | .error (w, i) => .error (.trap w i)
    | .ok _ => c.begin p

/-- EMODE (R299): the descriptor word is stored as the element's stores are (R300), with what the word that they reach holds besides. -/
def emodeForm (c : FCtx) : Except Stop Res :=
  let a := c.ra.toNat
  let s := c.rb
  if !inElem a 64 then alignAt a
  else if fld s 1 0 = 3 then c.format
  else
    let mode := match fld s 1 0 with | 0 => 0 | 1 => 1 | _ => fld s 2 2
    let w0 := setFld (setFld (c.elt.storedWord a) 37 36 (fld s 1 0)) 39 39 mode
    (c.f.storeWords c.el c.pend a [w0]).map fun f => Res.of f 0 [c.ord c.d, c.ord c.e] none

/-- EPROG (R296). -/
def execEprog (a b d e : BitVec 5) (t : BitVec 4) (s : State) : Host.Outcome State Fault Refusal := fire 0xD8 a b d e t (FCtx.relForm eprogForm) s
/-- EDENS (R298). -/
def execEdens (a b d e : BitVec 5) (t : BitVec 4) (s : State) : Host.Outcome State Fault Refusal := fire 0xD9 a b d e t (FCtx.relForm edensForm) s
/-- EMODE (R299). -/
def execEmode (a b d e : BitVec 5) (t : BitVec 4) (s : State) : Host.Outcome State Fault Refusal := fire 0xDA a b d e t (FCtx.relForm emodeForm) s

end Sys2Proof.Machine
end

