-- ==== Sys2Proof/Machine/RelEv.lean ====
section
/-! DEFINITION. What relation and edge forms do at their members (R268-R283, R290, R294-R298): RBIND_MEMBER, RELATION_SCAN_VISIT,
RELATION_SWEEP_STEP, TUPLE_INSERT_AT_HOME, TUPLE_DELETE_AT_HOME, PROBE_AT_HOME, ROUND_AT_MEMBER, CLOSE_AT_MEMBER,
GRADIENT_STEP, PUSH_SOURCE_VISIT, PULL_VERTEX_VISIT, EDGE_CONTRIBUTION_COMBINE and EDENS_COUNT. Each event is one operation of
a member (R272); a trap parks the step there (R285). -/

namespace Sys2Proof.Machine

/-! ## Shared steps -/

/-- A fabric step as a step of the machine. -/
def fabStep (s : State) (g : Fabric → Fabric) : Host.Outcome State Fault Refusal := .next { s with fab := g s.fab }

/-- The phase of a form that DISCARD has ended while other accesses of it are parked: it completes with the last answer (R366). -/
abbrev endedPhase : Nat := 905

/-- A step of a waiting firing: nothing where the firing is gone or ended, or still waits for its grant. -/
def onPend (f : Fabric) (el id : Nat) (g : Pend → Fabric) : Fabric :=
  match (f.el el).pendOf id with
  | none => f
  | some p => if p.grant || decide (p.phase = endedPhase) then f else g p

/-- A step of a form that found a trap at its member (R285, R366). -/
def parkStep (f : Fabric) (el : Nat) (p : Pend) (lane : Nat) (c : Cause) (info : Word) : Fabric :=
  parkAccess f el p.id ⟨lane, .trap, c, info, true, none⟩

/-- A step at member m of a relation: the member bound and open to the issuer, or a trap. -/
def withMember (f : Fabric) (el : Nat) (p : Pend) (r : Rel) (m lane : Nat) (g : Member → Fabric) : Fabric :=
  match f.member r m with
  | none => parkStep f el p lane .illegal (w32 r.no)
  | some x => if f.engineMay el x.el p then g x else parkStep f el p lane .access p.slotW

/-- A step on the relation that the record's members belong to. -/
def withRel (f : Fabric) (el : Nat) (p : Pend) (lane : Nat) (g : Rel → Fabric) : Fabric :=
  match f.rel (f.partOf el) p.base with
  | none => parkStep f el p lane .illegal (w32 p.base)
  | some r => g r

/-- A record replaced. -/
def Fabric.putPend (f : Fabric) (el : Nat) (p : Pend) : Fabric := f.modEl el fun e => e.setPend p

/-- An insertion's outcome taken into its record, or its trap. -/
def tookIns (f : Fabric) (el : Nat) (p : Pend) (lane : Nat) (x : Except (Cause × Word) Ins) (g : Ins → Fabric) : Fabric :=
  match x with
  | .error (c, w) => parkStep f el p lane c w
  | .ok y => g y

/-! ## Inserts, deletes, probes -/

/-- The weight a TINS derives from its parents; none where it answers SAME (R269, R278). -/
def derivedW (alg : Nat) (named neg2 : Bool) (p1 p2 : Ent) : Option Word :=
  if !p1.live || (named && !neg2 && !p2.live) then none
  else
    let w :=
      if !named then some p1.wt
      else if !neg2 then some (conjW alg p1.wt p2.wt)
      else if p2.live then (if alg = 4 then some (conjW alg p1.wt (oneMinus p2.wt)) else none)
      else some p1.wt
    match w with
    | some v => if alg = 0 ∧ v = 0 then none else some v
    | none => none

/-- TUPLE_INSERT_AT_HOME (R278): the parents are read, then the head is written at its home. -/
def tupleInsert (f : Fabric) (el id : Nat) : Fabric :=
  onPend f el id fun p => withRel f el p 0 fun r =>
    let part := f.partOf el
    let ra := p.a.toNat
    let rb := p.b.toNat
    if p.phase = 0 then
      if !f.refMay el p ra || !f.refMay el p rb then parkStep f el p 0 .access p.slotW
      else
        let p1 := f.entOf part ra
        let p2 := f.entOf part rb
        match derivedW r.alg (decide (rb ≠ noRef)) (decide (p.cnt = 1)) p1 p2 with
        | none => complete f el p (answerOuts p 0 noRef)
        | some w =>
          let k := headKey (p.args.map (·.toNat)) p1 p2
          (f.putPend el { p with phase := 1, vals := [k.1, k.2, w.setWidth 64, w64 (ra * 2 ^ 32 + rb)] }).post (.tupleInsertAtHome el id)
    else
      let key : Ent := ⟨p.vals.getD 0 0, p.vals.getD 1 0, BitVec.ofNat 32 (p.vals.getD 2 0).toNat, 0, 0⟩
      let m := homeMember r key
      withMember f el p r m 0 fun x =>
        tookIns f el p 0 (f.insert part r m x key (p.vals.getD 3 0) (decide (p.cnt = 1)) false (f.rounds x + 1) (w32 ra) p.slotW p.slotW) fun y =>
          complete y.1 el p (answerOuts p y.2.1 y.2.2)

/-- An entry restamped NEXT with a change of status, counted in CHANGED (R270). -/
def Fabric.markEnt (f : Fabric) (x : Member) (j : Nat) (e : Ent) (st : Word) : Fabric :=
  let f := f.setEnt x j { e with st := setFld st 1 0 (f.rounds x + 1) }
  f.setHdr x 3 (f.relHdr x 3 + 1)

/-- Does the witness of a head name a parent that is retracted or suspect (R279)? -/
def witnessLost (wit : DWord) (ra rb : Nat) (p1 p2 : Ent) : Bool :=
  let names := fun r : Nat => decide (r ≠ noRef) && (decide (fld wit 63 32 = r) || decide (fld wit 31 0 = r))
  (names ra && (p1.retr || p1.susp)) || (names rb && (p2.retr || p2.susp))

/-- TUPLE_DELETE_AT_HOME (R279). -/
def tupleDelete (f : Fabric) (el id : Nat) : Fabric :=
  onPend f el id fun p =>
    let part := f.partOf el
    let ra := p.a.toNat
    let rb := p.b.toNat
    if p.fin = 6 then
      match f.refAt part ra with
      | none => parkStep f el p 0 .illegal (w32 ra)
      | some (_, x, j) =>
        if !f.engineMay el x.el p then parkStep f el p 0 .access p.slotW
        else if f.relClosed x then parkStep f el p 0 .stratum p.slotW
        else
          let e := f.ent x j
          if e.used && !e.retr then
            complete (f.markEnt x j e (setFld (setFld e.st 2 2 1) 3 3 0)) el p (answerOuts p 4 ra)
          else complete f el p (answerOuts p 0 ra)
    else withRel f el p 0 fun r =>
      if !f.refMay el p ra || !f.refMay el p rb then parkStep f el p 0 .access p.slotW
      else
        let p1 := f.entOf part ra
        let p2 := f.entOf part rb
        let k := headKey (p.args.map (·.toNat)) p1 p2
        let key : Ent := ⟨k.1, k.2, 0, 0, 0⟩
        let m := homeMember r key
        withMember f el p r m 0 fun x =>
          if f.relClosed x then parkStep f el p 0 .stratum p.slotW
          else match (f.chainOf r x key).1.find? fun y => decide (y.2.k0 = k.1) && decide (y.2.k1 = k.2) with
          | none => complete f el p (answerOuts p 0 noRef)
          | some (j, e) =>
            if e.live && witnessLost e.wit ra rb p1 p2 then
              complete (f.markEnt x j e (setFld e.st 3 3 1)) el p (answerOuts p 5 (mkRef r m j))
            else complete f el p (answerOuts p 0 (mkRef r m j))

/-- PROBE_AT_HOME (R277): a's key is read, then the chain of the probe key; for a TWIT whose tuple's home turned it away, the tuple
(R284). -/
def probeAt (f : Fabric) (el id : Nat) : Fabric :=
  onPend f el id fun p => withRel f el p 0 fun r =>
    let ra := p.a.toNat
    let neg := decide (p.op = 0xCE)
    let cols := if neg then List.range r.arity else r.keyCols
    let pair := fun ref : Nat => p.raw p.d (w64 (ra * 2 ^ 32 + ref))
    let count := fun n : Nat => p.raw p.e (w64 n)
    if p.phase = 0 then
      if !f.refMay el p ra then parkStep f el p 0 .access p.slotW
      else
        let e := f.entOf (f.partOf el) ra
        if p.op = 0xD5 then complete f el p ((twitWords e).zip [p.d, p.e] |>.map fun x => p.raw x.2 x.1)
        else if !e.used then complete f el p (if neg then [pair noRef, count 1] else [count 0])
        else
          let key := (List.range 4).map fun c =>
            match cols.idxOf? c with | some i => e.col (p.args.getD i 0).toNat | none => 0
          let k := mkKey key
          (f.putPend el { p with phase := 1, vals := [k.1, k.2] }).post (.probeAtHome el id)
    else
      let key : Ent := ⟨p.vals.getD 0 0, p.vals.getD 1 0, 0, 0, 0⟩
      let m := homeMember r key
      withMember f el p r m 0 fun x =>
        let rr := f.rounds x
        let ch := (f.chainOf r x key).1.filter fun y => cols.all fun c => decide (y.2.col c = key.col c)
        if neg then
          if !f.relClosed x then parkStep f el p 0 .stratum (w32 r.no)
          else match ch.find? fun y => y.2.live with
          | some (j, _) => complete f el p [pair (mkRef r m j), count 0]
          | none => complete f el p [pair noRef, count 1]
        else
          let hits := ch.filter fun y =>
            if p.op = 0xCD then true else y.2.live && (y.2.old rr || (decide (p.op = 0xCC) && y.2.delta rr))
          complete f el p (hits.map (fun y => pair (mkRef r m y.1)) ++ [count hits.length])

/-! ## Scans, sweeps, rounds, closes -/

/-- RELATION_SCAN_VISIT (R276): one slot of the issuer's own partition. -/
def scanVisit (f : Fabric) (el id : Nat) : Fabric :=
  onPend f el id fun p => withRel f el p 0 fun r => withMember f el p r p.a.toNat 0 fun x =>
    if x.cap ≤ p.cur then complete f el p (p.outs ++ [p.raw p.e (w64 p.cnt)])
    else
      let e := f.ent x p.cur
      let d := e.delta (f.rounds x)
      let hit := if p.op = 0xD3 then e.live else if p.b = 1 then e.used && (e.retr || e.susp) && d else e.live && d
      let q := { p with cur := p.cur + 1, cnt := p.cnt + hit.toNat }
      let f := f.putPend el q
      let f := if hit then emitNow f el q (p.raw p.d (w64 (mkRef r p.a.toNat p.cur))) else f
      f.post (.relationScanVisit el id)

/-- The entries of one sweep step: STAMP (r + 2) mod 4 becomes (r + 3) mod 4 (R271). -/
def sweepEnts (f : Fabric) (x : Member) (r : Nat) : List Nat → Fabric
  | [] => f
  | j :: js =>
    let e := f.ent x j
    sweepEnts (if e.used && decide (e.stamp = (r + 2) % 4) then f.setEnt x j { e with st := setFld e.st 1 0 (r + 3) } else f) x r js

/-- RELATION_SWEEP_STEP (R271): four entries of a window's sweep. -/
def sweepStep (f : Fabric) (el win : Nat) : Fabric :=
  let w := tget (0 : Word) (f.el el).wins win
  let x : Member := ⟨el, winBase w, relCap w⟩
  let left := min (f.relHdr x 4).toNat x.cap
  if winRole w ≠ 4 ∨ left = 0 then f
  else
    let js := (List.range (min 4 left)).map (x.cap - left + ·)
    let f := (sweepEnts f x (f.rounds x) js).setHdr x 4 (w64 (left - min 4 left))
    if left ≤ 4 then f else f.post (.relationSweepStep el win)

/-- ROUND_AT_MEMBER (R280): a member whose sweep has ended advances. -/
def roundAt (f : Fabric) (el id m : Nat) : Fabric :=
  onPend f el id fun p => withRel f el p m fun r => withMember f el p r m m fun x =>
    if f.relHdr x 4 ≠ 0 then f.post (.roundAtMember el id m)
    else
      let n := f.relHdr x 1 + 1
      let f := ((f.setHdr x 1 n).setHdr x 3 0).setHdr x 4 (w64 x.cap)
      let f := f.post (.relationSweepStep x.el r.win)
      let q := { p with left := p.left - 1, a := n }
      if q.left = 0 then complete f el q [p.raw p.d n, p.ordOut p.e] else f.putPend el q

/-- Every SUSP entry of a member becomes RETR, not restamped: the fabric and how many (R282). -/
def closeEnts (f : Fabric) (x : Member) : List Nat → Fabric × Nat
  | [] => (f, 0)
  | j :: js =>
    let e := f.ent x j
    if e.used && e.susp then
      let y := closeEnts (f.setEnt x j { e with st := setFld (setFld e.st 3 3 0) 2 2 1 }) x js
      (y.1, y.2 + 1)
    else closeEnts f x js

/-- CLOSE_AT_MEMBER (R282). -/
def closeAt (f : Fabric) (el id m : Nat) : Fabric :=
  onPend f el id fun p => withRel f el p m fun r => withMember f el p r m m fun x =>
    let y := if p.b = 1 then (f, 0) else closeEnts f x (List.range x.cap)
    let f := y.1.setHdr x 0 (setFld (y.1.relHdr x 0) 31 31 (if p.b = 1 then 0 else 1))
    let q := { p with left := p.left - 1, cnt := p.cnt + y.2 }
    if q.left = 0 then complete f el q [p.raw p.d (w64 q.cnt), p.ordOut p.e] else f.putPend el q

/-! ## RBIND -/

/-- The entries of a relation that an RBIND bound: their two columns and references. `refs` are the references it wrote back, so that
a tuple that a TINS adds meanwhile stands in no index (R291). -/
def Fabric.relEdges (f : Fabric) (r : Rel) (refs : List DWord) : List (Nat × Nat × Nat) :=
  (List.range r.members).flatMap fun m =>
    match f.member r m with
    | none => []
    | some x => (List.range x.cap).filterMap fun j => let e := f.ent x j; if e.used && refs.contains (w64 (mkRef r m j)) then some (e.col 0, e.col 1, mkRef r m j) else none

/-- Insertion into a list sorted by a key pair. -/
def sortIn (x : Nat × Nat × Nat) : List (Nat × Nat × Nat) → List (Nat × Nat × Nat)
  | [] => [x]
  | y :: r => if x.1 < y.1 ∨ (x.1 = y.1 ∧ x.2.1 < y.2.1) then x :: y :: r else y :: sortIn x r

/-- One index: offsets, then references, from edges sorted by their first two numbers. -/
def indexWords (nv : Nat) (es : List (Nat × Nat × Nat)) : List Nat :=
  (List.range (nv + 1)).map (fun u => es.countP fun e => decide (e.1 < u)) ++ es.map fun e => e.2.2

/-- 4-byte words written at virtual addresses, or the first fault. -/
def Fabric.vputs (f : Fabric) (m : Master) (addr : Nat) : List Nat → Except (Cause × Word) Fabric
  | [] => .ok f
  | v :: r => (f.vwrite m 4 addr v).bind fun f => f.vputs m (addr + 4) r

/-- The 4-byte words of an index area: from its start to the end of the CSR entries, and from the CSC offsets on (R290). -/
def Fabric.indexParts (f : Fabric) (r : Rel) (refs : List DWord) : List Nat × List Nat :=
  let es := f.relEdges r refs
  (es.length :: r.nv :: indexWords r.nv (es.foldr sortIn []), indexWords r.nv ((es.map fun e => (e.2.1, e.1, e.2.2)).foldr sortIn []))

/-- The index area of an edge relation is written (R290). -/
def Fabric.writeIndex (f : Fabric) (m : Master) (r : Rel) (refs : List DWord) : Except (Cause × Word) Fabric :=
  let x := f.indexParts r refs
  (f.vputs m r.idx x.1).bind fun f => f.vputs m (r.idx + (indexAt r (x.1.headD 0) true).1) x.2

/-- Does a write-protected page hold back a word of the index area (R369)? Pages are of 64 KiB at least, as is the area's alignment. -/
def Fabric.indexHeld (f : Fabric) (m : Master) (r : Rel) (refs : List DWord) : Bool :=
  (List.range (indexLen r (f.relEdges r refs).length / 65536 + 1)).any fun k => f.migrating m (r.idx + 65536 * k)

/-- The store of word k of an index area in a peer package (R205), of which the record keeps the words in `vals`. -/
def indexStore (f : Fabric) (el : Nat) (p : Pend) (r : Rel) (k : Nat) : Req :=
  let t := (p.vals.getD 0 0).toNat
  let n := 2 + (r.nv + 1) + t
  f.mkReq el p p.vals.length .store 4 (r.idx + (if k < n then 4 * k else (indexAt r t true).1 + 4 * (k - n))) (p.vals.getD k 0) 0

/-- The tokens of an RBIND. -/
def rbindOuts (p : Pend) : List Out := [p.raw p.d (w64 p.cnt), p.ordOut p.e]

/-- The requests of a record of the initial array: its three words, or the reference written back. -/
def rbindReqs (f : Fabric) (el : Nat) (p : Pend) (r : Rel) (i : Nat) (back : Option Nat) : List Req :=
  let a := r.init + 32 * i
  match back with
  | none => (List.range 3).map fun k => f.mkReq el p k .load 8 (a + 8 * k) 0 0
  | some ref => [f.mkReq el p 3 .store 4 (a + 20) (w64 ref) 0]

/-- A request of a form that is no GLD or GST of I64 or N64 leaves, or its fault parks its lane (R205, R359, R366). -/
def sendChecked (f : Fabric) (el : Nat) (q : Req) : Fabric :=
  match f.vaStop el q.priv q.op false q.bytes q.addr with
  | some (.trap c i) => parkAccess f el q.id ⟨q.lane, .trap, c, i, false, some q⟩
  | _ => f.sendReq q

/-- Requests of such a form. -/
def sendAll (f : Fabric) (el : Nat) (p : Pend) (qs : List Req) : Fabric := qs.foldl (fun f q => sendChecked f el q) (f.putPend el p)

/-- The insertion of a record's words as a base tuple with STAMP 0 (R275). The record keeps the references behind its descriptor. -/
def rbindInsert (f : Fabric) (el : Nat) (p : Pend) (r : Rel) (i : Nat) : Fabric :=
  let cols := (List.range 4).map fun c =>
    if c < r.arity then (if c % 2 = 0 then fld (p.vals.getD (c / 2) 0) 31 0 else fld (p.vals.getD (c / 2) 0) 63 32) else 0
  let k := mkKey cols
  let key : Ent := ⟨k.1, k.2, w32 (fld (p.vals.getD 2 0) 31 0), 0, 0⟩
  let lane := r.members + i
  let back := fun (f : Fabric) (code ref : Nat) =>
    let p := { p with phase := 62, left := 1, cnt := p.cnt + (if code = 1 then 1 else 0), args := p.args ++ [w64 ref] }
    sendAll f el p (rbindReqs f el p r i (some ref))
  if r.dual ∧ (r.nv ≤ cols.getD 0 0 ∨ r.nv ≤ cols.getD 1 0) then parkStep f el p lane .format p.slotW
  else if r.alg = 0 ∧ key.wt = 0 then back f 0 noRef
  else
    let m := homeMember r key
    withMember f el p r m lane fun x =>
      tookIns f el p lane (f.insert (f.partOf el) r m x key 0xFFFFFFFFFFFFFFFF false false 0 (w32 (r.no * 2 ^ 24 + i % 2 ^ 24)) p.slotW p.slotW) fun y =>
        back y.1 y.2.1 y.2.2

/-- RBIND_MEMBER (R275, R290): step n below M clears member n; step M + i loads record i; the last writes the index. Phase 61
marks a record whose words have come. The index waits for a write-protected page (R369); one in a peer package is stored word by word
(R205; phase 63). -/
def rbindStep (f : Fabric) (el id n : Nat) : Fabric :=
  onPend f el id fun p =>
    let r : Rel := p.args
    let part := f.partOf el
    if n < r.members then
      match r.memberEl n with
      | none => parkStep f el p n .access (w32 n)
      | some x =>
        let w := tget (0 : Word) (f.el x).wins r.win
        if winRole w ≠ 4 then parkStep f el p n .access (w32 (2 ^ 31 + n))
        else if !f.engineMay el x p then parkStep f el p n .access p.slotW
        else
          let f := if n = 0 then { f with rels := tset f.rels (part * 256 + r.no) r } else f
          let f := f.modEl x fun e =>
            ((e.zeroMem (winBase w + 64) (32 * relCap w)).putWord (winBase w)
                (w64 (r.no * 2 ^ 56 + n * 2 ^ 46 + relCap w * 2 ^ 32 + 2 ^ 30))).putWords (winBase w + 8) [0, 0, 0, 0]
          f.post (.rbindMember el id (n + 1))
    else if n < r.members + r.ninit then
      if p.phase = 61 then rbindInsert f el p r (n - r.members)
      else
        let p := { p with phase := 60, left := 3, vals := [0, 0, 0], cur := n }
        sendAll f el p (rbindReqs f el p r (n - r.members) none)
    else if r.dual && f.indexAway r then
      let x := f.indexParts r (p.args.drop 6)
      let p := { p with phase := 63, left := 1, cur := 0, vals := (x.1 ++ x.2).map w64 }
      sendAll f el p [indexStore f el p r 0]
    else if r.dual && f.indexHeld (f.engMaster el p.set.ctx) r (p.args.drop 6) then f.post (.rbindMember el id n)
    else if r.dual then
      match f.writeIndex (f.engMaster el p.set.ctx) r (p.args.drop 6) with
      | .ok f => complete f el p (rbindOuts p)
      | .error (c, w) => parkStep f el p n c w
    else complete f el p (rbindOuts p)

/-- What follows an RBIND's memory answers: the words of a record have come, or its reference or a word of its index is written. -/
def rbindAnswered (f : Fabric) (el : Nat) (p : Pend) : Fabric :=
  if p.phase = 63 then
    let p := { p with cur := p.cur + 1, left := 1 }
    if p.cur < p.vals.length then sendAll f el p [indexStore f el p p.args p.cur] else complete f el { p with phase := 0 } (rbindOuts p)
  else if p.phase = 60 then (f.putPend el { p with phase := 61, left := 1 }).post (.rbindMember el p.id p.cur)
  else (f.putPend el { p with phase := 0, left := 1 }).post (.rbindMember el p.id (p.cur + 1))

/-! ## TGRAD -/

/-- A gradient times an exact factor, rounded to FX64 with RNE (R283). -/
def gradTimes (g : DWord) (num : Int) (den : Nat) : DWord := keepBits 64 (roundInt .rne 0 ⟨sint 64 g * num, den⟩).1

/-- A weight in [0, 1] as a fraction; none for one that raises DATA. -/
def unitW (w : Word) : Option Q :=
  match fread f32P (w.setWidth 64) with
  | .zero _ => some ⟨0, 1⟩
  | .fin q => if q.n < 0 ∨ (q.d : Int) < q.n then none else some q
  | _ => none

/-- The branches of one step of the walk, or the reference that raises DATA. -/
def gradKids (f : Fabric) (part alg : Nat) (e : Ent) (g depth : DWord) : Except Nat (List DWord) :=
  let r1 := fld e.wit 63 32
  let r2 := fld e.wit 31 0
  let kid := fun (r : Nat) (g : DWord) => [w64 r, g, depth + 1]
  if alg = 3 then .ok (kid r1 g ++ (if r2 = noRef then [] else kid r2 g))
  else
    match unitW (f.entOf part r1).wt with
    | none => .error r1
    | some x1 =>
      if r2 = noRef then .ok (kid r1 g)
      else
        let e2 := f.entOf part r2
        match unitW e2.wt with
        | none => .error r2
        | some x2 =>
          if e.neg2 then
            .ok (kid r1 (if e2.live then gradTimes g ((x2.d : Int) - x2.n) x2.d else g) ++ kid r2 (gradTimes g (-x1.n) x1.d))
          else .ok (kid r1 (gradTimes g x2.n x2.d) ++ kid r2 (gradTimes g x1.n x1.d))

/-- The tokens of a TGRAD. -/
def gradOuts (p : Pend) : List Out := [p.raw p.d (w64 p.cnt), p.ordOut p.e]

/-- GRADIENT_STEP (R283): one branch of the walk. -/
def gradStep (f : Fabric) (el id : Nat) : Fabric :=
  onPend f el id fun p =>
    let part := f.partOf el
    match p.args with
    | ref :: g :: depth :: rest =>
      let next := fun (f : Fabric) (p : Pend) => (f.putPend el p).post (.gradientStep el id)
      if depth = 64 then parkStep f el p 0 .data (w32 ref.toNat)
      else if !f.refMay el p ref.toNat then parkStep f el p 0 .access p.slotW
      else match f.refAt part ref.toNat with
      | none => next f { p with args := rest }
      | some (r, x, j) =>
        let e := f.ent x j
        if !e.used then next f { p with args := rest }
        else if e.wit = 0xFFFFFFFFFFFFFFFF then
          if r.gbase = 0 then next f { p with args := rest }
          else
            let q := f.mkReq el p (p.cnt + 1) (.atomic 0xA8 .fx64) 8 (r.gbase + 8 * (ref.toNat % 2 ^ 24)) g 0
            match f.vaStop el q.priv q.op true 8 q.addr with
            | some (.trap c i) => parkStep f el p 0 c i
            | _ => next (f.sendReq q) { p with args := rest, left := p.left + 1, cnt := p.cnt + 1 }
        else match gradKids f part r.alg e g depth with
        | .error n => parkStep f el p 0 .data (w32 n)
        | .ok ks => next f { p with args := ks ++ rest }
    | _ => settle f el { p with left := p.left - 1, outs := if p.left = 1 then gradOuts p else p.outs }

/-! ## Edge programs -/

/-- An EPROG that may have ended (R295). -/
def edgeSettle (f : Fabric) (el : Nat) (p : Pend) : Fabric :=
  if p.left = 0 then complete f el p [p.raw p.d (w64 p.cnt), p.ordOut p.e] else f.putPend el p

/-- The relations of an EPROG or EDENS record: source, edge, destination. -/
def edgeRels (f : Fabric) (el : Nat) (p : Pend) : Option (Rel × Rel × Rel) :=
  let n := f.rel (f.partOf el)
  (n (fld p.a 63 56)).bind fun s => (n (fld p.a 55 48)).bind fun e => (n (fld p.a 47 40)).map fun d => (s, e, d)

/-- The contributions of a source entry along its edges; none where one raises DATA. -/
def sourceContribs (f : Fabric) (part : Nat) (ds : List DWord) (alg : Nat) (u : Ent) (uref : Nat) : List Nat → Option (List Contrib)
  | [] => some []
  | x :: xs =>
    let e := f.entOf part x
    (sourceContribs f part ds alg u uref xs).bind fun rest =>
      if !e.live then some rest
      else
        let c := transfer f ds alg u.wt e.wt
        (contribution alg c).map fun yes => if yes then ⟨w32 (e.col 1), c, w32 uref, w32 x⟩ :: rest else rest

/-! ## An index area in a peer package (R205, R368) -/

/-- The words of the index area that are still to come leave one by one; once the last is here, the form's work begins. The words follow
the descriptor's eight in the record (phases 70 and 72). An EPROG on no edges has nothing to do. -/
def fetchIndex (f : Fabric) (el : Nat) (p : Pend) (e : Rel) : Fabric :=
  let k := p.args.length - 8
  let t := fld (p.args.getD 8 0) 31 0
  if k = 0 ∨ 8 * k < indexLen e t then
    let p := { p with phase := 70, left := 1, vals := [0] }
    sendAll f el p [f.mkReq el p 0 .load 8 (e.idx + 8 * k) 0 0]
  else if p.op = 0xD8 ∧ t = 0 then complete f el { p with phase := 0 } [p.raw p.d 0, p.ordOut p.e]
  else
    let n := ((f.rel (f.partOf el) p.base).map Rel.members).getD 0
    let p := { p with phase := fetchedPhase, left := n, vals := if p.op = 0xD8 then List.replicate n 0 else [] }
    (f.putPend el p).postAll (startEvents f el p)

/-- A word of the index area has come. -/
def edgeAnswered (f : Fabric) (el : Nat) (p : Pend) : Fabric :=
  match edgeRels f el p with
  | none => parkStep f el p 0 .illegal p.slotW
  | some (_, e, _) => fetchIndex f el { p with args := p.args ++ [p.vals.getD 0 0] } e

/-- A step that reads the index area: it is fetched first where it lies in a peer package. -/
def withIndex (f : Fabric) (el : Nat) (p : Pend) (e : Rel) (go : Fabric) : Fabric :=
  if f.indexAway e && decide (p.phase < 70) then fetchIndex f el p e else go

/-- PUSH_SOURCE_VISIT (R296): one slot of a source member. -/
def pushVisit (f : Fabric) (el id m : Nat) : Fabric :=
  onPend f el id fun p =>
    match edgeRels f el p with
    | none => parkStep f el p m .illegal p.slotW
    | some (s, e, _) => withIndex f el p e <| withMember f el p s m m fun x =>
      let j := (p.vals.getD m 0).toNat
      if x.cap ≤ j then edgeSettle f el { p with left := p.left - 1 }
      else
        let q := { p with vals := p.vals.set m (w64 (j + 1)) }
        let u := f.ent x j
        if !(u.live && u.delta (f.rounds x)) then (f.putPend el q).post (.pushSourceVisit el id m)
        else match indexRow (f.indexGet el p e) e false (u.col 0) with
        | .error (c, w) => parkStep f el p m c w
        | .ok xs =>
          match sourceContribs f (f.partOf el) p.args s.alg u (mkRef s m j) xs with
          | none => parkStep f el p m .data p.slotW
          | some cs =>
            ((f.putPend el { q with left := q.left + cs.length }).postAll (cs.map fun c => .edgeContributionCombine el id c)).post (.pushSourceVisit el id m)

/-- A contribution's key and weight as an entry. -/
def Contrib.ent (c : Contrib) : Ent := ⟨c.key.setWidth 64, 0, c.weight, 0, 0⟩
/-- A contribution's witness. -/
def Contrib.wit (c : Contrib) : DWord := w64 (c.src.toNat * 2 ^ 32 + c.edge.toNat)

/-- A contribution combined into the destination relation at its home (R294): the fabric and the record, or the trap. -/
def combineAt (f : Fabric) (el : Nat) (p : Pend) (d : Rel) (c : Contrib) : Except (Cause × Word) (Fabric × Pend) :=
  let m := homeMember d (Contrib.ent c)
  match f.member d m with
  | none => .error (.illegal, p.slotW)
  | some x =>
    if !f.engineMay el x.el p then .error (.access, p.slotW)
    else match f.insert (f.partOf el) d m x (Contrib.ent c) (Contrib.wit c) false true (f.rounds x + 1) c.src (w32 d.no) p.slotW with
    | .error e => .error e
    | .ok y => .ok (y.1, { p with cnt := p.cnt + (if y.2.1 = 0 then 0 else 1) })

/-- Lanes of a record from this on are contributions parked at a destination: two words each at the end of its args. -/
def contribLane : Nat := 65536

/-- EDGE_CONTRIBUTION_COMBINE (R294): a contribution that finds a trap is kept in the record for its handler. -/
def combineStep (f : Fabric) (el id : Nat) (c : Contrib) : Fabric :=
  onPend f el id fun p =>
    match edgeRels f el p with
    | none => parkStep f el p 0 .illegal p.slotW
    | some (_, _, d) =>
      match combineAt f el p d c with
      | .ok (f, p) => edgeSettle f el { p with left := p.left - 1 }
      | .error (x, w) =>
        let q := { p with args := p.args ++ [w64 (c.key.toNat * 2 ^ 32 + c.weight.toNat), Contrib.wit c] }
        parkStep (f.putPend el q) el q (contribLane + p.args.length) x w

/-- The contribution kept at a lane. -/
def contribOf (p : Pend) (lane : Nat) : Contrib :=
  let x := p.args.getD (lane - contribLane) 0
  let y := p.args.getD (lane - contribLane + 1) 0
  ⟨w32 (fld x 63 32), w32 (fld x 31 0), w32 (fld y 63 32), w32 (fld y 31 0)⟩

/-- Is a destination entry finished (R294)? -/
def finishedEnt (alg : Nat) (e : Ent) (first : Nat) : Bool :=
  let best : Word := match alg with | 0 => 1 | 2 => 0x80000000 | 3 => 0xFF800000 | _ => 0x3F800000
  e.live && decide (e.wt = best) && decide (fld e.wit 31 0 = first)

/-- The entry of a one-column key at its home: its reference and the entry. -/
def Fabric.lookup (f : Fabric) (r : Rel) (v : Nat) : Option (Member × Nat × Ent) :=
  let key : Ent := ⟨w64 v, 0, 0, 0, 0⟩
  (f.member r (homeMember r key)).bind fun x =>
    ((f.chainOf r x key).1.find? fun y => decide (y.2.k0 = key.k0) && decide (y.2.k1 = 0)).map fun y => (x, mkRef r (homeMember r key) y.1, y.2)

/-- The best contribution of a destination's in-edges (R296); an error where one raises DATA. -/
def pullBest (f : Fabric) (part : Nat) (ds : List DWord) (s : Rel) (v : Nat) : List Nat → Option Contrib → Option (Option Contrib)
  | [], best => some best
  | x :: xs, best =>
    let e := f.entOf part x
    if !e.live then pullBest f part ds s v xs best
    else match f.lookup s (e.col 0) with
    | none => pullBest f part ds s v xs best
    | some (mx, uref, u) =>
      if !(u.live && u.delta (f.rounds mx)) then pullBest f part ds s v xs best
      else
        let c := transfer f ds s.alg u.wt e.wt
        match contribution s.alg c with
        | none => none
        | some false => pullBest f part ds s v xs best
        | some true =>
          let y : Contrib := ⟨w32 v, c, w32 uref, w32 x⟩
          let takes := match best with
            | none => true
            | some b => betterW s.alg y.weight b.weight || (decide (y.weight = b.weight) && f.witLess part true (Contrib.wit y) (Contrib.wit b))
          pullBest f part ds s v xs (if takes then some y else best)

/-- PULL_VERTEX_VISIT (R296): one vertex at its owning member. -/
def pullVisit (f : Fabric) (el id m : Nat) : Fabric :=
  onPend f el id fun p =>
    match edgeRels f el p with
    | none => parkStep f el p m .illegal p.slotW
    | some (s, e, d) => withMember f el p d m m fun _ =>
      let part := f.partOf el
      let v := (p.vals.getD m 0).toNat
      let q := { p with vals := p.vals.set m (w64 (v + 1)) }
      let next := fun (f : Fabric) (q : Pend) => (f.putPend el q).post (.pullVertexVisit el id m)
      if e.nv ≤ v then edgeSettle f el { p with left := p.left - 1 }
      else if homeMember d ⟨w64 v, 0, 0, 0, 0⟩ ≠ m then next f q
      else match indexRow (f.indexGet el p e) e true v with
      | .error (c, w) => parkStep f el p m c w
      | .ok [] => next f q
      | .ok (x0 :: xs) =>
        let done := match f.lookup d v with | some (_, _, en) => finishedEnt d.alg en x0 | none => false
        if done then next f q
        else match pullBest f part p.args s v (x0 :: xs) none with
        | none => parkStep f el p m .data p.slotW
        | some none => next f q
        | some (some c) =>
          match combineAt f el p d c with
          | .ok (f, p) => next f { p with vals := q.vals }
          | .error (x, w) => parkStep f el p m x w

/-- The out-degrees of a member's live DELTA entries, summed, or the fault of the index. -/
def densityOf (f : Fabric) (g : IndexGet) (e : Rel) (x : Member) : List Nat → Except (Cause × Word) Nat
  | [] => .ok 0
  | j :: js =>
    (densityOf f g e x js).bind fun n =>
      let u := f.ent x j
      if u.live && u.delta (f.rounds x) then (rowBounds g e false (u.col 0)).map fun b => n + (b.2 - b.1) else .ok n

/-- The mode that EDENS chooses (R298). -/
def densMode (w0 : DWord) (s t : Nat) : Nat :=
  let old := fld w0 39 39
  let th := fld w0 31 16
  if fld w0 37 36 = 2 ∧ 0 < t then
    let m := if old = 0 ∧ th * t ≤ 65536 * s then 1 else old
    if m = 1 ∧ 65536 * s < (th - fld w0 15 0) * t then 0 else m
  else old

/-- The phase of an EDENS whose members have all answered: its descriptor's words are still to be stored. -/
abbrev countedPhase : Nat := 75

/-- EDENS_COUNT (R298): a member answers, once; the last answer stores the descriptor's words (R300), which wait where the memory side
holds them, with what the words that they reach hold besides. -/
def edensCountAt (f : Fabric) (el id m : Nat) : Fabric :=
  onPend f el id fun p =>
    match edgeRels f el p with
    | none => parkStep f el p m .illegal p.slotW
    | some (s, e, _) => withIndex f el p e <| withMember f el p s m m fun x =>
      let g := f.indexGet el p e
      let sum := if p.phase = countedPhase then .ok 0 else densityOf f g e x (List.range x.cap)
      match sum.bind fun n => (g e.idx).map fun t => (n, t) with
      | .error (c, w) => parkStep f el p m c w
      | .ok (n, t) =>
        let q := if p.phase = countedPhase then { p with left := 0 } else { p with left := p.left - 1, cnt := p.cnt + n }
        if q.left ≠ 0 then f.putPend el q
        else
          let md := densMode p.a q.cnt t
          let sum := min q.cnt 0xFFFFFFFF
          let a := p.b.toNat
          let u := f.el el
          let chg := if md = fld p.a 39 39 then 0 else 1
          let wait := { q with left := 1, phase := countedPhase }
          match f.storeWords el p a [setFld (u.storedWord a) 39 39 md, setFld (u.storedWord (a + 8)) 63 32 sum] with
          | .ok f => complete f el q [p.raw p.d (w64 (sum * 2 ^ 32 + chg * 2 + md)), p.ordOut p.e]
          | .error (.trap c w) => parkStep (f.putPend el wait) el wait m c w
          | .error _ => (f.putPend el wait).post (.edensCount el id m)

/-! ## The events -/

/-- RBIND_MEMBER (R275). -/
def execRbindMember (el id mem : Nat) (s : State) : Host.Outcome State Fault Refusal := fabStep s fun f => rbindStep f el id mem
/-- RELATION_SCAN_VISIT (R276). -/
def execRelationScanVisit (el id : Nat) (s : State) : Host.Outcome State Fault Refusal := fabStep s fun f => scanVisit f el id
/-- RELATION_SWEEP_STEP (R271). -/
def execRelationSweepStep (el win : Nat) (s : State) : Host.Outcome State Fault Refusal := fabStep s fun f => sweepStep f el win
/-- TUPLE_INSERT_AT_HOME (R278). -/
def execTupleInsertAtHome (el id : Nat) (s : State) : Host.Outcome State Fault Refusal := fabStep s fun f => tupleInsert f el id
/-- TUPLE_DELETE_AT_HOME (R279). -/
def execTupleDeleteAtHome (el id : Nat) (s : State) : Host.Outcome State Fault Refusal := fabStep s fun f => tupleDelete f el id
/-- PROBE_AT_HOME (R277). -/
def execProbeAtHome (el id : Nat) (s : State) : Host.Outcome State Fault Refusal := fabStep s fun f => probeAt f el id
/-- ROUND_AT_MEMBER (R280). -/
def execRoundAtMember (el id mem : Nat) (s : State) : Host.Outcome State Fault Refusal := fabStep s fun f => roundAt f el id mem
/-- CLOSE_AT_MEMBER (R282). -/
def execCloseAtMember (el id mem : Nat) (s : State) : Host.Outcome State Fault Refusal := fabStep s fun f => closeAt f el id mem
/-- GRADIENT_STEP (R283). -/
def execGradientStep (el id : Nat) (s : State) : Host.Outcome State Fault Refusal := fabStep s fun f => gradStep f el id
/-- PUSH_SOURCE_VISIT (R296). -/
def execPushSourceVisit (el id mem : Nat) (s : State) : Host.Outcome State Fault Refusal := fabStep s fun f => pushVisit f el id mem
/-- PULL_VERTEX_VISIT (R296). -/
def execPullVertexVisit (el id mem : Nat) (s : State) : Host.Outcome State Fault Refusal := fabStep s fun f => pullVisit f el id mem
/-- EDGE_CONTRIBUTION_COMBINE (R294). -/
def execEdgeContributionCombine (el id : Nat) (c : Contrib) (s : State) : Host.Outcome State Fault Refusal := fabStep s fun f => combineStep f el id c
/-- EDENS_COUNT (R298). -/
def execEdensCount (el id mem : Nat) (s : State) : Host.Outcome State Fault Refusal := fabStep s fun f => edensCountAt f el id mem

end Sys2Proof.Machine
end

