-- ==== Sys2Proof/Machine/Claim.lean ====
section
/-! DEFINITION. The claim forms 0xE0 to 0xE5 (R371-R375, R378, R383, R391, R392): names, homes and the requests they send. -/

namespace Sys2Proof.Machine

/-! ## Names (R371, R373) -/

/-- A name: DIG, VER, FN. -/
abbrev Name := DWord × Word × Word

/-- Lane 1 of a name run. -/
def Name.lane1 (n : Name) : DWord := w64 (n.2.1.toNat * 2 ^ 32 + n.2.2.toNat)

/-- The name of a source select; one that is no name token raises FORMAT. -/
def FCtx.nameOf (c : FCtx) (sel : Nat) : Except Stop Name :=
  match c.tok sel with
  | some t => .ok (t.lane 0, w32 (fld (t.lane 1) 63 32), w32 (fld (t.lane 1) 31 0))
  | none => c.format

/-- A value folded into a digest. -/
def foldName (dig v : DWord) : DWord :=
  let d := (dig ^^^ v) * 0x00000100000001B3
  d ^^^ (d >>> 31)

/-- A 2-lane run of a form's output format. -/
def pairOut (dst fmt : Nat) (x y : DWord) : Out := ⟨dst, fmt, true, 3, [x, y], false, 0, none, false, false, none⟩

/-! ## Homes (R374, R375) -/

/-- BK.GEODE of an element's block; for a Fatik element that of its partition's lowest block (log 43). -/
def Fabric.geodeReg (f : Fabric) (el : Nat) : DWord := f.bk (f.regBlk el) 6
/-- NPKG. -/
def Fabric.npkg (f : Fabric) (el : Nat) : Nat := fld (f.geodeReg el) 25 16

/-- The hash of a name. -/
def nameHash (n : Name) : Nat :=
  let g : Word := w32 (fld n.1 31 0) ^^^ w32 (fld n.1 63 32) ^^^ n.2.2 ^^^ n.2.1
  (g ^^^ (g >>> 16)).toNat

/-- The stack and set of a name in a partition of this package, P packages taking part. -/
def Fabric.geodeHome (f : Fabric) (part P : Nat) (n : Name) : Nat × Nat :=
  let ss := f.stacksOf part
  let S := max 1 ss.length
  (ss.getD (nameHash n / P % S) 0, nameHash n / (P * S) % 8192)

/-! ## Entry ids (R377) -/

/-- An entry id of this package. -/
def Fabric.entryId (f : Fabric) (sd set way : Nat) (gen : BitVec 16) : DWord :=
  w64 (f.pkg * 2 ^ 54 + sd * 2 ^ 49 + set * 2 ^ 36 + way * 2 ^ 33 + gen.toNat)

/-- Does an id name a package, a stack or a set outside the partition, or set a reserved bit (R383)? -/
def Fabric.badEntryId (f : Fabric) (el : Nat) (id : DWord) : Bool :=
  decide (fld id 32 16 ≠ 0)
    || (if fld id 63 54 = f.pkg then !(f.stacksOf (f.partOf el)).contains (fld id 53 49)
        else decide (f.npkg el < fld id 63 54) || decide (24 ≤ fld id 53 49))

/-! ## Requests -/

/-- The slice operation of a claim form. -/
def gop (op : Nat) : GOp := match op with | 0xE1 => .claim | 0xE2 => .fulfil | 0xE3 => .abandon | 0xE4 => .clinv | _ => .clqry

/-- The request of a claim form's record: the name or bounds in its args, the id or operand in a, the control literal in cnt,
the set in cur. -/
def Fabric.greq (f : Fabric) (el : Nat) (p : Pend) : GReq :=
  let x := p.args.getD 0 0
  let y := p.args.getD 1 0
  let full := decide (p.op = 0xE2)
  { pkg := f.pkg, el := el, id := p.id, ctx := p.set.ctx, part := f.partOf el, priv := Image.priv ((f.el el).imageOf p.set.ctx),
    op := gop p.op, dig := x, ver := w32 (fld y 63 32), fn := w32 (fld y 31 0), eid := p.a,
    addr := if full then x else 0, len := if full then w32 (fld y 31 0) else 0, cls := BitVec.ofNat 4 p.cnt, set := p.cur,
    pod := p.cnt.testBit 4 }

/-- A Geode request's flits (R423, R425): the operation's data follow its first flit in a layout of the model's own (log 14). -/
def geodeFlits (npkg : Nat) (tag : DWord) (g : GReq) : List (BitVec 256) :=
  let k := match g.op with | .claim => 0 | .fulfil => 1 | .abandon => 2 | .clinv => 3 | .clqry => 4
  [BitVec.ofNat 256 (2 * 2 ^ 253 + 2 * 2 ^ 248 + 8 * 2 ^ 240 + g.part * 2 ^ 236 + g.priv * 2 ^ 234 + 3 * 2 ^ 232
      + tag.toNat * 2 ^ 160 + g.el % 65536 * 2 ^ 144 + 64 * g.id % 65536 * 2 ^ 120 + 0xFFFF * 2 ^ 104),
   BitVec.ofNat 256 (g.dig.toNat + g.fn.toNat * 2 ^ 64 + g.ver.toNat * 2 ^ 96 + g.eid.toNat * 2 ^ 128 + g.addr.toNat * 2 ^ 192),
   BitVec.ofNat 256 (g.len.toNat + g.cls.toNat * 2 ^ 32 + g.pod.toNat * 2 ^ 36 + k * 2 ^ 40 + g.ctx * 2 ^ 48 + npkg * 2 ^ 64)]

/-- A context-end notice's flits (R386; log 14): the same layout, with 5 for the operation. -/
def endFlits (npkg part ctx : Nat) : List (BitVec 256) :=
  [BitVec.ofNat 256 (2 * 2 ^ 253 + 2 * 2 ^ 248 + 8 * 2 ^ 240 + part * 2 ^ 236 + 2 * 2 ^ 234 + 3 * 2 ^ 232), 0,
   BitVec.ofNat 256 (5 * 2 ^ 40 + ctx * 2 ^ 48 + npkg * 2 ^ 64)]

/-- A context-end notice goes to every slice of the partition, and to the packages 0 to NPKG of the pod (R386). -/
def Fabric.endContext (f : Fabric) (part ctx npkg : Nat) : Fabric :=
  let f := f.postAll ((f.stacksOf part).map fun sd => .contextEndNotice sd f.pkg part ctx)
  if npkg = 0 then f
  else ((List.range (npkg + 1)).filter (· ≠ f.pkg)).foldl (fun f d =>
    match f.peerPort part d with
    | some n => f.sendFrame n d part 2 (endFlits npkg part ctx)
    | none => f) f

/-- A claim request leaves for a package: to a slice of this one, or in a frame to a peer; none where no port is live. -/
def Fabric.sendGeode (f : Fabric) (el : Nat) (p : Pend) (pkg : Nat) (ev : Ev) : Option Fabric :=
  if pkg = f.pkg then some (f.post ev)
  else
    (f.peerPort (f.partOf el) pkg).map fun n =>
      { f.sendFrame n pkg (f.partOf el) 2 (geodeFlits (f.npkg el) p.set.tag (f.greq el p)) with
        peers := f.peers ++ [(n, f.mkReq el p 0 .load 8 (2 ^ 56 + pkg * 2 ^ 46) 0 0)] }

/-- A claim form waits for the answers of its requests, or raises DATA where one cannot be sent (R391). -/
def FCtx.sendClaims (c : FCtx) (p : Pend) (rs : List (Nat × Ev)) : Except Stop Res :=
  match rs.foldl (fun (f : Option Fabric) r => f.bind fun f => f.sendGeode c.el p r.1 r.2) (some c.f) with
  | some f => .ok (Res.of f 0 [] (some { p with left := rs.length }))
  | none => .error (.trap .data c.slotW)

/-- Is the Geode off for an element: V clear, or no stack (R207, R374)? -/
def FCtx.geodeOff (c : FCtx) : Bool := !bit (c.f.geodeReg c.el) 31 || decide ((c.f.stacksOf c.part).length = 0)

/-- Packages that take part in a request's scope (R375). -/
def FCtx.packages (c : FCtx) : Nat := if bit c.control 4 then c.f.npkg c.el + 1 else 1

/-- Does a request ask for POD scope that the package does not take part in (R391)? -/
def FCtx.podOff (c : FCtx) : Bool := bit c.control 4 && decide (c.f.npkg c.el = 0)

/-- NAME (R373): a claim form like the others, which BK.GEODE must enable (R207, R374, R378). -/
def nameForm (c : FCtx) : Except Stop Res :=
  let out := fun (n : Name) =>
    if c.passesF0 [c.d, c.e] (c.resultF0 n.1) 2 then c.format else c.emits [pairOut c.d c.fout n.1 n.lane1, pairOut c.e c.fout n.1 n.lane1]
  if c.geodeOff then c.illegal
  else if bit c.control 0 then
    if c.vec then c.format else out (0, w32 (fld (c.va 0) 63 32), w32 (fld (c.va 0) 31 0))
  else (c.nameOf c.b).bind fun n => out (c.lanes.foldl (fun d k => if c.on k then foldName d (c.va k) else d) n.1, n.2)

/-- CLAIM and CLQRY (R380, R390): the name goes to its home. -/
def claimForm (c : FCtx) : Except Stop Res :=
  (c.nameOf c.a).bind fun n =>
    if c.geodeOff then c.illegal
    else if c.passesF0 [c.d, c.e] (c.resultF0 0) 2 then c.format
    else if c.podOff then .error (.trap .data c.slotW)
    else
      let h := c.f.geodeHome c.part c.packages n
      let p := { c.pend with args := [n.1, n.lane1], cnt := fld c.control 4 0, cur := h.2 }
      c.sendClaims p [(if bit c.control 4 then nameHash n % c.packages else c.f.pkg, .geodeSliceOperation h.1 (c.f.greq c.el p))]

/-- FULFIL and ABANDON go to the way their id names (R383). -/
def FCtx.entryRun (c : FCtx) (args : List DWord) : Except Stop Res :=
  let id := c.ra
  if c.geodeOff then c.illegal
  else if c.f.badEntryId c.el id then .error (.trap .claim 4)
  else
    let p := { c.pend with a := id, args := args, cur := fld id 48 36 }
    c.sendClaims p [(fld id 63 54, .geodeSliceOperation (fld id 53 49) (c.f.greq c.el p))]

/-- FULFIL (R383): a release, performed after its context's earlier stores and atomics. -/
def fulfilForm (c : FCtx) : Except Stop Res :=
  match c.tok c.b with
  | none => c.format
  | some t =>
    if c.elt.storesPending c.ctx c.s.stamp then .error (.park .fence 0)
    else c.entryRun [t.lane 0, w64 (fld (t.lane 1) 31 0)]

/-- ABANDON (R384). -/
def abandonForm (c : FCtx) : Except Stop Res := c.entryRun []

/-- CLINV (R389): FN, VLO and VHI go to every slice of the scope. -/
def clinvForm (c : FCtx) : Except Stop Res :=
  if c.geodeOff then c.illegal
  else if c.podOff then .error (.trap .data c.slotW)
  else
    let p := { c.pend with args := [w64 (fld c.rb 31 0), c.ra], cnt := fld c.control 4 0, vals := [0, 0] }
    let first := (c.f.sequencer c.part).getD 0
    let ps := if bit c.control 4 then List.range c.packages else [c.f.pkg]
    c.sendClaims p (ps.map fun k => (k, .clinvSetStep first (c.f.greq c.el p)))

/-- NAME (R373). -/
def execName (a b d e : BitVec 5) (t : BitVec 4) (s : State) : Host.Outcome State Fault Refusal := fire 0xE0 a b d e t nameForm s
/-- CLAIM (R380). -/
def execClaim (a b d e : BitVec 5) (t : BitVec 4) (s : State) : Host.Outcome State Fault Refusal := fire 0xE1 a b d e t claimForm s
/-- FULFIL (R383). -/
def execFulfil (a b d e : BitVec 5) (t : BitVec 4) (s : State) : Host.Outcome State Fault Refusal := fire 0xE2 a b d e t fulfilForm s
/-- ABANDON (R384). -/
def execAbandon (a b d e : BitVec 5) (t : BitVec 4) (s : State) : Host.Outcome State Fault Refusal := fire 0xE3 a b d e t abandonForm s
/-- CLINV (R389). -/
def execClinv (a b d e : BitVec 5) (t : BitVec 4) (s : State) : Host.Outcome State Fault Refusal := fire 0xE4 a b d e t clinvForm s
/-- CLQRY (R390). -/
def execClqry (a b d e : BitVec 5) (t : BitVec 4) (s : State) : Host.Outcome State Fault Refusal := fire 0xE5 a b d e t claimForm s

end Sys2Proof.Machine
end

