-- ==== Sys2Proof/Machine/Link.lean ====
section
/-! DEFINITION. Blocks of a Volwin link as they leave one of its ends (R421, R422), and the answers of requests that came as messages
(R423-R425). -/

namespace Sys2Proof.Machine

/-! ## Blocks -/

/-- The 32 bytes of a flit. -/
def flitBytes (x : BitVec 256) : List Byte := (List.range 32).map fun i => BitVec.ofNat 8 (fld x (8 * i + 7) (8 * i))
/-- CRC-32 of a block's flits (R45, R421). -/
def flitsCrc (fl : List (BitVec 256)) : Word := crc32 (fl.flatMap flitBytes)

/-- A module of a stack's link. -/
def Fabric.vmod (f : Fabric) (sd md : Nat) : VModule := tget VModule.reset (f.die sd).mods md
def Fabric.setMod (f : Fabric) (sd md : Nat) (m : VModule) : Fabric := f.modDie sd fun d => { d with mods := tset d.mods md m }
/-- Is a module in service? -/
def Fabric.modUp (f : Fabric) (sd md : Nat) : Bool := decide (md < 10) && bit (f.bd sd 0x220) (32 + md)
/-- RETRY counts n blocks more (R421). -/
def Fabric.countRetry (f : Fabric) (sd n : Nat) : Fabric :=
  f.setBd sd 0x220 (setFld (f.bd sd 0x220) 31 16 (min (fld (f.bd sd 0x220) 31 16 + n) 0xFFFF))

/-- A block's trailer from its number, acknowledgment and flits. -/
def mkTrailer (seq ack : Nat) (fl : List (BitVec 256)) : DWord := w64 (seq % 4096 * 2 ^ 44 + ack % 4096 * 2 ^ 32 + (flitsCrc fl).toNat)

/-- A block with no message: idle flits, all zero but for CLASS 7. -/
def idleFlits : List (BitVec 256) := List.replicate 16 (BitVec.ofNat 256 (7 * 2 ^ 253))

/-- The end of a module that takes what travels in a direction. -/
def VModule.taker (m : VModule) (toDie : Bool) : VEnd := if toDie then m.die else m.base
/-- That end replaced. -/
def VModule.setTaker (m : VModule) (toDie : Bool) (e : VEnd) : VModule := if toDie then { m with die := e } else { m with base := e }

/-- A message's flits as blocks of 16, idle flits behind the last (R421). -/
def blocksOf (fl : List (BitVec 256)) : List (List (BitVec 256)) :=
  (List.range ((fl.length + 15) / 16)).map fun i => ((fl.drop (16 * i)).take 16 ++ idleFlits).take 16

/-- A block leaves an end of a module and waits for its acknowledgment; while 64 wait, the blocks behind them are not sent yet (R422). -/
def Fabric.sendBlock (f : Fabric) (sd md : Nat) (toDie : Bool) (fl : List (BitVec 256)) : Fabric :=
  let m := f.vmod sd md
  let e := m.taker (!toDie)
  let b : VBlock := ⟨fl, mkTrailer e.tx (e.rx + 4095) fl, toDie⟩
  let f := f.setMod sd md (m.setTaker (!toDie) { e with tx := (e.tx + 1) % 4096, unacked := e.unacked ++ [b] })
  if e.unacked.length < 64 then f.post (.volwinBlockReceive sd md b) else f

/-- The sink of a module's end takes a message: the credit of its flits is to be returned (R424). -/
def Fabric.oweCredit (f : Fabric) (sd md : Nat) (toDie : Bool) (cls n : Nat) : Fabric :=
  let m := f.vmod sd md
  let e := m.taker toDie
  f.setMod sd md (m.setTaker toDie { e with cred := tset e.cred (8 + cls) (tget 0 e.cred (8 + cls) + n) })

/-- A message with the CRED that its module's end writes into its header (R423): up to 31 flits of the lowest class it owes any of. -/
def Fabric.withCredit (f : Fabric) (sd md : Nat) (toDie : Bool) (fl : List (BitVec 256)) : Fabric × List (BitVec 256) :=
  let m := f.vmod sd md
  let e := m.taker (!toDie)
  match (List.range 7).find? (fun c => decide (tget 0 e.cred (8 + c) ≠ 0)), fl with
  | some c, x :: t =>
    let n := min 31 (tget 0 e.cred (8 + c))
    (f.setMod sd md (m.setTaker (!toDie) { e with cred := tset e.cred (8 + c) (tget 0 e.cred (8 + c) - n) }), setFld x 231 224 (c * 32 + n) :: t)
  | _, _ => (f, fl)

/-- A message leaves on a module, or on the lowest in service where that one is not; over a dead link it is lost (R422, R423). -/
def Fabric.sendMessage (f : Fabric) (sd md : Nat) (toDie : Bool) (fl : List (BitVec 256)) : Fabric :=
  match (md :: List.range 10).find? fun k => f.modUp sd k with
  | some md =>
    let x := f.withCredit sd md toDie fl
    (blocksOf x.2).foldl (fun f b => f.sendBlock sd md toDie b) x.1
  | none => f

/-! ## Requests that came as messages (R425) -/

/-- The order id that an answer's firing and lane stand for, and which of its words it answers: a request of more than 8 bytes is one
access for each word, their lanes 64 apart, or 65,536 for a peer's, which has its order id for a lane. -/
def rawKey (el id lane : Nat) : Nat × Nat := if el < 131072 then (64 * id + lane % 64, lane / 64) else (lane % 65536, lane / 65536)

/-- The record of the request that an answer belongs to. -/
def Fabric.rawOf (f : Fabric) (el id lane : Nat) : Option RawReq :=
  f.raws.find? fun r => decide (r.el = el) && decide (r.oid = (rawKey el id lane).1)

/-- The record of the Geode operation or CSR access that belongs to a firing: its order id's bits above the lane's name it (log 14). -/
def Fabric.rawAt (f : Fabric) (el id : Nat) : Option RawReq := f.raws.find? fun r => decide (r.el = el) && decide (r.oid / 64 = id)

/-- An answer message leaves: over the link that the request crossed, with its answer place, or in a frame. The requests of a stack's own
Fatik elements are answered toward it. -/
def Fabric.rawSay (f : Fabric) (r : RawReq) (opc : Nat) (fail : Bool) (cause : BitVec 2) (data : List DWord) : Fabric :=
  let fl := rspFlits opc r.part r.el r.oid fail cause data
  if r.el < 131072 then
    f.sendMessage r.sd r.md (!(isFatik r.el && decide (fatikStack r.el = r.sd))) (match fl with
      | x :: t => setFld x 143 139 r.apl :: t
      | [] => [])
  else f.answerPeer ((r.el - 131072) / 65536) r.part fl

/-- One of the words of a request is done: the last sends the answer, unless a fault or a retry went in its place. -/
def Fabric.rawDone (f : Fabric) (r : RawReq) (i : Nat) (a : Ans) : Fabric :=
  let x := { r with left := r.left - 1, words := tset r.words i a.val, fail := r.fail || a.fail, cause := if r.fail then r.cause else a.cause }
  if x.left ≠ 0 then { f with raws := f.raws.map fun y => if y = r then x else y }
  else
    let f := { f with raws := f.raws.erase r }
    if x.said then f
    else f.rawSay x (if x.data && !x.fail then 0 else 1) x.fail x.cause (if x.data && !x.fail then (List.range x.n).map (tget 0 x.words) else [])

/-- A fault answer (2), a retry (3) or a deferral (4) goes back for a request that came as a message; after the first two no answer
follows. -/
def Fabric.rawStop (f : Fabric) (r : RawReq) (opc : Nat) (data : List DWord) (fail : Bool := false) : Fabric :=
  let f := if r.said then f else f.rawSay r opc fail 0 data
  if opc = 4 then f
  else if r.left ≤ 1 then { f with raws := f.raws.erase r }
  else { f with raws := f.raws.map fun y => if y = r then { r with left := r.left - 1, said := true } else y }

end Sys2Proof.Machine
end

