-- ==== Sys2Proof/Machine/GeodeEv.lean ====
section
/-! DEFINITION. The Geode slices (R376-R390): GEODE_SLICE_OPERATION, CLINV_SET_STEP and CONTEXT_END_NOTICE, with the eviction
queue. The answers reach their elements within the step (log 1). -/

namespace Sys2Proof.Machine

/-! ## Ways -/

def wayKey (set w : Nat) : Nat := 8 * set + w
/-- Way w of a set. -/
def BaseDie.way (d : BaseDie) (set w : Nat) : Way := tget Way.reset d.ways (wayKey set w)
/-- A way written. -/
def Fabric.putWay (f : Fabric) (sd key : Nat) (w : Way) : Fabric := f.modDie sd fun d => { d with ways := tset d.ways key w }
/-- The way of a set that holds a name. -/
def BaseDie.holds (d : BaseDie) (set part : Nat) (n : Name) : Option (Nat × Way) :=
  ((List.range 8).map fun w => (w, d.way set w)).find? fun x =>
    decide (x.2.state ≠ 0) && decide (x.2.part = part) && decide (x.2.dig = n.1) && decide (x.2.ver = n.2.1) && decide (x.2.fn = n.2.2)

/-! ## Eviction records (R387, R388) -/

/-- One more record that is not written. -/
def Fabric.lostRecord (f : Fabric) (sd : Nat) : Fabric := f.setBd sd 4 ((satAdd (w32 (f.bd sd 4).toNat) 1).setWidth 64)

/-- The words of an eviction record: cause 1 eviction, 2 CLINV. -/
def evictionRecord (w : Way) (cause : Nat) : List DWord :=
  [w.dig, w64 (w.ver.toNat * 2 ^ 32 + w.fn.toNat), w.addr, w64 ((w.cls.toNat + cause * 16) * 2 ^ 32 + w.len.toNat)]

/-- Where the n-th next record goes. -/
def Fabric.recordAddr (f : Fabric) (sd n : Nat) : Nat :=
  fld (f.bd sd 2) 56 12 * 4096 + 32 * ((fld (f.bd sd 3) 31 0 + n) % 2 ^ (fld (f.bd sd 2) 11 8 + 7))

/-- One more record written. -/
def Fabric.countRecord (f : Fabric) (sd : Nat) : Fabric := f.setBd sd 3 (setFld (f.bd sd 3) 31 0 (fld (f.bd sd 3) 31 0 + 1))

/-- The key of a slice's eviction queue as an issuer, which no element waits for. -/
def reportKey (sd : Nat) : Nat := ctlKey + 1 + sd

/-- The words of a record leave for the peer package that its ring names (R205, R368); none where no port is live. -/
def Fabric.sendRecordWords (f : Fabric) (sd a : Nat) (ws : List DWord) : Option Fabric :=
  let part := f.partOfStack sd
  (f.peerPort part (a / 2 ^ 46 - 1024)).map fun n =>
    (ws.zipIdx).foldl (fun (f : Fabric) (x : DWord × Nat) =>
      let q : Req :=
        { el := reportKey sd, id := 0, lane := x.2, ctx := 0, part := part, priv := 2, ukind := 0, op := .store, bytes := 8,
          addr := a + 8 * x.2, data := x.1, cmp := 0, oid := 0xFF80 + 4 * sd + x.2, pred := none, eng := false, fe := false }
      { f.sendFrame n (a / 2 ^ 46 - 1024) part 2 (reqFlits 0 0 q) with peers := f.peers ++ [(n, q)] }) f

/-- The records that wait are written in order. The base die writes a record as a block controller writes its words (log 42); where
the queue is not valid or full, or the record's translation or access check fails, it is counted instead. A record in a peer package
is complete when the peer has answered its four words. -/
def Fabric.pumpReports (f : Fabric) (sd : Nat) : Nat → Fabric
  | 0 => f
  | n + 1 =>
    match (f.die sd).reports with
    | [] => f
    | ws :: r =>
      let done := fun f : Fabric => (f.modDie sd fun d => { d with reports := r }).pumpReports sd n
      let ix := f.bd sd 3
      let a := f.ownAddr (f.recordAddr sd 0)
      if !bit (f.bd sd 2) 0 ∨ (fld ix 31 0 + 2 ^ 32 - fld ix 63 32) % 2 ^ 32 = 2 ^ (fld (f.bd sd 2) 11 8 + 7) then done (f.lostRecord sd)
      else if 1024 ≤ a / 2 ^ 46 then
        match f.sendRecordWords sd a ws with
        | some f => f.modDie sd fun d => { d with reportLeft := 4, reportBad := false }
        | none => done (f.lostRecord sd)
      else
        match f.ctlPut (f.partOfStack sd) a ws with
        | none => done (f.lostRecord sd)
        | some f => done (f.countRecord sd)

/-- A DONE entry that leaves is reported in the eviction queue. -/
def Fabric.reportEntry (f : Fabric) (sd : Nat) (w : Way) (cause : Nat) : Fabric :=
  let idle := (f.die sd).reports.isEmpty
  let f := f.modDie sd fun d => { d with reports := d.reports ++ [evictionRecord w cause] }
  if idle then f.pumpReports sd 1 else f

/-- A peer has answered a word of the record that waits for it. -/
def Fabric.reportAnswered (f : Fabric) (sd : Nat) (ok : Bool) : Fabric :=
  let d := f.die sd
  if d.reportLeft = 0 then f
  else if d.reportLeft ≠ 1 then f.setDie sd { d with reportLeft := d.reportLeft - 1, reportBad := d.reportBad || !ok }
  else
    let f := f.setDie sd { d with reportLeft := 0, reportBad := false, reports := d.reports.tail }
    (if d.reportBad || !ok then f.lostRecord sd else f.countRecord sd).pumpReports sd d.reports.length

/-- Does a slice wait: for the record of an earlier operation, which no later answer of its set may come before (R388), or, where an
operation would report, for a page of the ring that is write-protected (R369)? -/
def Fabric.reportsHold (f : Fabric) (sd : Nat) (g : GReq) : Bool :=
  let d := f.die sd
  let mayEvict := match g.op with
    | .claim => (d.holds g.set g.part (g.dig, g.ver, g.fn)).isNone && ((List.range 8).all fun w => decide ((d.way g.set w).state ≠ 0))
    | .clinv => true
    | _ => false
  !d.reports.isEmpty ||
    (mayEvict && bit (f.bd sd 2) 0 && (List.range 8).any fun n => f.migrating (ctlMaster (f.partOfStack sd)) (f.recordAddr sd n))

/-! ## Answers (R379) -/

/-- Lane 1 of an answer run. -/
def answerLane1 (code : Nat) (cls : BitVec 4) (reason len : Nat) : DWord :=
  w64 (code * 2 ^ 60 + cls.toNat * 2 ^ 56 + reason * 2 ^ 48 + len)

/-- An answer taken by the record of a claim form: x and y are the lanes of an answer run, or x the value of another form.
Phase 2100 marks a request held as a waiter. -/
def claimAnswered (f : Fabric) (el : Nat) (p : Pend) (x y : DWord) : Fabric :=
  if p.op = 0xE1 ∨ p.op = 0xE5 then
    let code := p.raw p.e (w64 (fld y 63 60))
    let first := if p.phase = 2100 then [] else [code]
    if fld y 63 60 = 1 then
      let q := { p with phase := 2100 }
      if p.grant then f.putPend el { q with outs := p.outs ++ [code] } else emitNow (f.putPend el q) el q code
    else complete f el p (p.outs ++ first ++ [pairOut p.d p.fout x y])
  else if p.op = 0xE4 then
    let add := fun i n => w64 (min ((p.vals.getD i 0).toNat + n) 0xFFFFFFFF)
    let q := { p with left := p.left - 1, vals := [add 0 (fld x 31 0), add 1 (fld x 63 32)] }
    if q.left ≠ 0 then f.putPend el q
    else complete f el q [q.raw q.d (w64 ((q.vals.getD 1 0).toNat * 2 ^ 32 + (q.vals.getD 0 0).toNat)), q.ordOut q.e]
  else complete f el p [p.raw p.d x, p.ordOut p.e]

/-- An answer goes to the element that asked, here or in a peer package. -/
def Fabric.geodeAnswer (f : Fabric) (pkg part el id : Nat) (x y : DWord) : Fabric :=
  if pkg = f.pkg then
    match f.rawAt el id, (f.el el).pendOf id with
    | some r, _ => (if fld y 63 60 = 1 then f else { f with raws := f.raws.erase r }).rawSay r 0 false 0 [x, y]
    | none, some p => claimAnswered f el p x y
    | none, none => f
  else f.answerPeer pkg part (rspFlits 0 part el (64 * id) false 0 [x, y])

/-- A trap found at a slice parks the request there (R392); a peer's is answered with a fault. -/
def Fabric.geodeTrap (f : Fabric) (g : GReq) (c : Cause) (info : Pend → Word) : Fabric :=
  if g.pkg = f.pkg then
    match f.rawAt g.el g.id, (f.el g.el).pendOf g.id with
    | some r, _ => f.rawStop r 2 [w64 c.code, (info (routePend f 0 0 0 0 (ordTok 0 0 false 0))).setWidth 64]
    | none, some p => parkStep f g.el p 0 c (info p)
    | none, none => f
  else f.answerPeer g.pkg g.part (rspFlits 2 g.part g.el (64 * g.id) false 0 [w64 c.code, (info (routePend f 0 0 0 0 (ordTok 0 0 false 0))).setWidth 64])

/-- The unit kind of a claim request (R398). -/
def Fabric.geodeKind (f : Fabric) (g : GReq) : Nat := if g.pkg ≠ f.pkg then 3 else if isFatik g.el then 1 else 0

/-- Has a CLINV swept a set already? -/
def Fabric.clinvBegun (f : Fabric) (sd : Nat) (g : GReq) : Bool := decide (g.op = .clinv) && (decide (g.set ≠ 0) || f.sequencer g.part != some sd)

/-- Does a request still take effect: a peer's, one whose firing waits, or a CLINV that has begun, which sweeps to its end? Any other
is withdrawn with its firing and has taken no effect (R386). -/
def Fabric.geodeLive (f : Fabric) (sd : Nat) (g : GReq) : Bool :=
  decide (g.pkg ≠ f.pkg) || ((f.el g.el).pendOf g.id).isSome || (f.rawAt g.el g.id).isSome || f.clinvBegun sd g

/-! ## CLAIM, FULFIL, ABANDON, CLQRY -/

/-- The clock's sweep of a class (R381): the victim, and the ways whose REF it clears. -/
def clockSweep (d : BaseDie) (set : Nat) (cls : BitVec 4) : Nat → Nat → List Nat → Nat × List Nat
  | 0, h, cleared => (h, cleared)
  | n + 1, h, cleared =>
    let w := d.way set h
    if w.state = 2 ∧ w.cls = cls then
      if w.ref && !cleared.contains h then clockSweep d set cls n ((h + 1) % 8) (h :: cleared) else (h, cleared)
    else clockSweep d set cls n ((h + 1) % 8) cleared

/-- The victim of a new entry of class c (R381): the fabric with REF cleared and the hand moved, and the way. -/
def Fabric.victim (f : Fabric) (sd set : Nat) (c : BitVec 4) : Option (Fabric × Nat) :=
  let d := f.die sd
  let done := (List.range 8).filter fun w => decide ((d.way set w).state = 2) && decide (c ≤ (d.way set w).cls)
  match done with
  | [] => none
  | _ =>
    let top := done.foldl (fun m w => max m (d.way set w).cls.toNat) 0
    let x := clockSweep d set (BitVec.ofNat 4 top) 24 (tget 0 d.hands set) []
    some (f.modDie sd fun d =>
      { d with
        ways := x.2.foldl (fun t w => tset t (wayKey set w) { d.way set w with ref := false }) d.ways
        hands := tset d.hands set ((x.1 + 1) % 8) }, x.1)

/-- CLAIM at its slice (R380). -/
def Fabric.claimAt (f : Fabric) (sd : Nat) (g : GReq) : Fabric :=
  let d := f.die sd
  let ans := fun (f : Fabric) x y => f.geodeAnswer g.pkg g.part g.el g.id x y
  match d.holds g.set g.part (g.dig, g.ver, g.fn) with
  | some (k, w) =>
    if w.state = 2 then
      ans (f.putWay sd (wayKey g.set k) { w with ref := true }) w.addr (answerLane1 2 w.cls 0 w.len.toNat)
    else if 256 ≤ w.waiters.length then ans f 0 (answerLane1 3 0 2 0)
    else if 16384 ≤ d.waitersUsed then ans f 0 (answerLane1 3 0 3 0)
    else
      let f := (f.putWay sd (wayKey g.set k) { w with waiters := w.waiters ++ [⟨g.pkg, g.el, g.id, g.ctx, g.part⟩] }).modDie sd fun d =>
        { d with waitersUsed := d.waitersUsed + 1 }
      ans f 0 (answerLane1 1 w.cls 0 0)
  | none =>
    let free := (List.range 8).find? fun w => (d.way g.set w).state = 0
    let pick := match free with | some w => some (f, w) | none => f.victim sd g.set g.cls
    match pick with
    | none => ans f 0 (answerLane1 3 0 1 0)
    | some (f, k) =>
      let old := (f.die sd).way g.set k
      let f := if old.state = 2 then f.reportEntry sd old 1 else f
      let w : Way := ⟨g.dig, g.ver, g.fn, 1, g.cls, false, old.gen + 1, g.pkg, g.ctx, g.part, 0, 0, [], 0⟩
      ans (f.putWay sd (wayKey g.set k) w) (f.entryId sd g.set k w.gen) (answerLane1 0 g.cls 0 0)

/-- The checks of an entry id at its way (R383, R385): the CLAIM information word of the first that fails. -/
def entryStop (w : Way) (g : GReq) : Option Word :=
  let info := fun r : Nat => some (w32 (w.gen.toNat * 2 ^ 16 + r))
  if w.state ≠ 1 then info 1
  else if w.gen.toNat ≠ fld g.eid 15 0 then info 2
  else if w.makerPkg ≠ g.pkg ∨ w.makerCtx ≠ g.ctx ∨ w.part ≠ g.part then info 3
  else none

/-- FULFIL at its slice (R383). -/
def Fabric.fulfilAt (f : Fabric) (sd : Nat) (g : GReq) : Fabric :=
  let key := wayKey g.set (fld g.eid 35 33)
  let w := tget Way.reset (f.die sd).ways key
  match entryStop w g with
  | some i => f.geodeTrap g .claim fun _ => i
  | none =>
    let f := (f.putWay sd key { w with addr := g.addr, len := g.len, state := 2, ref := true, waiters := [] }).modDie sd fun d =>
      { d with waitersUsed := d.waitersUsed - w.waiters.length }
    let f := w.waiters.foldl (fun (f : Fabric) x => f.geodeAnswer x.pkg x.part x.el x.id g.addr (answerLane1 2 w.cls 0 g.len.toNat)) f
    f.geodeAnswer g.pkg g.part g.el g.id (w64 w.waiters.length) 0

/-- ABANDON's hand-over (R384): the oldest waiter becomes the maker, or the way becomes free; 1 or 0. -/
def Fabric.handOver (f : Fabric) (sd key : Nat) (w : Way) : Fabric × Nat :=
  match w.waiters with
  | [] => (f.putWay sd key { w with state := 0 }, 0)
  | x :: r =>
    let gen := w.gen + 1
    let f := (f.putWay sd key { w with gen := gen, makerPkg := x.pkg, makerCtx := x.ctx, waiters := r }).modDie sd fun d =>
      { d with waitersUsed := d.waitersUsed - 1 }
    (f.geodeAnswer x.pkg x.part x.el x.id (f.entryId sd (key / 8) (key % 8) gen) (answerLane1 0 w.cls 0 0), 1)

/-- ABANDON at its slice. -/
def Fabric.abandonAt (f : Fabric) (sd : Nat) (g : GReq) : Fabric :=
  let key := wayKey g.set (fld g.eid 35 33)
  let w := tget Way.reset (f.die sd).ways key
  match entryStop w g with
  | some i => f.geodeTrap g .claim fun _ => i
  | none =>
    let x := f.handOver sd key w
    x.1.geodeAnswer g.pkg g.part g.el g.id (w64 x.2) 0

/-- CLQRY at its slice (R390). -/
def Fabric.clqryAt (f : Fabric) (sd : Nat) (g : GReq) : Fabric :=
  let ans := fun x y => f.geodeAnswer g.pkg g.part g.el g.id x y
  match (f.die sd).holds g.set g.part (g.dig, g.ver, g.fn) with
  | none => ans 0 (answerLane1 4 0 0 0)
  | some (_, w) =>
    if w.state = 2 then ans w.addr (answerLane1 2 w.cls 0 w.len.toNat) else ans 0 (answerLane1 5 w.cls 0 w.waiters.length)

/-! ## CLINV and context ends (R386, R389) -/

/-- One way under CLINV: invalidated, left MAKING, or no match. -/
def Fabric.clinvWay (f : Fabric) (sd : Nat) (g : GReq) (k : Nat) : Fabric × GReq :=
  let key := wayKey g.set k
  let w := tget Way.reset (f.die sd).ways key
  if w.state = 0 ∨ w.fn ≠ g.fn ∨ w.part ≠ g.part ∨ w.ver < g.ver ∨ g.dig.toNat < w.ver.toNat then (f, g)
  else if w.state = 2 then ((f.putWay sd key { w with state := 0 }).reportEntry sd w 2, { g with len := satAdd g.len 1 })
  else (f, { g with eid := w64 (min (g.eid.toNat + 1) 0xFFFFFFFF) })

/-- A set under CLINV: `len` and `eid` of the request count what was invalidated and what was left. -/
def Fabric.clinvSet (f : Fabric) (sd : Nat) (g : GReq) : Fabric × GReq :=
  (List.range 8).foldl (fun x k => x.1.clinvWay sd x.2 k) (f, g)

/-- CLINV's next set, next slice, or its answer. No rule orders the slices among themselves; they are swept in ascending stack number
(DESIGN CHOICE, log 48). -/
def Fabric.clinvStep (f : Fabric) (sd : Nat) (g : GReq) : Fabric :=
  let x := f.clinvSet sd g
  if g.set < 8191 then x.1.post (.clinvSetStep sd { x.2 with set := g.set + 1 })
  else
    match (f.stacksOf g.part).find? (sd < ·) with
    | some s => x.1.post (.clinvSetStep s { x.2 with set := 0 })
    | none => x.1.geodeAnswer g.pkg g.part g.el g.id (w64 (x.2.eid.toNat * 2 ^ 32 + x.2.len.toNat)) 0

/-- A way at the end of a context: its waiters leave, and what it was making is handed over. -/
def Fabric.endWay (f : Fabric) (sd pkg part ctx key : Nat) : Fabric :=
  let w := tget Way.reset (f.die sd).ways key
  let keep := w.waiters.filter fun x => !(decide (x.pkg = pkg) && decide (x.part = part) && decide (x.ctx = ctx))
  let v := { w with waiters := keep }
  let f := (f.putWay sd key v).modDie sd fun d => { d with waitersUsed := d.waitersUsed - (w.waiters.length - keep.length) }
  if w.state = 1 ∧ w.makerPkg = pkg ∧ w.part = part ∧ w.makerCtx = ctx then (f.handOver sd key v).1 else f

/-- Is a request of a context still to be answered at a slice, or a CLINV under way? -/
def claimUnder (sd : Nat) (owner : Nat × Nat × Nat) : Ev → Bool
  | .geodeSliceOperation d g => decide (d = sd) && decide (g.owner = owner)
  | .clinvSetStep _ g => decide (g.owner = owner)
  | _ => false

/-- A context-end notice at a slice (R386): it comes after every request of its context that is bound for the slice. -/
def Fabric.contextEnd (f : Fabric) (sd pkg part ctx : Nat) : Fabric :=
  if f.agenda.any (claimUnder sd (pkg, part, ctx)) then f.post (.contextEndNotice sd pkg part ctx)
  else ((f.die sd).ways.map (·.1)).foldl (fun f key => f.endWay sd pkg part ctx key) f

/-- Where a CLINV stands is kept in its record, so that one that parks goes on from there. -/
def Fabric.noteClinv (f : Fabric) (sd : Nat) (g : GReq) : Fabric :=
  match (f.el g.el).pendOf g.id with
  | some p => if g.op = .clinv ∧ g.pkg = f.pkg then f.putPend g.el { p with args := p.args.take 2 ++ [w64 sd, w64 g.set, g.eid, g.len.setWidth 64] } else f
  | none => f

/-- A way is read, and whether its entry can be used (R432): one erroneous byte is corrected; an entry with more leaves its way free
without a report, and its waiters raise DATA as the request does that met it (R392; of the waiters DESIGN CHOICE, log 34). -/
def Fabric.readWay (f : Fabric) (sd : Nat) (g : GReq) (key : Nat) : Fabric × Bool :=
  let w := tget Way.reset (f.die sd).ways key
  if w.errs = 0 then (f, true)
  else if w.errs = 1 then ((f.putWay sd key { w with errs := 0 }).addCE sd, true)
  else
    let f := (f.putWay sd key { w with state := 0, waiters := [], errs := 0 }).modDie sd fun d =>
      { d with waitersUsed := d.waitersUsed - w.waiters.length }
    (w.waiters.foldl (fun (f : Fabric) x => f.geodeTrap { g with pkg := x.pkg, el := x.el, id := x.id, part := x.part } .data Pend.slotW) (f.addUE sd), false)

/-- The ways that a request reads: that of its entry id, or those of its set. -/
def Fabric.readWays (f : Fabric) (sd : Nat) (g : GReq) : Fabric × Bool :=
  let ks := if g.op = .fulfil ∨ g.op = .abandon then [fld g.eid 35 33] else List.range 8
  ks.foldl (fun x k => let y := x.1.readWay sd g (wayKey g.set k); (y.1, x.2 && y.2)) (f, true)

/-- A claim request at its slice: an id that names a stack outside the partition is refused (R383); a request is lost with a dead
link (R422), else checked by the base die's table (R398), held back by a record still to be written, and stopped by an error in the
slice (R392). -/
def Fabric.geodeAt (f : Fabric) (sd : Nat) (ev : Ev) (g : GReq) (go : Fabric → Fabric) : Fabric :=
  let f := f.noteClinv sd g
  if !f.geodeLive sd g then f
  else if (g.op = .fulfil || g.op = .abandon) && !(f.stacksOf g.part).contains sd then f.geodeTrap g .claim fun _ => 4
  else if f.linkDead sd && !(decide (g.pkg = f.pkg) && isFatik g.el && decide (fatikStack g.el = sd)) then f.geodeTrap g .data Pend.slotW
  else if !f.dieAllows sd g.part g.priv (f.geodeKind g) 3 then f.geodeTrap g .access Pend.slotW
  else if f.reportsHold sd g then f.holdBack ev
  else
    let x := f.readWays sd g
    if x.2 then go x.1 else x.1.geodeTrap g .data Pend.slotW

/-- GEODE_SLICE_OPERATION (R380-R384, R390). -/
def execGeodeSliceOperation (sd : Nat) (g : GReq) (s : State) : Host.Outcome State Fault Refusal :=
  fabStep s fun f => f.geodeAt sd (.geodeSliceOperation sd g) g fun f =>
    match g.op with
    | .claim => f.claimAt sd g
    | .fulfil => f.fulfilAt sd g
    | .abandon => f.abandonAt sd g
    | .clinv => f.clinvStep sd g
    | .clqry => f.clqryAt sd g

/-- CLINV_SET_STEP (R389). -/
def execClinvSetStep (sd : Nat) (g : GReq) (s : State) : Host.Outcome State Fault Refusal :=
  fabStep s fun f => f.geodeAt sd (.clinvSetStep sd g) g fun f => f.clinvStep sd g

/-- CONTEXT_END_NOTICE (R386). -/
def execContextEndNotice (sd pkg part ctx : Nat) (s : State) : Host.Outcome State Fault Refusal :=
  fabStep s fun f => f.contextEnd sd pkg part ctx

end Sys2Proof.Machine
end

