-- ==== Sys2Proof/Machine/Task.lean ====
section
/-! DEFINITION. Task packets, stages and their queues (R321-R323, R327-R332) and the task forms 0xE8 to 0xEA (R335-R338). -/

namespace Sys2Proof.Machine

/-! ## Packets and handles (R321-R323, R330) -/

def pktLen (h : DWord) : Nat := fld h 63 58
def pktPrio (h : DWord) : Nat := fld h 57 56
def pktStage (h : DWord) : Nat := fld h 51 42
def pktSucc (h : DWord) : Nat := fld h 41 39
/-- The successor handles of a packet: its last NSUCC words. -/
def pktHandles (ws : List DWord) : List DWord := ws.drop (pktLen (ws.getD 0 0) - pktSucc (ws.getD 0 0))
/-- Payload word j; zero at and beyond P (R333). -/
def pktWord (ws : List DWord) (j : Nat) : DWord :=
  let h := ws.getD 0 0
  if j < pktLen h - 1 - pktSucc h then ws.getD (j + 1) 0 else 0

/-- Is a packet well formed (R323)? -/
def pktOk (ws : List DWord) : Bool :=
  let h := ws.getD 0 0
  decide (4 ≤ pktLen h) && decide (pktLen h ≤ 32) && decide (fld h 55 52 = 0) && decide (fld h 38 0 = 0) && decide (pktSucc h ≤ pktLen h - 1)
    && (pktHandles ws).all fun s => decide (fld s 53 52 ≠ 0) && decide (fld s 51 0 = 0)

/-- Is a tile handle refused (R330)? -/
def handleBad (w0 w1 : DWord) : Bool := decide (fld w0 63 57 ≠ 0) || decide (fld w1 63 60 = 15) || decide (fld w1 59 56 ≠ 0)

/-! ## Stage descriptors (R327-R329) -/

/-- A stage descriptor's eight words. -/
abbrev Stage := List DWord

def Stage.w0 (s : Stage) : DWord := s.getD 0 0
/-- The port count. -/
def Stage.ports (s : Stage) : Nat := fld s.w0 62 61 + 1
def Stage.anchor (s : Stage) : Nat := fld s.w0 60 51
def Stage.liveMax (s : Stage) : Nat := fld s.w0 50 46
/-- Items a port may hold. -/
def Stage.depth (s : Stage) : Nat := fld s.w0 45 42 + 1
def Stage.fetch (s : Stage) : Bool := bit s.w0 38
/-- The entries of a stage. -/
def Stage.entries (s : Stage) : List DWord := (s.drop 1).take (fld s.w0 41 39)

/-- Is a stage entry faulty (R329)? An entry of zeros is unused and names nothing; any other is judged by every case, whatever its KIND
(DEDUCED, log 47). -/
def Fabric.entryBad (f : Fabric) (part ports : Nat) (e : DWord) : Bool :=
  let src := fld e 25 20
  let fmt := fld e 29 26
  if e = 0 then false
  else if fld e 14 0 ≠ 0 ∨ 2 ≤ fld e 63 62 then true
  else
    decide (f.partOfDie (fld e 53 50) ≠ part)
      || (if bit e 19 then decide (fld e 18 15 < 3) else decide (fld e 18 15 ≠ 0))
      || (match Fmt.ofCode fmt with | some x => x.isMx | none => true)
      || decide (src = 0x1F) || decide (0x23 < src)
      || (decide (0x20 ≤ src) && decide (src ≤ 0x22) && (decide (fmt ≠ 7) || decide (ports ≤ src - 0x1F)))

/-- The block whose stage table an element of a partition reads: its own, or the partition's first for a Fatik element. -/
def Fabric.stageBlk (f : Fabric) (el : Nat) : Nat := if isFatik el then ((f.blksOf (f.partOf el)).head?).getD 0 else blockOf el

/-- The descriptor of stage n by a block's table; none where the stage counts as having V clear (R327, R328). -/
def Fabric.stage (f : Fabric) (bk n : Nat) : Option Stage :=
  let part := f.partOfBlk bk
  let w := f.bk bk 4
  if !bit w 0 then none
  else (f.ctlWords part (fld w 56 16 * 65536 + 64 * n) 8).bind fun (s : Stage) =>
    if !bit s.w0 63 || decide (fld s.w0 37 0 ≠ 0) || s.entries.any (f.entryBad part s.ports) then none else some s

/-- Is a packet deliverable by a block's table (R323)? -/
def Fabric.deliverable (f : Fabric) (bk : Nat) (ws : List DWord) : Bool :=
  match f.stage bk (pktStage (ws.getD 0 0)) with
  | none => false
  | some s =>
    (decide (pktSucc (ws.getD 0 0) = 0) || decide (s.liveMax ≠ 0))
      && (pktHandles ws).all fun h => match f.stage bk (fld h 63 54) with | some t => decide (fld h 53 52 < t.ports) | none => false

/-! ## Queues (R331) -/

/-- Items at a port of a stage, in stamp order. -/
def Block.port (b : Block) (stage port : Nat) : List Place := b.places.filter fun p => decide (p.stage = stage) && decide (p.port = port)
/-- Live firings of a stage. -/
def Block.liveOf (b : Block) (stage : Nat) : List Live := b.lives.filter fun l => l.stage = stage
/-- Has a port room for one more item? -/
def Fabric.hasRoom (f : Fabric) (s : Stage) (stage port : Nat) : Bool :=
  let b := f.blk s.anchor
  decide ((b.port stage port).length < s.depth) && decide (b.places.length < 128)

/-! ## The forms -/

/-- An item of a form leaves for its port, or the set parks under QUEUE (R339). -/
def FCtx.enqueue (c : FCtx) (s : Stage) (stage port : Nat) (ws : List DWord) : Except Stop Res :=
  if c.f.hasRoom s stage port then
    .ok (Res.of (c.f.post (.queueAccept ⟨c.part, stage, port, ws, some (c.el, c.id), false⟩)) 0 [] (some { c.pend with left := 1 }))
  else .error (.park .queue 0)

/-- TASK (R336). -/
def taskForm (c : FCtx) : Except Stop Res :=
  let a := c.ra.toNat
  if !inElem a 8 then alignAt a
  else
    let len := pktLen (c.elt.mem.word a)
    if Config.elemBytes < a + 8 * len then alignAt a
    else
      let ws := c.elt.mem.words a (max 1 len)
      let bk := c.f.stageBlk c.el
      let stage := pktStage (ws.getD 0 0)
      if !pktOk ws then c.format
      else if !c.f.deliverable bk ws then .error (.trap .illegal (w32 stage))
      else match c.f.stage bk stage with
        | some s => c.enqueue s stage 0 ws
        | none => .error (.trap .illegal (w32 stage))

/-- TILE (R336). -/
def tileForm (c : FCtx) : Except Stop Res :=
  let a := c.ra.toNat
  let stage := fld c.control 9 0
  let port := fld c.control 11 10
  if fld c.control 31 12 ≠ 0 then c.format
  else if !inElem a 16 then alignAt a
  else
    let w0 := c.elt.mem.word a
    let w1 := c.elt.mem.word (a + 8)
    if port = 0 ∨ handleBad w0 w1 then c.format
    else match c.f.stage (c.f.stageBlk c.el) stage with
      | none => .error (.trap .illegal (w32 stage))
      | some s => if s.ports ≤ port then .error (.trap .illegal (w32 stage)) else c.enqueue s stage port [w0, w1]

/-- STAGEQ's status word (R337). -/
def Fabric.stageStatus (f : Fabric) (stage : Nat) (s : Stage) : DWord :=
  let b := f.blk s.anchor
  let q := fun p => (b.port stage p).length
  w64 ((b.liveOf stage).length * 2 ^ 58 + q 0 * 2 ^ 53 + q 1 * 2 ^ 48 + q 2 * 2 ^ 43 + q 3 * 2 ^ 38 + (tget 0 b.seqs stage).toNat)

/-- The item of a successor handle. -/
def successorItem (part : Nat) (h : DWord) (tile : List DWord) (asker : Nat × Nat) : Item :=
  ⟨part, fld h 63 54, fld h 53 52, tile, some asker, false⟩

/-- STAGEQ (R334, R336). -/
def stageqForm (c : FCtx) : Except Stop Res :=
  let stage := fld c.control 9 0
  let ha := fld c.control 30 12
  let found := c.f.stage (c.f.stageBlk c.el) stage
  if bit c.control 11 || bit c.control 31 then c.format
  else if !bit c.control 10 then
    c.emits [c.scalar c.d true (match found with | some s => c.f.stageStatus stage s | none => 0), c.ord c.e]
  else
    let dead := Except.error (Stop.trap .illegal (w32 c.ra.toNat))
    match found with
    | none => dead
    | some s =>
      match (c.f.blk s.anchor).lives.find? fun l => decide (l.stage = stage) && decide (l.seq.toNat = c.ra.toNat) with
      | none => dead
      | some l =>
        if s.liveMax = 0 then dead
        else if !inElem ha 16 then alignAt ha
        else
          let tile := c.elt.mem.words ha 2
          if handleBad (tile.getD 0 0) (tile.getD 1 0) then c.format
          else
            let f := (c.f.modBlk s.anchor fun b => { b with lives := b.lives.erase l }).post (.stageFire s.anchor)
            match l.succ with
            | [] => .ok (Res.of f 0 [c.ord c.d, c.ord c.e] none)
            | h :: r =>
              .ok (Res.of (f.post (.successorForward (successorItem c.part h tile (c.el, c.id)))) 0 []
                (some { c.pend with left := 1, a := c.ra, args := r, vals := tile }))

/-- TASK (R336). -/
def execTask (a b d e : BitVec 5) (t : BitVec 4) (s : State) : Host.Outcome State Fault Refusal := fire 0xE8 a b d e t taskForm s
/-- TILE (R336). -/
def execTile (a b d e : BitVec 5) (t : BitVec 4) (s : State) : Host.Outcome State Fault Refusal := fire 0xE9 a b d e t tileForm s
/-- STAGEQ (R336). -/
def execStageq (a b d e : BitVec 5) (t : BitVec 4) (s : State) : Host.Outcome State Fault Refusal := fire 0xEA a b d e t stageqForm s

end Sys2Proof.Machine
end

