-- ==== Sys2Proof/Machine/LaunchEv.lean ====
section
/-! DEFINITION. Launch windows and stage queues (R324-R326, R331-R334, R339, R341): HOST_PACKET_WRITE, BRIDGE_FORWARD,
QUEUE_ACCEPT, STAGE_FIRE, STAGE_ENTRY_SEND, SUCCESSOR_FORWARD and SIGNAL_RELEASE. -/

namespace Sys2Proof.Machine

/-- Elements of a partition whose sets wait under QUEUE for a place are told that one is free (R339). -/
def Fabric.releaseQueue (f : Fabric) (part : Nat) : Fabric :=
  f.postAll ((f.els.filter fun p => decide (f.partOf p.1 = part) && p.2.parked.any fun x => x.reason == .queue && decide (x.on ≠ 1)).map
    fun p => .signalRelease p.1)

/-- The firings of an element that wait to retire for a route look again, in their order (R203). -/
def retireHeld (f : Fabric) (el : Nat) : Fabric :=
  let f := ((f.el el).pend.filter fun p => decide (p.phase = heldPhase)).foldl (fun f p => retire f el { p with phase := 0 } p.cnt) f
  flushOrder f el (f.el el).pend.length

/-- SIGNAL_RELEASE (R339): QUEUE-parked sets are examined again, accesses answered with retry are sent again (R365), and firings that a
route holds back look again (R203). While the sink of 16 tokens is full the release waits (R340). -/
def signalIn (f : Fabric) (el : Nat) : Fabric :=
  if 16 ≤ (f.el el).sink.length then f.holdBack (.signalRelease el) else retireHeld ((f.resendAccs el .queue).wakeFor el .queue) el

/-- SIGNAL_RELEASE (R339). -/
def execSignalRelease (el : Nat) (s : State) : Host.Outcome State Fault Refusal := fabStep s fun f => signalIn f el

/-- The block whose table and registers serve a partition's launch window: the steward block of its lowest die (R325). -/
def Fabric.launchBlk (f : Fabric) (part : Nat) : Nat := 64 * ((f.diesOf part).head?.getD 0)

/-- The 8-byte words that a string of bytes holds, lowest byte first (R189). -/
def bytesWords : List Byte → List DWord
  | a :: b :: c :: d :: e :: g :: h :: i :: r => (i ++ h ++ g ++ e ++ d ++ c ++ b ++ a) :: bytesWords r
  | _ => []

/-- Has Bedrock booted a partition: is one of its SYS images resident (R444, R452)? Until then its function is disabled (DESIGN CHOICE,
log 45). -/
def Fabric.booted (f : Fabric) (part : Nat) : Bool :=
  f.els.any fun x => decide (f.partOf x.1 = part) && x.2.slots.any fun y => decide (Image.priv y.2.image = 1)

/-- HOST_PACKET_WRITE (R324): a write of a string of bytes; a packet takes a place, or is refused or dropped. -/
def hostPacket (f : Fabric) (part off : Nat) (bs : List Byte) : Fabric :=
  let l := f.launchOf part
  let ws := bytesWords bs
  if 0x10000 ≤ off ∨ f.booted part = false then f
  else if off % 256 ≠ 0 ∨ bs.length ≠ 8 * ws.length ∨ ws.length ≠ pktLen (ws.getD 0 0) ∨ !pktOk ws ∨ !f.deliverable (f.launchBlk part) ws then
    f.modLaunch part fun l => { l with refused := min (l.refused + 1) 4095 }
  else if 64 ≤ l.places.length then f.modLaunch part fun l => { l with dropped := min (l.dropped + 1) 4095 }
  else
    let q : Item := ⟨part, pktStage (ws.getD 0 0), 0, ws, none, true⟩
    let f' := f.modLaunch part fun l => { l with places := l.places ++ [q] }
    if l.places.any fun x => x.stage = q.stage then f' else f'.post (.bridgeForward part q.stage)

/-- BRIDGE_FORWARD (R326): a stage's oldest packet leaves once the function's posted writes are complete. -/
def bridgeGo (f : Fabric) (part stage : Nat) : Fabric :=
  match (f.launchOf part).places.find? fun x => x.stage = stage with
  | none => f
  | some q => if (f.launchOf part).posted = 0 then f.post (.queueAccept q) else f.post (.bridgeForward part stage)

/-- What follows the acceptance of an item: its asker's completion or next successor, or its bridge place freed. -/
def accepted (f : Fabric) (q : Item) : Fabric :=
  let f :=
    if q.host then
      let f := f.modLaunch q.part fun l => { l with places := l.places.erase q }
      if (f.launchOf q.part).places.any fun x => x.stage = q.stage then f.post (.bridgeForward q.part q.stage) else f
    else f
  match q.asker with
  | none => f
  | some (el, id) =>
    match (f.el el).pendOf id with
    | none => f
    | some p =>
      match p.args with
      | [] => complete f el p [p.ordOut p.d, p.ordOut p.e]
      | h :: r => (f.putPend el { p with args := r }).post (.successorForward (successorItem q.part h p.vals (el, id)))

/-- The entry contexts of a stage are asked for (R341). -/
def Fabric.prefetch (f : Fabric) (s : Stage) : Fabric :=
  f.postAll ((s.entries.filter fun e => fld e 63 62 = 1).map fun e => .configMissServe (fld e 53 38) (fld e 61 54))

/-- QUEUE_ACCEPT (R331): an item with room takes a place and a stamp; one without waits, as does one whose anchor's block is written out by
SAVE: a block that only has stopped fires no stage, and still accepts (R348). -/
def queueTake (f : Fabric) (q : Item) : Fabric :=
  match f.stage (f.launchBlk q.part) q.stage with
  | none => f.post (.queueAccept q)
  | some s =>
    match f.stage s.anchor q.stage with
    | none => f.post (.queueAccept q)
    | some s =>
      if (f.blk s.anchor).saved || !f.hasRoom s q.stage q.port then f.post (.queueAccept q)
      else
        let f := f.modBlk s.anchor fun b =>
          { b with places := b.places ++ [⟨q.stage, q.port, b.accStamp, q.words⟩], accStamp := (b.accStamp + 1) % 2 ^ 64 }
        let f := if q.port = 0 ∧ s.fetch then f.prefetch s else f
        (accepted f q).post (.stageFire s.anchor)

/-- Is a stage ready at its anchor (R332)? -/
def Fabric.stageReady (f : Fabric) (bk n : Nat) : Bool :=
  let b := f.blk bk
  match f.stage bk n with
  | none => false
  | some s =>
    decide (s.anchor = bk) && (List.range s.ports).all (fun p => !(b.port n p).isEmpty)
      && (decide (s.liveMax = 0) || (decide ((b.liveOf n).length < s.liveMax) && decide (b.lives.length < 64)))

/-- Does a port-0 head come before another: lower PRIO, then lower stamp (R332)? -/
def headBefore (x y : Place) : Bool :=
  let px := pktPrio (x.words.getD 0 0)
  let py := pktPrio (y.words.getD 0 0)
  decide (px < py) || (decide (px = py) && decide (x.stamp < y.stamp))

/-- The stage an anchor fires: its port-0 head. -/
def Fabric.stagePick (f : Fabric) (bk : Nat) : Option Place :=
  let b := f.blk bk
  let heads := b.places.filter fun p =>
    decide (p.port = 0) && decide ((b.port p.stage 0).head? = some p) && f.stageReady bk p.stage
  heads.foldl (fun best p => match best with | none => some p | some q => if headBefore p q then some p else some q) none

/-- The token of a stage entry (R333). -/
def entryToken (e : DWord) (seq : Word) (pkt : List DWord) (tiles : List (List DWord)) : Tok :=
  let src := fld e 25 20
  let fmt := fld e 29 26
  let w := codeWidth fmt
  let tile := decide (0x20 ≤ src) && decide (src ≤ 0x22)
  let lanes := if tile then (tiles.getD (src - 0x20) []) else [trunc w (if src = 0x23 then seq.setWidth 64 else pktWord pkt src)]
  let tag := fld e 61 54 * 2 ^ 56 + (if bit e 19 then 2 ^ 52 + seq.toNat % 2 ^ (fld e 18 15 + 1) else 0)
  ⟨mkHdr (fld e 53 38) (fld e 31 30) (fld e 37 33) (bit e 32) fmt (if tile then 2 else 1) 0 tile false false false, if tile then 3 else 1, w64 tag, lanes⟩

/-- STAGE_FIRE (R332): the stage with the best head takes one item of every port and sends its entries. -/
def stageGo (f : Fabric) (bk : Nat) : Fabric :=
  if (f.blk bk).stopped then f
  else match f.stagePick bk with
  | none => f
  | some h =>
    match f.stage bk h.stage with
    | none => f
    | some s =>
      let b := f.blk bk
      let taken := (List.range s.ports).filterMap fun p => (b.port h.stage p).head?
      let tiles := (taken.drop 1).map (·.words)
      let seq := tget (0 : Word) b.seqs h.stage
      let live := if s.liveMax = 0 then [] else [(⟨h.stage, seq, pktHandles h.words⟩ : Live)]
      let f := f.modBlk bk fun b =>
        { b with places := b.places.filter (fun p => !taken.contains p), seqs := tset b.seqs h.stage (seq + 1), lives := b.lives ++ live }
      let f := f.postAll ((s.entries.filter fun e => fld e 63 62 = 1).map fun e => .stageEntrySend (fld e 53 38) (entryToken e seq h.words tiles))
      (f.releaseQueue (f.partOfBlk bk)).post (.stageFire bk)

/-- HOST_PACKET_WRITE (R324). -/
def execHostPacketWrite (part off : Nat) (bs : List Byte) (s : State) : Host.Outcome State Fault Refusal := fabStep s fun f => hostPacket f part off bs
/-- BRIDGE_FORWARD (R326). -/
def execBridgeForward (part stage : Nat) (s : State) : Host.Outcome State Fault Refusal := fabStep s fun f => bridgeGo f part stage
/-- QUEUE_ACCEPT (R331). -/
def execQueueAccept (q : Item) (s : State) : Host.Outcome State Fault Refusal := fabStep s fun f => queueTake f q
/-- STAGE_FIRE (R332). -/
def execStageFire (bk : Nat) (s : State) : Host.Outcome State Fault Refusal := fabStep s fun f => stageGo f bk
/-- STAGE_ENTRY_SEND (R333): the token leaves on the data channel. -/
def execStageEntrySend (el : Nat) (t : Tok) (s : State) : Host.Outcome State Fault Refusal := fabStep s fun f => f.post (.tokenArrive el .packet t)
/-- SUCCESSOR_FORWARD (R334): the item goes on to the anchor of its successor stage. -/
def execSuccessorForward (q : Item) (s : State) : Host.Outcome State Fault Refusal := fabStep s fun f => f.post (.queueAccept q)

end Sys2Proof.Machine
end

