-- ==== Sys2Proof/Machine/Csr.lean ====
section
/-! DEFINITION. Control registers (R399-R401, R419): the register numbers with their least privileges, what a read gives, and
what a write does under each register's own rules. -/

namespace Sys2Proof.Machine

/-! ## Numbers (R400, R419) -/

/-- The least privileges to read and to write a register: 0 USER, 1 SYS, 2 HYP, and 3 for a register with no writable field.
None for a number that is not assigned. Unit 3, FK, raises USER to SYS. -/
def csrPriv (unit num : Nat) : Option (Nat × Nat) :=
  let el : Option (Nat × Nat) :=
    if num ≤ 0x004 ∨ num = 0x011 then some (0, 3)
    else if inRanges num [(0x008, 0x00A), (0x00C, 0x00F)] then some (0, 0)
    else if num = 0x010 ∨ inRanges num [(0x020, 0x027), (0x030, 0x031)] then some (0, 1)
    else none
  match unit with
  | 0 => el
  | 1 =>
    if num = 0 ∨ inRanges num [(0x010, 0x017)] then some (0, 1)
    else if num ≤ 0x006 then some (1, 1)
    else if num = 0x007 then some (1, 3)
    else if num = 0x008 then some (0, 3)
    else if num = 0x009 ∨ inRanges num [(0x020, 0x03F), (0x080, 0x08F)] then some (2, 2)
    else if inRanges num [(0x040, 0x07F)] then some (0, 2)
    else none
  | 2 =>
    if num ≤ 0x001 ∨ num = 0x200 ∨ num = 0x210 ∨ num = 0x219 ∨ num = 0x22C ∨ inRanges num [(0x208, 0x20F), (0x228, 0x22B)] then some (1, 2)
    else if num ≤ 0x003 then some (1, 1)
    else if num = 0x004 ∨ num = 0x201 ∨ num = 0x202 ∨ num = 0x211 ∨ num = 0x218 ∨ num = 0x220 then some (1, 3)
    else if inRanges num [(0x020, 0x02F)] then some (2, 2)
    else if inRanges num [(0x040, 0x07F)] then some (0, 2)
    else none
  | 3 => el.map fun p => (max 1 p.1, max 1 p.2)
  | _ => none

/-- Does a BK register exist in a block (R400)? -/
def bkExists (bk num : Nat) : Bool :=
  if num = 0x009 ∨ inRanges num [(0x030, 0x03F)] then decide (bk = 0)
  else if inRanges num [(0x080, 0x08F)] then decide (bk % 64 = 0)
  else true

/-! ## Reads -/

/-- Matching-store entries held by parked sets (R35, R366). -/
def Element.parkedEntries (e : Element) : Nat :=
  let n := fun s : MSet => s.a.isSome.toNat + s.b.isSome.toNat
  (e.parked.map fun p => n p.set).sum + (e.parkedToks.length) + ((e.pend.filter fun p => !p.accs.isEmpty).map fun p => n p.set).sum

/-- Is a token at the packet or stream port of an element while that port is held back? -/
def Element.heldAt (e : Element) (el : Nat) : Ev → Bool
  | .tokenArrive k p _ => decide (k = el) && (p == .packet || p == .stream) && e.holdsBack p
  | _ => false

/-- EL.MSTAT (R39). -/
def Fabric.mstat (f : Fabric) (el : Nat) : DWord :=
  let e := f.el el
  let backp := !e.offered.isEmpty || f.agenda.any (e.heldAt el)
  w64 (min 64 e.store.length * 2 ^ 19 + min 64 e.parkedEntries * 2 ^ 12 + min 40 e.ready.length * 2 ^ 6
    + (!e.probes.isEmpty).toNat * 2 + backp.toNat)

/-- EL.MXCFG (R164). -/
def Element.mxcfg (e : Element) : DWord :=
  w64 (e.mxOn.toNat * 2 ^ 31 + e.mxWarm.toNat * 2 ^ 30 + e.mxBurst * 2 ^ 16 + e.mxFmt.toNat * 2 ^ 8 + min 64 e.scales.length)

/-- An EL register as read. -/
def Fabric.elRead (f : Fabric) (el num : Nat) : DWord :=
  let e := f.el el
  let w := fun (x : Word) => x.setWidth 64
  match num with
  | 0x000 => w64 (elId el)
  | 0x001 => f.mstat el
  | 0x002 => w e.stray
  | 0x003 => w e.badtok
  | 0x004 => w e.mismatch
  | 0x008 => w e.aflags
  | 0x009 => w e.aftrap
  | 0x00A => w e.srstate
  | 0x00C => w e.selctl
  | 0x00D => w e.selk
  | 0x00E => w64 (fld e.selpfx 31 0)
  | 0x00F => w64 (fld e.selpfx 63 32)
  | 0x010 => w e.framedir
  | 0x011 => e.mxcfg
  | 0x030 => w e.lodeen0
  | 0x031 => w e.lodeen1
  | n => w (tget 0 e.wins (n - 0x020))

/-- The launch status register (R325). -/
def Fabric.launchStatus (f : Fabric) (part : Nat) : DWord :=
  let l := f.launchOf part
  w64 ((64 - l.places.length) * 2 ^ 24 + l.refused * 2 ^ 12 + l.dropped)

/-- A BK register as read. -/
def Fabric.bkRead (f : Fabric) (bk num : Nat) : DWord :=
  if !bkExists bk num then 0
  else if num = 0x007 then (if f.launchBlk (f.partOfBlk bk) = bk then f.launchStatus (f.partOfBlk bk) else 0)
  else f.bk bk num

/-- A register as read: unit 0 and 3 by element key, 1 by block, 2 by stack. -/
def Fabric.csrRead (f : Fabric) (unit key num : Nat) : DWord :=
  match unit with
  | 1 => f.bkRead key num
  | 2 => f.bd key num
  | _ => f.elRead key num

/-! ## Writes -/

/-- The bits of a value that lie in the fields of a register; the others become zero (R10). -/
def keepFlds (v : DWord) (fs : List (Nat × Nat)) : DWord := fs.foldl (fun w p => setFld w p.1 p.2 (fld v p.1 p.2)) 0

/-- EL.WINj (R192, R195, R204, R264): is the window that a write would make accepted? ROLE off is free of the overlap test alone. -/
def Fabric.winOk (f : Fabric) (el j : Nat) (w : Word) : Bool :=
  let e := f.el el
  let hits := fun (lo n : Nat) => decide (winBase w < lo + n) && decide (lo < winBase w + winLen w)
  decide (winBase w + winLen w ≤ Config.elemBytes) && (decide (winRole w = 0) ||
    (decide (winRole w ≠ 7)
      && e.wins.all (fun p => decide (p.1 = j) || decide (winRole p.2 = 0) || !hits (winBase p.2) (winLen p.2))
      && !(decide (8 ≤ (f.diesOf (f.partOf el)).length) && !isFatik el && decide (f.stripeLo el < winBase w + winLen w))
      && !(decide (winRole w = 3) && decide (lineRows w = 0))
      && !(decide (winRole w = 4) && decide ((winLen w - 64) / 32 < 16))))

/-- The header of a new window, zero, and of an ISTR window its empty words and free list (R192, R196). -/
def Element.newWindow (e : Element) (w : Word) : Element :=
  let b := winBase w
  if winRole w = 0 ∨ winRole w = 5 then e
  else
    let e := e.zeroMem b 64
    if winRole w ≠ 6 then e
    else
      let D := istrWords w
      let n := (winLen w - istrRecs w) / 16
      let e := e.zeroMem (b + 64) (D / 8)
      let e := (List.range D).foldl (fun (e : Element) i => e.putWord (istrAddr w i) 0xFFFFFFFF) e
      let e := (List.range n).foldl (fun (e : Element) r => e.putWords (recAddr w r) [0, w64 ((if r + 1 = n then 0xFFFF else r + 1) * 2 ^ 48)]) e
      e.putWords b [if n = 0 then 0xFFFF else 0, w64 n]

/-- The readers that wait in a window go with it: its set-up builds the words and records anew (R196). -/
def Element.dropReaders (e : Element) (el : Nat) (w : Word) : Element :=
  let mine := fun d : Deferred => decide (winRole w ≠ 0) && decide (winBase w ≤ d.addr) && decide (d.addr < winBase w + winLen w)
  let gone := e.defers.filter mine
  if gone.isEmpty then e
  else { e with
    defers := e.defers.filter fun d => !mine d
    pend := e.pend.filter fun p => !(decide (p.phase = 2000) && gone.any fun d => decide (d.q.firing = (el, p.id))) }

/-- EL.WINj written (R192). -/
def Fabric.winWrite (f : Fabric) (el j : Nat) (v : DWord) : Fabric :=
  let w : Word := BitVec.ofNat 32 v.toNat
  if f.winOk el j w then
    (f.modEl el fun e =>
      (({ (e.dropReaders el (tget 0 e.wins j)).newWindow w with wins := tset e.wins j w } : Element).wakeReason .buf |>.wakeReason .fifo).wakeReason .defer).releaseDefer
  else f

/-- EL.LODEEN0 or 1 written (R245): bits of lines that are not the partition's are stored as zero. A barrier whose element
left is examined. -/
def Fabric.lodeenWrite (f : Fabric) (el : Nat) (hi : Bool) (v : DWord) : Fabric :=
  let base := if hi then 32 else 0
  let old := if hi then (f.el el).lodeen1 else (f.el el).lodeen0
  let new : Word := BitVec.ofNat 32 ((List.range 32).foldl (fun n i => if bit v i && f.lineMine el (base + i) then n + 2 ^ i else n) 0)
  let f := f.modEl el fun e => if hi then { e with lodeen1 := new } else { e with lodeen0 := new }
  f.postAll (((List.range 32).filter fun i => bit old i && !bit new i).map fun i => .barrierRelease (base + i))

/-- An EL register written (R31, R88, R90, R91, R180, R181, R192, R245). -/
def Fabric.elWrite (f : Fabric) (el num : Nat) (v : DWord) : Fabric :=
  let lo : Word := BitVec.ofNat 32 v.toNat
  match num with
  | 0x008 => f.modEl el fun e => { e with
      aflags := e.aflags &&& ~~~(lo &&& 0x3F), pend := e.pend.map fun p => if p.owesFlags then { p with cleared := p.cleared ||| (lo &&& 0x3F) } else p }
  | 0x009 => f.modEl el fun e => { e with aftrap := lo &&& 0x3F }
  | 0x00A => f.modEl el fun e => { e with srstate := if lo = 0 then 1 else lo }
  | 0x00C => f.modEl el fun e =>
      { e with selctl := w32 (fld lo 31 30 * 2 ^ 30 + min (fld lo 27 24) 8 * 2 ^ 24) }
  | 0x00D => f.modEl el fun e => { e with selk := lo }
  | 0x00E => f.modEl el fun e => { e with selpfx := setFld e.selpfx 31 0 lo.toNat }
  | 0x00F => f.modEl el fun e => { e with selpfx := setFld e.selpfx 63 32 lo.toNat }
  | 0x010 => if 383 < fld lo 18 10 then f else f.modEl el fun e => { e with framedir := w32 (fld lo 18 10 * 1024) }
  | 0x030 => f.lodeenWrite el false v
  | 0x031 => f.lodeenWrite el true v
  | n => if 0x020 ≤ n ∧ n ≤ 0x027 then f.winWrite el (n - 0x020) v else f

/-! ### Line registers (R244, R247, R255) -/

/-- A set parked on line n raises LODE (R255). A QWAIT or FIXQ that passes RESUME waits afresh. -/
def Fabric.lodeRaise (f : Fabric) (el n : Nat) (p : Parked) : Fabric :=
  let f := f.modEl el fun e => { e with parked := e.parked.erase p }
  let bar := decide ((fieldOp (Image.instr ((f.el el).imageOf p.set.ctx) p.set.slot)).toNat = 0xC2)
  takeTrap f el (if bar then p.set else { p.set with note := 0, arg := 0 }) .lode (w32 n)

/-- Does a set parked at an element wait on line n: on its own line, or a FIXQ on its change line (R255)? -/
def Element.waitsOn (e : Element) (n : Nat) (p : Parked) : Bool :=
  let img := e.imageOf p.set.ctx
  p.reason == .lode && (decide (p.on = n) ||
    (decide ((fieldOp (img.instr p.set.slot)).toNat = 0xD0) && decide (fld (img.lit (p.set.slot % 16)) 13 8 = n)))

/-- The sets of an element parked on line n are examined again. -/
def Fabric.lodeExamine (f : Fabric) (n el : Nat) : Fabric :=
  ((f.el el).parked.filter ((f.el el).waitsOn n)).foldl (fun f p => f.lodeRaise el n p) f

/-- What a change of V, MODE or PART does to a line (R247, R250, R254): Φ and the count start anew, and its waves stop. -/
def Fabric.lineReset (f : Fabric) (n : Nat) : Fabric :=
  let f := f.modRoot n fun r => { LodeRoot.reset with sent := r.sent, recv := r.recv, members := r.members }
  { f with agenda := f.agenda.filter fun e => match e with
      | .lodeWave m => decide (m ≠ n)
      | .podWave m => decide (m ≠ n)
      | _ => true }

/-- A line register written in a block or a base die: where V, MODE or PART changes, every set of the package that is parked on the line is
examined again (R255), at the writing of each copy (DESIGN CHOICE, log 15). A line that becomes a barrier passes the AND of the arrivals
that stand (R247). -/
def Fabric.lineWrite (f : Fabric) (bd : Bool) (key n : Nat) (v : DWord) : Fabric :=
  if fld v 30 29 = 3 then f
  else
    let old := if bd then f.bd key (0x040 + n) else f.bk key (0x040 + n)
    let new := keepFlds v [(31, 29), (27, 8)]
    let f := if bd then f.setBd key (0x040 + n) new else f.setBk key (0x040 + n) new
    if fld old 31 29 = fld new 31 29 ∧ fld old 27 24 = fld new 27 24 then f
    else
      let f := (f.els.map (·.1)).foldl (fun f el => f.lodeExamine n el) (f.lineReset n)
      if lineV (w32 new.toNat) && decide (lineMode (w32 new.toNat) = 0) then f.post (.barrierRelease n) else f

/-! ### BK registers -/

/-- The anchor states that a write of BK.REGION makes stale (R135): those of the anchors it named and names. -/
def Fabric.regionStale (f : Fabric) (anchor : Nat) : Fabric :=
  f.modBlk anchor fun b => { b with anchors := b.anchors.map fun p => (p.1, { p.2 with stale := true }) }

/-- BK.REGION written (R134, R135). -/
def Fabric.regionWrite (f : Fabric) (bk : Nat) (v : DWord) : Fabric :=
  let old := f.bk bk 0
  let new := keepFlds v [(31, 31), (9, 0)]
  let f := if bit old 31 then f.regionStale (fld old 9 0) else f
  let f := f.setBk bk 0 new
  if bit new 31 then f.regionStale (fld new 9 0) else f

/-- BK.STAGES written (R327): a change starts every stage's sequence number anew. -/
def Fabric.stagesWrite (f : Fabric) (bk : Nat) (v : DWord) : Fabric :=
  let new := keepFlds v [(56, 16), (0, 0)]
  if f.bk bk 4 = new then f
  else (f.setBk bk 4 new).modBlk bk fun b => { b with seqs := [] }

/-- BK.CTXACTn written (R158, R159): tokens held for a context made active replay, in the region of the copy's block. -/
def Fabric.ctxactWrite (f : Fabric) (bk n : Nat) (v : DWord) : Fabric :=
  let old := f.bk bk (0x010 + n)
  let f := f.setBk bk (0x010 + n) (keepFlds v [(31, 0)])
  let on := (List.range 32).filter fun i => bit v i && !bit old i
  let blks := if on.isEmpty then [] else bk :: (f.regionBlks bk).filter (· ≠ bk)
  f.postAll ((blks.flatMap blockEls).flatMap fun el =>
    (on.filter fun i => ((f.el el).slotOf (32 * n + i)).isSome).map fun i => .missReplay el (32 * n + i))

/-- A BK register written (R134, R157, R158, R201, R204, R244, R327, R344, R374, R398, R406). -/
def Fabric.bkWrite (f : Fabric) (bk num : Nat) (v : DWord) : Fabric :=
  if !bkExists bk num then f
  else match num with
    | 0x000 => f.regionWrite bk v
    | 0x001 => f.setBk bk 1 (keepFlds v [(56, 17), (0, 0)])
    | 0x002 => (blockEls bk).foldl (fun (f : Fabric) el => if (f.el el).routes.isEmpty then f else f.modEl el fun e => { e with routes := [] })
        (f.setBk bk 2 (keepFlds v [(56, 15), (0, 0)]))
    | 0x003 => f.setBk bk 3 (keepFlds v [(6, 0)])
    | 0x004 => f.stagesWrite bk v
    | 0x005 => f.setBk bk 5 (keepFlds v [(56, 19), (0, 0)])
    | 0x006 => f.setBk bk 6 (keepFlds v [(31, 31), (25, 16)])
    | 0x007 => f
    | 0x008 => f
    | 0x009 => f.setBk bk 9 (keepFlds v [(31, 30), (27, 3)])
    | n =>
      if 0x010 ≤ n ∧ n ≤ 0x017 then f.ctxactWrite bk (n - 0x010) v
      else if 0x040 ≤ n ∧ n ≤ 0x07F then f.lineWrite false bk (n - 0x040) v
      else f.setBk bk n v

/-! ### BD registers -/

/-- Is a channel of a stack retired? -/
def Fabric.anyRetired (f : Fabric) (sd : Nat) : Bool := decide (fld (f.bd sd 0x201) 31 0 ≠ 0xFFFFFFFF)
/-- Is a guarded region of a stack valid? -/
def Fabric.anyGuard (f : Fabric) (sd : Nat) : Bool := (List.range 8).any fun n => bit (f.bd sd (0x208 + n)) 63

/-- BD.RATECFG written (R434): a lower CAP steps the channels above it down; one that is switching does so at the end of its switch. -/
def Fabric.ratecfgWrite (f : Fabric) (sd : Nat) (v : DWord) : Fabric :=
  let old := f.bd sd 0x210
  let cap := if fld v 1 0 = 3 then fld old 1 0 else fld v 1 0
  let f := f.setBd sd 0x210 (setFld (keepFlds v [(31, 16)]) 1 0 cap)
  if cap < fld old 1 0 then
    f.postAll (((List.range 32).filter fun c => decide (fld (f.bd sd 0x211) (2 * c + 1) (2 * c) ≠ 3) && decide (cap < fld (f.bd sd 0x211) (2 * c + 1) (2 * c))
      && !(f.die sd).switching.contains c && !f.agenda.contains (.rateStepDown sd c)).map fun c => .rateStepDown sd c)
  else f

/-- Is a write of BD.GUARDn ignored (R429)? -/
def Fabric.guardBad (f : Fabric) (sd n : Nat) (v : DWord) : Bool :=
  let lo := fld v 15 0
  let hi := lo + fld v 31 16 + 1
  let overlaps := (List.range 8).any fun m =>
    let g := f.bd sd (0x208 + m)
    decide (m ≠ n) && bit g 63 && decide (lo < fld g 15 0 + fld g 31 16 + 1) && decide (fld g 15 0 < hi)
  overlaps || decide (f.mainRows sd < 1024 * hi) || (decide (bit v 63 ≠ bit (f.bd sd (0x208 + n)) 63) && f.anyRetired sd)

/-- A BD register written whose write ends at once (R354, R387, R398, R427, R432, R434, R440). -/
def Fabric.bdWrite (f : Fabric) (sd num : Nat) (v : DWord) : Fabric :=
  match num with
  | 0x000 => f.setBd sd 0 (keepFlds v [(36, 21), (20, 8), (0, 0)])
  | 0x001 => (f.setBd sd 1 (keepFlds v [(36, 19), (0, 0)])).modDie sd fun d => { d with tlb := [] }
  | 0x002 => f.setBd sd 2 (keepFlds v [(56, 8), (0, 0)])
  | 0x003 => f.setBd sd 3 (setFld (f.bd sd 3) 63 32 (fld v 63 32))
  | 0x200 =>
    if fld v 1 0 = 3 ∨ f.anyRetired sd ∨ f.anyGuard sd then f else f.setBd sd 0x200 (setFld (f.bd sd 0x200) 1 0 (fld v 1 0))
  | 0x210 => f.ratecfgWrite sd v
  | 0x219 => f.setBd sd 0x219 (keepFlds v [(31, 31), (15, 0)])
  | 0x22C => f.setBd sd 0x22C (f.bd sd 0x22C &&& ~~~(v &&& 0xFF))
  | n =>
    if 0x020 ≤ n ∧ n ≤ 0x02F then f.setBd sd n v
    else if 0x040 ≤ n ∧ n ≤ 0x07F then f.lineWrite true sd (n - 0x040) v
    else f

/-- A register write performed, for every register whose write ends at once. -/
def Fabric.csrWrite (f : Fabric) (unit key num : Nat) (v : DWord) : Fabric :=
  match unit with
  | 1 => f.bkWrite key num v
  | 2 => f.bdWrite key num v
  | _ => f.elWrite key num v

/-- The event of a write that travels to its register. -/
def csrEvent (w : CsrWr) : Ev :=
  let el := decide (w.unit = 0) || decide (w.unit = 3)
  if el ∧ 0x020 ≤ w.num ∧ w.num ≤ 0x027 then .windowWrite w
  else if el ∧ w.num = 0x008 then .aflagsWrite w
  else if el ∧ w.num = 0x00A then .srstateWrite w
  else if el ∧ (w.num = 0x030 ∨ w.num = 0x031) then .lodeenWrite w
  else if w.unit = 1 ∧ w.num = 0 then .regionWrite w
  else if w.unit = 1 ∧ w.num = 4 then .stagesWrite w
  else if (w.unit = 1 ∨ w.unit = 2) ∧ 0x040 ≤ w.num ∧ w.num ≤ 0x07F then .lodeLineWrite w
  else if w.unit = 2 ∧ w.num = 1 then .ptrootWrite w
  else if w.unit = 2 ∧ 0x208 ≤ w.num ∧ w.num ≤ 0x20F then .guardWrite w
  else if w.unit = 2 ∧ w.num = 0x210 then .ratecfgWrite w
  else if w.unit = 2 ∧ 0x228 ≤ w.num ∧ w.num ≤ 0x22B then .fatikImageWrite w
  else .csrRegisterWrite w

/-! ## CSR addresses (R399) -/

/-- The unit and key that a CSR address names for an issuer; none where it breaks R399. -/
def csrTarget (el : Nat) (a : Word) : Option (Nat × Nat) :=
  let unit := fld a 14 12
  let t := fld a 31 16
  if bit a 15 then
    if t ≠ 0 then none
    else if unit = 0 then some (0, el)
    else if unit = 1 ∧ !isFatik el then some (1, blockOf el)
    else none
  else match unit with
    | 0 => some (0, t)
    | 1 => if t < 1024 then some (1, t) else none
    | 2 => if t < 24 then some (2, t) else none
    | 3 => if t < 128 ∧ t % 32 < 24 then some (3, fatikKey (t % 32) (t / 32)) else none
    | _ => none

/-- The partition of a register's unit. -/
def Fabric.csrPart (f : Fabric) (unit key : Nat) : Nat :=
  match unit with
  | 1 => f.partOfBlk key
  | 2 => f.partOfStack key
  | _ => f.partOf key

/-- Does an access table let a CSR access through (R398)? It is an engine request: at the registers of another element the table of that
element's block decides, at those of a Fatik element its stack's (DEDUCED, log 33). -/
def FCtx.csrMay (c : FCtx) (unit key : Nat) : Bool :=
  decide (key = c.el) || (if unit = 0 then c.f.blkAllows (blockOf key) c.part c.priv c.ukind 3
    else if unit = 3 then c.f.dieAllows (fatikStack key) c.part c.priv c.ukind 3 else true)

/-- Does a register access cross a dead link (R422): that of the stack whose base die holds the register, or the one above the Fatik
element that makes it? -/
def Fabric.csrLost (f : Fabric) (el unit key : Nat) : Bool :=
  let there := if unit = 2 then some key else if isFatik key ∧ unit ≠ 1 then some (fatikStack key) else none
  let own := if isFatik el then some (fatikStack el) else none
  decide (there ≠ own) && [there, own].any fun o => o.any f.linkDead

/-- The checks of CSRR and CSRW in order (R401, R398, R422): the unit, key and number, or the stop. -/
def FCtx.csrTarget (c : FCtx) (write : Bool) : Except Stop (Nat × Nat × Nat) :=
  let a : Word := BitVec.ofNat 32 c.ra.toNat
  let num := fld a 11 0
  match Machine.csrTarget c.el a with
  | none => c.format
  | some (unit, key) =>
    match csrPriv unit num with
    | none => .error (.trap .illegal a)
    | some (r, w) =>
      let need := if write then (if w = 3 then 0 else w) else r
      let selfOnly := decide (c.priv = 0) && decide (unit = 0) && !bit a 15
      if c.f.csrPart unit key ≠ c.part ∧ c.priv ≠ 2 then .error (.trap .access a)
      else if c.priv < need ∨ selfOnly then .error (.trap .priv a)
      else if !c.csrMay unit key then .error (.trap .access a)
      else if c.f.csrLost c.el unit key then .error (.trap .data c.slotW)
      else .ok (unit, key, num)

/-- CSRR (R401): the register is read at issue. That of its own EL.AFLAGS has the flags of every firing that issued before it: it emits
once those of the loads whose conversion is still to come are known (R92). -/
def csrrForm (c : FCtx) : Except Stop Res :=
  (c.csrTarget false).bind fun x =>
    let v := c.f.csrRead x.1 x.2.1 x.2.2
    let owed := (c.elt.pend.filter Pend.owesFlags).map fun p => w64 p.id
    if (x.1 = 0 ∨ x.1 = 3) ∧ x.2.1 = c.el ∧ x.2.2 = 0x008 ∧ owed ≠ [] then .ok (Res.of c.f 0 [] (some { c.pend with left := 1, a := v, args := owed }))
    else c.emits [c.scalar c.d true v, c.ord c.e]

/-- CSRW (R92, R401): with SELF set the write takes effect at issue; any other travels to its register. -/
def csrwForm (c : FCtx) : Except Stop Res :=
  (c.csrTarget true).bind fun x =>
    if bit c.ra 15 then .ok (Res.of (c.f.csrWrite x.1 x.2.1 x.2.2 c.rb) 0 [c.ord c.d, c.ord c.e] none)
    else
      let w : CsrWr := ⟨x.1, x.2.1, x.2.2, c.rb, c.part, c.priv, some (c.el, c.id)⟩
      .ok (Res.of (c.f.post (csrEvent w)) 0 [] (some { c.pend with left := 1, a := w64 (x.1 * 2 ^ 48 + x.2.1 * 2 ^ 16 + x.2.2), b := c.rb }))

/-- CSRR (R401). -/
def execCsrr (a b d e : BitVec 5) (t : BitVec 4) (s : State) : Host.Outcome State Fault Refusal := fire 0xF4 a b d e t csrrForm s
/-- CSRW (R401). -/
def execCsrw (a b d e : BitVec 5) (t : BitVec 4) (s : State) : Host.Outcome State Fault Refusal := fire 0xF5 a b d e t csrwForm s

end Sys2Proof.Machine
end

