-- ==== Sys2Proof/Machine/Spill.lean ====
section
/-! DEFINITION. Spill frames in element memory (R30-R35, R37, R38) and the arrival of a token: bad and stray tokens, held tokens,
matching by equal tag and by overlap, markers, ZIP, and the matching store (R20-R29, R152-R156, R159). -/

namespace Sys2Proof.Machine

/-! ## The image of a context -/

/-- An image read as 48 words (R55). -/
def Fabric.readImage (f : Fabric) (part addr : Nat) : Option Image := f.ctlWords part addr 48
/-- The image that an element's directory names for a context. -/
def Fabric.dirImage (f : Fabric) (el ctx : Nat) : Option Image := (f.dirEntry el ctx).bind (f.readImage (f.partOf el))
/-- The image under which a token of a context is placed: the resident one, else the one that the directory names. The widths of its
levels decide the index of a run (R33); a context that neither names has one-bit levels (DESIGN CHOICE, log 46). -/
def Fabric.seenImage (f : Fabric) (el ctx : Nat) : Image :=
  match (f.el el).residentOf ctx with
  | some r => r.image
  | none => if isFatik el then [] else (f.dirImage el ctx).getD []

/-! ## Frames (R30-R33) -/

/-- The address of a context's frame directory entry (R31). -/
def Element.dirAddr (e : Element) (ctx : Nat) : Nat := 1024 * fld e.framedir 18 10 + 4 * ctx
/-- A context's frame directory entry (R30). -/
def Element.frameEntry (e : Element) (ctx : Nat) : Word := w32 (e.mem.readN (e.dirAddr ctx) 4)
/-- Is an entry valid: V set and FSIZE not the reserved value (R30)? -/
def entryOk (w : Word) : Bool := bit w 31 && decide (fld w 26 24 ≠ 7)
/-- The index width n of a frame. -/
def frameBits (w : Word) : Nat := fld w 26 24 + 4
/-- May a frame be probed: valid, and within element memory (R32)? -/
def frameUsable (w : Word) : Bool := entryOk w && decide (frameBase w + frameBytes w ≤ Config.elemBytes)
/-- The address of frame slot i. -/
def frameSlot (w : Word) (i : Nat) : Nat := frameBase w + 128 + 160 * i
/-- The control word of frame slot i: P, M, T (R32). -/
def Element.frameCtl (e : Element) (w : Word) (i : Nat) : Nat := e.mem.readN (frameSlot w i + 28) 4
/-- The address of the count of a slot and side. -/
def countAddr (w : Word) (slot : Nat) (side : Bool) : Nat := frameBase w + 2 * (2 * slot + side.toNat)

/-- Key chunks of n bits XORed together (R33). -/
def foldKey (n key : Nat) : Nat → Nat
  | 0 => 0
  | k + 1 => (key % 2 ^ n) ^^^ foldKey n (key / 2 ^ n) k

/-- The frame index of a token under an image (R33, R156): ZIP tokens have every tag bit taken as zero, runs their F0. -/
def frameIndex (img : Image) (w : Word) (t : Tok) : Nat :=
  let zip := img.uses t.slot && decide ((fieldOp (img.instr t.slot)).toNat = 0x7D)
  let tag := if zip then 0 else if t.vec then img.setF0 t.tag 0 else t.tag
  foldKey (frameBits w) (tag.toNat ^^^ (t.slot * 2 ^ 59)) 16

/-- A token's payload as 1,024 bits (R17, R32). -/
def packLanes (t : Tok) : Nat :=
  if t.vec then (t.lanes.zipIdx).foldl (fun n x => n + x.1.toNat % 2 ^ codeWidth t.fmt * 2 ^ (codeWidth t.fmt * x.2)) 0 else (t.lane 0).toNat
/-- The 20 words of a token record (R32). -/
def tokRecord (x : Waiting) (ctl : Nat) : List DWord :=
  [x.tok.hdr, x.tok.tag, w64 x.stamp, w64 (x.tok.valid.toNat + ctl * 2 ^ 32)] ++ (List.range 16).map fun i => w64 (packLanes x.tok / 2 ^ (64 * i))
/-- The token of a record. -/
def readRecord (ws : List DWord) : Waiting :=
  let t : Tok := ⟨ws.getD 0 0, BitVec.ofNat 32 (ws.getD 3 0).toNat, ws.getD 1 0, []⟩
  let p := ((List.range 16).map fun i => (ws.getD (4 + i) 0).toNat * 2 ^ (64 * i)).sum
  let lanes := if t.eos ≠ 0 then [] else if t.vec then (List.range t.len).map fun k => w64 (p / 2 ^ (codeWidth t.fmt * k) % 2 ^ codeWidth t.fmt) else [w64 p]
  ⟨{ t with lanes := lanes }, (ws.getD 2 0).toNat⟩

/-- The slots of a probe chain, at most eight. -/
def probeChain (w : Word) (start : Nat) : List Nat := (List.range 8).map fun k => (start + k) % 2 ^ frameBits w

/-- A count raised or lowered. -/
def Element.addCount (e : Element) (w : Word) (slot : Nat) (side up : Bool) : Element :=
  let a := countAddr w slot side
  e.putN a (if up then e.mem.readN a 2 + 1 else e.mem.readN a 2 - 1) 2

/-- A token inserted in its context's frame; none where it finds no place (R33). -/
def Element.frameInsert (e : Element) (img : Image) (w : Word) (x : Waiting) (miss : Bool) : Option Element :=
  if !frameUsable w then none
  else
    ((probeChain w (frameIndex img w x.tok)).find? fun i => decide (e.frameCtl w i % 2 = 0)).map fun i =>
      (e.putWords (frameSlot w i) (tokRecord x (1 + 2 * miss.toNat))).addCount w x.tok.slot x.tok.side true

/-- The token in frame slot i. -/
def Element.frameTok (e : Element) (w : Word) (i : Nat) : Waiting := readRecord (e.mem.words (frameSlot w i) 20)

/-- A token taken out of frame slot i: P clear and T set, and every T clear once the frame is empty (R33). -/
def Element.frameTake (e : Element) (w : Word) (i : Nat) : Element :=
  let t := (e.frameTok w i).tok
  let e := (e.putN (frameSlot w i + 28) 4 4).addCount w t.slot t.side false
  if e.mem.readN (frameBase w) 128 = 0 then
    (List.range (2 ^ frameBits w)).foldl (fun (e : Element) j => if e.frameCtl w j = 0 then e else e.putN (frameSlot w j + 28) 0 4) e
  else e

/-- A lookup along the chain (R33): the slot of the first partner, before a slot with P and T clear. A miss-marked token waits
for its replay and is no partner. -/
def Element.frameFind (e : Element) (w : Word) (partner : Tok → Bool) : List Nat → Option Nat
  | [] => none
  | i :: r =>
    let c := e.frameCtl w i
    if c % 2 = 1 then (if c / 2 % 2 = 0 && partner (e.frameTok w i).tok then some i else e.frameFind w partner r)
    else if c / 4 % 2 = 1 then e.frameFind w partner r
    else none

/-- The occupied slots of a frame, miss-marked ones alone or all, with their tokens. -/
def Element.frameAll (e : Element) (w : Word) (missOnly : Bool) : List (Nat × Waiting) :=
  if !frameUsable w then []
  else ((List.range (2 ^ frameBits w)).filter fun i => decide (e.frameCtl w i % 2 = 1) && (!missOnly || decide (e.frameCtl w i / 2 % 2 = 1))).map
    fun i => (i, e.frameTok w i)

/-- Tokens by rising stamp. -/
def insertWaiting (x : Waiting) : List Waiting → List Waiting
  | [] => [x]
  | y :: r => if y.stamp ≤ x.stamp then y :: insertWaiting x r else x :: y :: r
def sortWaiting (xs : List Waiting) : List Waiting := xs.foldl (fun r x => insertWaiting x r) []

/-- Held tokens of a context: miss-marked in its frame, or in the miss buffer (R28, R29, R159). -/
def Element.heldToks (e : Element) (ctx : Nat) : List Waiting :=
  sortWaiting (((e.frameAll (e.frameEntry ctx) true).map (·.2)) ++ e.missBuf.filter fun x => x.tok.ctx = ctx)

/-- Held tokens of a context taken out. -/
def Element.takeHeld (e : Element) (ctx : Nat) : Element :=
  let w := e.frameEntry ctx
  let e := (e.frameAll w true).foldl (fun (e : Element) x => e.frameTake w x.1) e
  { e with missBuf := e.missBuf.filter fun x => x.tok.ctx ≠ ctx }

/-! ## Parked tokens (R23, R37) -/

/-- A record of a context goes to the trap destination of its image; that of a context which is not resident, and of which no image
names a token target, is brokered as R29 gives. -/
def Fabric.reportAs (f : Fabric) (el : Nat) (img : Image) (ctx : Nat) (lanes : List DWord) : Fabric :=
  if ((f.el el).slotOf ctx).isSome then f.report el ctx lanes
  else f.sendRecord (if destKind img.trapd = 1 then f.recordTarget el img.trapd else BitVec.ofNat 32 (f.bk 0 9).toNat) lanes

/-- The record of a token (R23, R37). -/
def Fabric.reportTok (f : Fabric) (el : Nat) (img : Image) (t : Tok) (c : Cause) (info : Word) : Fabric :=
  f.reportAs el img t.ctx (recordLanes t.tag c el t.slot false info 0)

/-- A token parks by itself with its trap record; where all 64 matching-store entries are in use, beyond them (DESIGN CHOICE, log 49). -/
def Fabric.parkTok (f : Fabric) (el : Nat) (img : Image) (x : Waiting) (p : Port) (c : Cause) (info : Word) : Fabric :=
  if isFatik el then f.haltFatik el
  else (f.modEl el fun e => { e with parkedToks := e.parkedToks ++ [⟨x.tok, p, x.stamp, c, info, true⟩] }).reportTok el img x.tok c info

/-- SPILLFULL's information word: the index where the token's chain starts (R37). -/
def Element.spillInfo (e : Element) (img : Image) (t : Tok) : Word :=
  let w := e.frameEntry t.ctx
  if entryOk w then w32 (frameIndex img w t) else 0xFFFFFFFF

/-- Matching-store entries in use. -/
def Element.entries (e : Element) : Nat := e.store.length + e.parkedEntries

/-- The element takes no entry for a token: it stays at its port, and where every entry is held by a parked set SPILLFULL is raised
once for it (R35, R37). When it is offered again the element takes it as an arrival, under the stamp of that moment (DEDUCED, log 47:
R21 stamps arrivals, and R37 has the element take it "as an arrival again"). -/
def Fabric.stayAtPort (f : Fabric) (el : Nat) (img : Image) (x : Waiting) (p : Port) (full : Bool) : Fabric :=
  let e := f.el el
  let old := e.offered.find? fun o => decide (o.tok = x.tok) && (o.port == p)
  let told := old.any (·.raised)
  let f := f.modEl el fun e => { e with
    offered := old.elim e.offered e.offered.erase ++ [⟨x.tok, p, full || told, x.stamp, e.frameEntry x.tok.ctx⟩] }
  let f := if full && !told then f.reportTok el img x.tok .spillFull (e.spillInfo img x.tok) else f
  f.holdBack (.tokenArrive el p x.tok)

/-- The waiting token with the lowest stamp. -/
def oldestOf (xs : List Waiting) : Option Waiting :=
  xs.foldl (fun best x => match best with | none => some x | some y => if x.stamp < y.stamp then some x else some y) none

/-- A matching-store entry for one more token (R35): a free one, or that of the oldest waiting token, which moves to its frame. One
that finds no place there keeps its entry, parked, and there is none in this cycle. -/
def Fabric.freeEntry (f : Fabric) (el : Nat) (p : Port) : Fabric × Bool :=
  let e := f.el el
  if e.entries < Config.storeEntries then (f, true)
  else match oldestOf e.store with
  | none => (f, false)
  | some v =>
    let img := f.seenImage el v.tok.ctx
    let e' := { e with store := e.store.erase v }
    match e'.frameInsert img (e.frameEntry v.tok.ctx) v false with
    | some e => (f.setEl el e, true)
    | none => ((f.setEl el e').parkTok el img v p .spillFull (e.spillInfo img v.tok), false)

/-- A token that found no place in its frame parks in a matching-store entry under SPILLFULL, or waits at its port (R37). -/
def Fabric.spillFull (f : Fabric) (el : Nat) (img : Image) (x : Waiting) (p : Port) : Fabric :=
  match f.freeEntry el p with
  | (g, true) => g.parkTok el img x p .spillFull ((f.el el).spillInfo img x.tok)
  | (g, false) => g.stayAtPort el img x p (f.el el).store.isEmpty

/-! ## Held tokens (R28, R29, R159) -/

/-- A configuration miss is asked for once. -/
def Fabric.askImage (f : Fabric) (el ctx : Nat) : Fabric :=
  if f.agenda.contains (.configMissServe el ctx) || ((f.blk (blockOf el)).misses).contains (el, ctx) then f else f.post (.configMissServe el ctx)

/-- A replay is asked for once. -/
def Fabric.askReplay (f : Fabric) (el ctx : Nat) : Fabric :=
  if f.agenda.contains (.missReplay el ctx) then f else f.post (.missReplay el ctx)

/-- A token of a context that is not resident or not active is held: in its frame, in the miss buffer, or as R37 gives. -/
def Fabric.hold (f : Fabric) (el : Nat) (x : Waiting) (p : Port) : Fabric :=
  let e := f.el el
  let img := f.seenImage el x.tok.ctx
  let w := e.frameEntry x.tok.ctx
  if entryOk w then
    match e.frameInsert img w x true with
    | some e' => f.setEl el e'
    | none => f.spillFull el img x p
  else if 8 ≤ e.missBuf.length then f.holdBack (.tokenArrive el p x.tok)
  else f.setEl el { e with missBuf := e.missBuf ++ [x] }

/-! ## Matching (R20, R22, R26) -/

/-- A tag without its innermost field. -/
def Image.outer (img : Image) (tag : DWord) : DWord := img.setF0 tag 0
/-- First iteration of a token. -/
def Image.baseOf (img : Image) (t : Tok) : Nat := img.f t.tag 0

/-- Do two tokens match? `relaxed` is the rule of runs. Markers match markers alone. -/
def isPartner (img : Image) (relaxed : Bool) (y o : Tok) : Bool :=
  decide (o.side ≠ y.side) && decide (o.slot = y.slot) && decide (o.eos = 0) && decide (y.eos = 0)
    && (if relaxed && o.vec && y.vec && decide (depth y.tag ≠ 0) then
      decide (img.outer o.tag = img.outer y.tag) && decide (max (img.baseOf y) (img.baseOf o) < min (img.baseOf y + y.len) (img.baseOf o + o.len))
    else decide (o.tag = y.tag))

/-- The part [lo, hi) of a run, with its own base (R26). -/
def cutTok (img : Image) (t : Tok) (lo hi : Nat) : Tok :=
  let b := img.baseOf t
  let n := hi - lo
  { hdr := setFld t.hdr 35 31 (n - 1), valid := (t.valid >>> (lo - b)) &&& lanesMask n,
    tag := if depth t.tag = 0 then t.tag else img.setF0 t.tag lo, lanes := (t.lanes.drop (lo - b)).take n }

/-- The pieces of a run outside [lo, hi), head then tail, with its stamp. -/
def leftovers (img : Image) (x : Waiting) (lo hi : Nat) : List Waiting :=
  let b := img.baseOf x.tok
  (if b < lo then [⟨cutTok img x.tok b lo, x.stamp⟩] else []) ++ (if hi < b + x.tok.len then [⟨cutTok img x.tok hi (b + x.tok.len), x.stamp⟩] else [])

/-- The set that two tokens form. The later one completes it and gives the stamp, also where a probe finds a partner that arrived while
it ran (R22, R36). -/
def mkSet (img : Image) (relaxed : Bool) (y o : Waiting) : MSet × List Waiting × List Waiting :=
  let run := relaxed && y.tok.vec && o.tok.vec && decide (depth y.tok.tag ≠ 0)
  let lo := max (img.baseOf y.tok) (img.baseOf o.tok)
  let hi := min (img.baseOf y.tok + y.tok.len) (img.baseOf o.tok + o.tok.len)
  let yt := if run then cutTok img y.tok lo hi else y.tok
  let ot := if run then cutTok img o.tok lo hi else o.tok
  let side := y.tok.side
  (⟨y.tok.ctx, y.tok.slot, yt.tag, max y.stamp o.stamp, some (if side then ot else yt), some (if side then yt else ot), 0, 0⟩,
    if run then leftovers img y lo hi else [], if run then leftovers img o lo hi else [])

/-- The waiting token with the lowest stamp that meets a test (R22). -/
def lowestOf (p : Tok → Bool) (xs : List Waiting) : Option Waiting := oldestOf (xs.filter fun x => p x.tok)

/-- A token waits: in the matching store, or in its frame where every entry is held by a parked set (R35, R37). -/
def Fabric.waitTok (f : Fabric) (el : Nat) (x : Waiting) (p : Port) : Fabric :=
  let img := f.seenImage el x.tok.ctx
  match f.freeEntry el p with
  | (g, true) => g.modEl el fun e => { e with store := insertWaiting x e.store }
  | (g, false) =>
    let e := f.el el
    if e.store.isEmpty then
      match e.frameInsert img (e.frameEntry x.tok.ctx) x false with
      | some e => f.setEl el e
      | none => f.stayAtPort el img x p true
    else g.stayAtPort el img x p false

/-- A matched set enters the ready queue. -/
def Fabric.readySet (f : Fabric) (el : Nat) (s : MSet) : Fabric := f.modEl el fun e => e.toReady s

/-- Tokens compared in turn with those that wait (R22, R26, R34): a partner in the store is preferred, then the frame, whose
probe holds back later issue until it ends. -/
def matchToks (el : Nat) (img : Image) (relaxed : Bool) (p : Port) : Nat → List Waiting → Fabric → Fabric
  | _, [], f => f
  | 0, xs, f => xs.foldl (fun f x => f.waitTok el x p) f
  | n + 1, y :: r, f =>
    let e := f.el el
    match lowestOf (isPartner img relaxed y.tok) e.store with
    | some o =>
      let m := mkSet img relaxed y o
      let f := (f.setEl el { e with store := e.store.erase o }).readySet el m.1
      matchToks el img relaxed p n (m.2.1 ++ r) (m.2.2.foldl (fun f x => f.waitTok el x p) f)
    | none =>
      let w := e.frameEntry y.tok.ctx
      if frameUsable w && decide (e.mem.readN (countAddr w y.tok.slot (!y.tok.side)) 2 ≠ 0) then
        matchToks el img relaxed p n r ((f.setEl el { e with probes := e.probes ++ [(y, p)] }).post (.frameProbeEnd el))
      else matchToks el img relaxed p n r (f.waitTok el y p)

/-! ## End-of-stream markers (R152, R153, R156) -/

/-- A marker token at a position. -/
def markerOut (dst rank : Nat) (f0 : Option Nat) : Out := ⟨dst, 0, false, 0, [], false, rank + 1, f0, false, false, none⟩

/-- A marker passes to the destination-table entries that a slot names. -/
def Fabric.sendMarker (f : Fabric) (el ctx slot rank : Nat) (tag : DWord) : Fabric :=
  let w := Image.instr ((f.el el).imageOf ctx) slot
  [(fieldD w).toNat, (fieldE w).toNat].foldl (fun f d =>
    if d ≤ 0x0F then emitOut f el ctx slot tag tag { markerOut d rank none with fmt := Image.fout ((f.el el).imageOf ctx) slot } else f) f

/-- The tag of a marker that passes a slot of arity 1 (R152). -/
def markerTag (img : Image) (slot : Nat) (tag : DWord) : DWord :=
  let w := img.instr slot
  let op := (fieldOp w).toNat
  let t := (fieldT w).toNat
  let act := if op = 0x70 ∨ op = 0x72 ∨ (0x78 ≤ op ∧ op ≤ 0x7A) then 2 else if op = 0x71 ∨ op = 0x73 then 3 else t
  if act = 2 ∨ act = 4 then (if depth tag < img.levels then img.push tag 0 else tag)
  else if act = 3 ∨ act = 5 then img.pop tag
  else tag

/-- Lanes of a data token at or above a position discarded (R153): what stays, and how many valid lanes went. -/
def cutAt (img : Image) (x : Waiting) (pos : Nat) : Option Waiting × Nat :=
  let b := img.baseOf x.tok
  let n := if x.tok.vec then x.tok.len else 1
  let gone := ((List.range n).filter fun k => decide (pos ≤ b + k) && bit x.tok.valid k).length
  if b + n ≤ pos then (some x, 0)
  else if pos ≤ b then (none, gone)
  else (some ⟨cutTok img x.tok b pos, x.stamp⟩, gone)

/-- Lanes discarded are counted (R154). -/
def Element.mismatched (e : Element) (n : Nat) : Element := { e with mismatch := satAdd e.mismatch n }

/-- The tokens of a context that wait: in the store, or spilled to its frame and not miss-marked. -/
def Element.waiting (e : Element) (ctx : Nat) : List Waiting :=
  let w := e.frameEntry ctx
  (e.store.filter fun x => x.tok.ctx = ctx) ++ ((e.frameAll w false).filter fun x => decide (e.frameCtl w x.1 / 2 % 2 = 0)).map (·.2)

/-- A waiting token taken from where it waits. -/
def Element.unwait (e : Element) (x : Waiting) : Element :=
  if e.store.contains x then { e with store := e.store.erase x }
  else
    let w := e.frameEntry x.tok.ctx
    match (e.frameAll w false).find? fun y => y.2 = x with
    | some y => e.frameTake w y.1
    | none => e

/-- What is left of a waiting token put back where it waited. -/
def Element.rewait (e : Element) (img : Image) (old new : Waiting) : Element :=
  if e.store.contains old then { e with store := insertWaiting new (e.store.erase old) }
  else
    let e' := e.unwait old
    (e'.frameInsert img (e.frameEntry old.tok.ctx) new false).getD { e' with store := insertWaiting new e'.store }

/-- The unpaired marker of a slot, side and outer tag; ZIP takes any tag of its slot (R156). -/
def Element.markerAt (e : Element) (img : Image) (zip : Bool) (slot : Nat) (side : Bool) (tag : DWord) : Option Waiting :=
  lowestOf (fun o => decide (o.eos ≠ 0) && decide (o.slot = slot) && decide (o.side = side)
    && (zip || decide (img.outer o.tag = img.outer tag))) (e.waiting (fld tag 63 56))

/-- The waiting data of a slot and outer tag lose their lanes at or above a position (R153). -/
def Element.cutWaiting (e : Element) (img : Image) (slot : Nat) (tag : DWord) (pos : Nat) : Element :=
  (e.waiting (fld tag 63 56)).foldl (fun (e : Element) x =>
    if x.tok.slot = slot ∧ x.tok.eos = 0 ∧ img.outer x.tok.tag = img.outer tag then
      let c := cutAt img x pos
      (match c.1 with | some y => if y = x then e else e.rewait img x y | none => e.unwait x).mismatched c.2
    else e) e

/-- Valid lanes of a token. -/
def validLanes (t : Tok) : Nat := (List.range t.len).countP fun k => bit t.valid k

/-- A marker at a slot of arity 2 (R153, R156). At ZIP the data of either side that stands before its side's marker has no partner and
is discarded; what stands behind a marker stays. -/
def Fabric.markerArrives (f : Fabric) (el : Nat) (img : Image) (zip : Bool) (x : Waiting) (p : Port) : Fabric :=
  let e := f.el el
  let t := x.tok
  match e.markerAt img zip t.slot (!t.side) t.tag with
  | none => f.waitTok el x p
  | some o =>
    let pos := min (img.baseOf t) (img.baseOf o.tok)
    let rank := max t.eos o.tok.eos - 1
    let e := e.unwait o
    let e := if zip then
        let gone := (e.waiting t.ctx).filter fun y => decide (y.tok.slot = t.slot) && decide (y.tok.eos = 0)
          && decide (y.stamp < if y.tok.side = t.side then x.stamp else o.stamp)
        (gone.foldl Element.unwait e).mismatched ((gone.map fun y => validLanes y.tok).sum)
      else e.cutWaiting img t.slot t.tag pos
    (f.setEl el e).sendMarker el t.ctx t.slot rank (img.setF0 t.tag pos)

/-! ## ZIP (R156) -/

/-- The first n lanes of a run, and the rest. -/
def splitTok (t : Tok) (n : Nat) : Tok × Tok :=
  ({ t with hdr := setFld t.hdr 35 31 (n - 1), valid := t.valid &&& lanesMask n, lanes := t.lanes.take n },
   { t with hdr := setFld t.hdr 35 31 (t.len - n - 1), valid := (t.valid >>> n) &&& lanesMask (t.len - n), lanes := t.lanes.drop n })

/-- A token of ZIP once its first m lanes have paired. -/
def Element.zipRest (e : Element) (img : Image) (x : Waiting) (m : Nat) : Element :=
  if m < x.tok.len then e.rewait img x ⟨(splitTok x.tok m).2, x.stamp⟩ else e.unwait x

/-- The data of a side of a ZIP slot that its marker does not hold: what stands before it (R156). -/
def Element.zipData (e : Element) (img : Image) (ctx slot : Nat) (side : Bool) : List Waiting :=
  let m := e.markerAt img true slot side (w64 (ctx * 2 ^ 56))
  (e.waiting ctx).filter fun y => decide (y.tok.eos = 0) && decide (y.tok.slot = slot) && decide (y.tok.side = side)
    && m.all fun o => decide (y.stamp < o.stamp)

/-- Data that arrives at ZIP while the other side's marker waits: the lanes that stand at or above the marker's position, beyond those
that wait before it, are discarded (R153, R156). -/
def Element.zipCut (e : Element) (img : Image) (x : Waiting) : Option Waiting × Nat :=
  let t := x.tok
  let k := ((e.zipData img t.ctx t.slot (!t.side)).map (·.tok.len)).sum
  if k = 0 then (none, validLanes t)
  else if t.len ≤ k then (some x, 0)
  else (some ⟨(splitTok t k).1, x.stamp⟩, validLanes (splitTok t k).2)

/-- The tokens of ZIP pair by arrival position: the heads of both sides, until one side has none. -/
def zipPairs (el ctx slot stamp : Nat) (img : Image) : Nat → Fabric → Fabric
  | 0, f => f
  | n + 1, f =>
    let e := f.el el
    let head := fun side => oldestOf (e.zipData img ctx slot side)
    match head false, head true with
    | some a, some b =>
      let m := min a.tok.len b.tok.len
      let x := if m < a.tok.len then (splitTok a.tok m).1 else a.tok
      let y := if m < b.tok.len then (splitTok b.tok m).1 else b.tok
      zipPairs el ctx slot stamp img n ((f.setEl el ((e.zipRest img a m).zipRest img b m)).readySet el ⟨ctx, slot, x.tag, stamp, some x, some y, 0, 0⟩)
    | _, _ => f

/-! ## Arrival -/

/-- Is a token bad (R23)? -/
def badTok (t : Tok) : Bool :=
  decide (fld t.hdr 24 0 ≠ 0) || decide (fld t.tag 51 48 ≠ 0) || decide (12 < depth t.tag) || decide (t.eos = 3) || (t.vec && decide (1024 < t.len * codeWidth t.fmt))

/-- A token at a slot of its resident, active context (R20-R26, R143, R144, R152-R156). -/
def Fabric.atSlot (f : Fabric) (el : Nat) (img : Image) (x : Waiting) (p : Port) : Fabric :=
  let t := x.tok
  let op := (fieldOp (img.instr t.slot)).toNat
  let alone := decide (op = 0x61) || !(slotReads img t.slot false && slotReads img t.slot true)
  let two := slotReads img t.slot false && slotReads img t.slot true
  let zip := decide (op = 0x7D)
  if t.eos ≠ 0 then
    if two then f.markerArrives el img zip x p else f.sendMarker el t.ctx t.slot (t.eos - 1) (markerTag img t.slot t.tag)
  else
    let e := f.el el
    let cut := if two then match e.markerAt img zip t.slot (!t.side) t.tag with
        | some m => if zip then e.zipCut img x else cutAt img x (img.baseOf m.tok)
        | none => (some x, 0)
      else (some x, 0)
    let f := if cut.2 = 0 then f else f.setEl el (e.mismatched cut.2)
    match cut.1 with
    | none => f
    | some x =>
      if alone then f.readySet el ⟨t.ctx, t.slot, x.tok.tag, x.stamp, if x.tok.side then none else some x.tok, if x.tok.side then some x.tok else none, 0, 0⟩
      else if zip then zipPairs el t.ctx t.slot x.stamp img 32 (f.waitTok el x p)
      else matchToks el img (!matchesEqual op) p 64 [x] f

/-- A KILL of the token's context is in progress in the element's partition (R405). -/
def Fabric.killing (f : Fabric) (el ctx : Nat) : Bool :=
  f.els.any fun p => p.2.pend.any fun q => decide (q.op = 0xF3) && decide (q.a.toNat = ctx) && decide (f.partOf p.1 = f.partOf el)

/-- A token dropped by the KILLs of its context is counted (R405). -/
def Fabric.killDrop (f : Fabric) (el ctx : Nat) : Fabric :=
  let hit := fun (x : Nat) (q : Pend) => decide (q.op = 0xF3) && decide (q.a.toNat = ctx) && decide (f.partOf x = f.partOf el)
  (f.els.filter fun p => p.2.pend.any (hit p.1)).foldl (fun (f : Fabric) p =>
    f.modEl p.1 fun e => { e with pend := e.pend.map fun q => if hit p.1 q then { q with cnt := q.cnt + 1 } else q }) f

/-- ARRIVAL OF A STAMPED TOKEN: bad tokens, unbound blocks (R134), held and stray tokens, then its slot. -/
def Fabric.accept (f : Fabric) (el : Nat) (x : Waiting) (p : Port) : Fabric :=
  let e := f.el el
  let t := x.tok
  let slotW := w32 t.slot
  let seen := f.seenImage el t.ctx
  if badTok t then (f.setEl el { e with badtok := satAdd e.badtok 1 }).parkTok el seen x p .data slotW
  else
    let img := e.residentOf t.ctx
    let bound := isFatik el || bit (f.bk (blockOf el) 0) 31 || (match img with | some r => decide (Image.priv r.image = 2) | none => false)
    let stray := fun _ : Unit => (f.setEl el { e with stray := satAdd e.stray 1 }).parkTok el seen x p .format slotW
    if !bound then stray ()
    else match img with
    | none => if isFatik el then stray () else (f.hold el x p).askImage el t.ctx
    | some r =>
      if !isFatik el && !f.active (blockOf el) t.ctx then f.hold el x p
      else if !isFatik el && !(e.heldToks t.ctx).isEmpty then (f.hold el x p).askReplay el t.ctx
      else if !slotReads r.image t.slot t.side then stray ()
      else f.atSlot el r.image x p

/-- Does a token at a slot of arity 2 meet something that waits: a partner, or the other side's marker? -/
def Element.meets (e : Element) (img : Image) (t : Tok) : Bool :=
  let op := (fieldOp (Image.instr img t.slot)).toNat
  let zip := decide (op = 0x7D)
  (!zip && (e.waiting t.ctx).any fun o => isPartner img (!matchesEqual op) t o.tok) || (e.markerAt img zip t.slot (!t.side) t.tag).isSome

/-- RESUME of a token that found no place in its frame: the insertion is retried (R37). A token for which something has come to wait
meanwhile, or that no longer waits at all because its context is now resident and active, is taken as an arrival instead: an insertion
would leave it beside its partner for ever (DEDUCED, log 47). -/
def Fabric.insertAgain (f : Fabric) (el : Nat) (x : Waiting) (p : Port) : Fabric :=
  let e := f.el el
  let t := x.tok
  match e.residentOf t.ctx with
  | none => f.accept el x p
  | some r =>
    let img := r.image
    let op := (fieldOp (Image.instr img t.slot)).toNat
    let two := slotReads img t.slot false && slotReads img t.slot true && decide (op ≠ 0x61)
    if isFatik el || !f.active (blockOf el) t.ctx || !(e.heldToks t.ctx).isEmpty || !two || e.meets img t then f.accept el x p
    else match e.frameInsert img (e.frameEntry t.ctx) x false with
      | some e => if op = 0x7D ∧ t.eos = 0 then zipPairs el t.ctx t.slot x.stamp img 32 (f.setEl el e) else f.setEl el e
      | none => f.spillFull el img x p

end Sys2Proof.Machine
end

