-- ==== Sys2Proof/Machine/Residence.lean ====
section
/-! DEFINITION. Residence of contexts (R28, R29, R38, R135, R157-R162, R344-R346, R351, R408): the bank encoding, save records
and bank claims, eviction, loading an image into a slot, configuration misses, replay, and a CFGLD's entries. -/

namespace Sys2Proof.Machine

/-! ## The bank encoding (R351) -/

/-- The 512 words of bank b. -/
def Element.bankWords (e : Element) (b : Nat) : List DWord := (List.range 512).map fun i => e.mem.word (8 * (96 * i + b))
/-- The words of bank b written; `mark` sets its dirty bit. -/
def Element.putBank (e : Element) (b : Nat) (ws : List DWord) : Element :=
  (ws.zipIdx).foldl (fun (e : Element) x => if e.mem.word (8 * (96 * x.2 + b)) = x.1 then e else e.putWord (8 * (96 * x.2 + b)) x.1)
    { e with dirty := e.dirty ||| (1 : BitVec 96) <<< b }

/-- Maximal runs of equal words: value and length. -/
def wordRuns : List DWord → List (DWord × Nat)
  | [] => []
  | w :: r =>
    match wordRuns r with
    | (v, n) :: s => if v = w then (v, n + 1) :: s else (w, 1) :: (v, n) :: s
    | [] => [(w, 1)]

/-- A control word: OP and N - 1. -/
def bankCtl (op n : Nat) : DWord := w64 (op * 2 ^ 62 + (n - 1))

/-- Pieces of an encoding: literal words, or a run of its own. -/
def packRuns : List (DWord × Nat) → List DWord → List DWord
  | [], lits => if lits.isEmpty then [] else bankCtl 0 lits.length :: lits
  | (v, n) :: r, lits =>
    let flush := if lits.isEmpty then [] else bankCtl 0 lits.length :: lits
    if v = 0 ∧ 2 ≤ n then flush ++ bankCtl 1 n :: packRuns r []
    else if v ≠ 0 ∧ 3 ≤ n then flush ++ bankCtl 2 n :: v :: packRuns r []
    else packRuns r (lits ++ List.replicate n v)

/-- A bank encoded. -/
def encodeBank (ws : List DWord) : List DWord := packRuns (wordRuns ws) [] ++ [0xC000000000000000]

/-- An encoding decoded, with fuel; none where it breaks R351. -/
def decodeBank : Nat → List DWord → Option (List DWord)
  | 0, _ => none
  | _, [] => none
  | k + 1, c :: r =>
    let n := fld c 9 0 + 1
    if fld c 61 10 ≠ 0 then none
    else match fld c 63 62 with
    | 0 => if r.length < n then none else (decodeBank k (r.drop n)).map (r.take n ++ ·)
    | 1 => (decodeBank k r).map (List.replicate n 0 ++ ·)
    | 2 => match r with | v :: r => (decodeBank k r).map (List.replicate n v ++ ·) | [] => none
    | _ => if n = 1 then some [] else none

/-- A decoding that yields exactly a bank's 512 words (R407). -/
def decodeWhole (ws : List DWord) : Option (List DWord) := (decodeBank 600 ws).bind fun x => if x.length = 512 then some x else none

/-! ## Save records and bank claims (R344-R346) -/

/-- A context's save directory entry in an element: record address and footprint. -/
def Fabric.saveEntry (f : Fabric) (el ctx : Nat) : Option (Nat × BitVec 96) :=
  let w := f.bk (blockOf el) 5
  if isFatik el || !bit w 0 then none
  else
    (f.ctlWords (f.partOf el) (fld w 56 19 * 2 ^ 19 + 32 * (64 * ctx + 8 * (rowOf el % 8) + colOf el % 8)) 4).bind fun ws =>
      if bit (ws.getD 0 0) 0 then
        some (fld (ws.getD 0 0) 56 10 * 1024, BitVec.ofNat 96 ((ws.getD 1 0).toNat + fld (ws.getD 2 0) 31 0 * 2 ^ 64))
      else none

/-- A failure record's two words. -/
def failWords (r : FailRec) : List DWord := [w64 (r.count + r.causes.toNat * 256), r.addr.setWidth 64]
/-- The two words of a failure record as it is in a save area: ADDR in bytes 8 to 13 (R346). -/
def failOf (ws : List DWord) : FailRec :=
  ⟨fld (ws.getD 0 0) 7 0, BitVec.ofNat 3 (fld (ws.getD 0 0) 10 8), if bit (ws.getD 0 0) 8 then 1 else if bit (ws.getD 0 0) 9 then 2 else if bit (ws.getD 0 0) 10 then 3 else 0,
    BitVec.ofNat 48 (fld (ws.getD 1 0) 47 0)⟩

/-- A context's failure record read back from its save record. -/
def Fabric.savedFail (f : Fabric) (el ctx : Nat) : FailRec :=
  match f.saveEntry el ctx with
  | some (r, _) => ((f.ctlWords (f.partOf el) r 2).map failOf).getD FailRec.empty
  | none => FailRec.empty

/-- A context's failure record written to its save record. -/
def Fabric.saveFail (f : Fabric) (el ctx : Nat) (r : FailRec) : Fabric :=
  match f.saveEntry el ctx with
  | some (a, _) => (f.ctlPut (f.partOf el) a (failWords r)).getD f
  | none => f

/-- Bank b written to a context's record, V set in its bank table. -/
def Fabric.bankOut (f : Fabric) (el ctx b : Nat) : Fabric :=
  match f.saveEntry el ctx with
  | none => f
  | some (r, _) =>
    let ws := encodeBank ((f.el el).bankWords b)
    ((f.ctlPut (f.partOf el) (r + 0x400 + 0x1040 * b) ws).bind fun f =>
      f.ctlWrite (f.partOf el) (r + 0x40 + 8 * b) (w64 (2 ^ 63 + ws.length))).getD f

/-- Bank b filled from a context's record where its table entry has V set. -/
def Fabric.bankIn (f : Fabric) (el ctx b : Nat) : Fabric :=
  match f.saveEntry el ctx with
  | none => f
  | some (r, _) =>
    match f.ctlRead (f.partOf el) (r + 0x40 + 8 * b) with
    | none => f
    | some t =>
      if bit t 63 then
        match (f.ctlWords (f.partOf el) (r + 0x400 + 0x1040 * b) (fld t 9 0)).bind decodeWhole with
        | some ws => f.modEl el fun e => e.putBank b ws
        | none => f
      else f

/-- The banks of a footprint claimed in turn (R345), with the bank whose claim failed; those claimed before it stay claimed. -/
def claimBanks (el ctx : Nat) : Fabric → List Nat → Fabric × Option Nat
  | f, [] => (f, none)
  | f, b :: r =>
    let take := fun (f : Fabric) => (f.modEl el fun e => { e with owners := tset e.owners b ctx }).bankIn el ctx b
    match tfind (f.el el).owners b with
    | none => claimBanks el ctx (take f) r
    | some x =>
      if x = ctx then claimBanks el ctx f r
      else if ((f.el el).slotOf x).isSome then (f, some b)
      else claimBanks el ctx (take (f.bankOut el x b)) r

/-- The claim of a context's footprint. -/
def Fabric.claimAll (f : Fabric) (el ctx : Nat) : Fabric × Option Nat :=
  match f.saveEntry el ctx with
  | none => (f, none)
  | some (_, foot) => claimBanks el ctx f ((List.range 96).filter fun b => bit foot b)

/-! ## Eviction (R161) and frames in place (R38) -/

/-- Tokens moved to their context's frame, each parked where it finds no place (R37). Where no entry is free either, the token waits at a
port; a frame record keeps none, and the model has it wait at the packet port (DESIGN CHOICE, log 49). -/
def Fabric.toFrame (f : Fabric) (el : Nat) (img : Image) (miss : Bool) (xs : List Waiting) : Fabric :=
  xs.foldl (fun f x =>
    match (f.el el).frameInsert img ((f.el el).frameEntry x.tok.ctx) x miss with
    | some e => f.setEl el e
    | none => f.spillFull el img x .packet) f

/-- The waiting tokens of a resident context move from the matching store to its frame, with M where `miss`. -/
def Fabric.storeToFrame (f : Fabric) (el : Nat) (img : Image) (miss : Bool) : Fabric :=
  let go := (f.el el).store.filter fun x => x.tok.ctx = img.ctx
  (f.modEl el fun e => { e with store := e.store.filter fun x => x.tok.ctx ≠ img.ctx }).toFrame el img miss go

/-- A resident context leaves an element: its waiting tokens move to its frame, its failure record to its save record, and its slot
is free. -/
def Fabric.evict (f : Fabric) (el ctx : Nat) (miss : Bool) : Fabric :=
  match (f.el el).residentOf ctx with
  | none => f
  | some r =>
    let f := (f.storeToFrame el r.image miss).saveFail el ctx r.fail
    f.modEl el fun e => { e with slots := e.slots.filter fun p => p.2.ctx ≠ ctx }

/-- A context's frame directory entry written, and the frame that it names left with no token, zero counts and every slot's P, M and T
clear. R38 has the counts rebuilt from the moved tokens and says nothing of the slots; the model clears both, whether the entry follows
another or is the context's first (DESIGN CHOICE, log 49). -/
def Element.newFrame (e : Element) (ctx : Nat) (w : Word) : Element :=
  let e := e.putN (e.dirAddr ctx) w.toNat 4
  if frameUsable w then
    (List.range (2 ^ frameBits w)).foldl (fun (e : Element) i => if e.frameCtl w i = 0 then e else e.putN (frameSlot w i + 28) 0 4)
      (e.zeroMem (frameBase w) 128)
  else e

/-- A context's frame directory entry written; tokens in its old frame move to the new one (R38). -/
def Fabric.setFrame (f : Fabric) (el : Nat) (img : Image) : Fabric :=
  let e := f.el el
  let ctx := img.ctx
  let old := e.frameEntry ctx
  if old = img.frame then f
  else
    let all := e.frameAll old false
    let order := sortWaiting (all.map (·.2))
    let held := fun x => all.any fun p => decide (p.2 = x) && decide (e.frameCtl old p.1 / 2 % 2 = 1)
    order.foldl (fun f x => f.toFrame el img (held x) [x]) (f.setEl el (e.newFrame ctx img.frame))

/-! ## Loading an image (R51, R135, R161, R162) -/

/-- The pool map of a context's first image (R135). -/
def poolOf (n : Nat) : BitVec 256 := BitVec.ofNat 256 (2 ^ n - 1)

/-- What an anchor keeps for a context as its first image since the binding sets it. -/
def anchorNew (img : Image) : AnchorCtx :=
  ⟨(List.range 12).map (fun i => if i < img.levels then img.bound (i + 1) else 0), poolOf img.poolSize, img.priv, img.levels, img.h 1, img.h 2, img.poolSize, false⟩

/-- An anchor's record of a context from its saved counters and pool map (R349). -/
def anchorRestored (credits : List Nat) (pool : BitVec 256) : AnchorCtx := ⟨credits, pool, 0, restoredLevels, 0, 0xFFFFFFFFFFFFFFFF, 256, false⟩

/-- The anchor's record of a context as one more image loads (R135). -/
def Fabric.anchorLoad (f : Fabric) (el : Nat) (img : Image) : Fabric :=
  match f.anchorOf el with
  | none => f
  | some an => f.modBlk an fun b =>
    let fresh := { b with anchors := tset b.anchors img.ctx (anchorNew img) }
    match tfind b.anchors img.ctx with
    | none => fresh
    | some x =>
      if x.stale then fresh
      else if x.levels = restoredLevels then { b with anchors := tset b.anchors img.ctx { anchorNew img with credits := x.credits, pool := x.pool } }
      else { b with anchors := tset b.anchors img.ctx { x with priv := max x.priv img.priv } }

/-- An accepted image enters a slot: its frame, the anchor's record, the slot; records in the sink for the slot are delivered
(R395). -/
def Fabric.install (f : Fabric) (el slot : Nat) (img : Image) (pin : Bool) : Fabric :=
  let ctx := img.ctx
  let f := f.setFrame el img
  let fail := match (f.el el).residentOf ctx with | some r => r.fail | none => f.savedFail el ctx
  let f := f.modEl el fun e => { e with slots := tset (e.slots.filter fun p => p.2.ctx ≠ ctx) slot ⟨ctx, img, pin, f.clock, fail⟩ }
  let f := if isFatik el then f else (f.anchorLoad el img).modBlk (blockOf el) fun b => { b with scrubbed := false, misses := b.misses.filter fun p => p ≠ (el, ctx) }
  f.postAll (((f.el el).sink.filter fun t => t.hint = slot).map fun _ => .trapRecordDeliver el)

/-- Does a slot take scale tokens (R167)? -/
def takesScales (img : Image) (slot : Nat) : Bool :=
  let op := (fieldOp (img.instr slot)).toNat
  img.uses slot && (decide (img.fin slot = 12) || decide (img.fin slot = 13))
    && inRanges op [(0x81, 0x82), (0x85, 0x85), (0x4A, 0x4A), (0x91, 0x91), (0x9D, 0x9D)]

/-- Scales that arrived while their context was away, for slots of its image that take none, are dropped and counted (R167). -/
def Element.dropScales (e : Element) (ctx : Nat) : Element :=
  let bad := fun t : ScaleTok => decide (fld t.tag 63 56 = ctx) && !takesScales (e.imageOf ctx) t.slot
  { e with scales := e.scales.filter (fun t => !bad t), stray := satAdd e.stray (e.scales.countP bad) }

/-- What follows residence: misdirected scales are dropped, the banks are claimed, and held tokens replay (R161, R167, R345). A claim
that fails stops the first held token. -/
def Fabric.afterInstall (f : Fabric) (el ctx : Nat) (stop : Fabric → Word → Fabric) : Fabric :=
  match (f.modEl el fun e => e.dropScales ctx).claimAll el ctx with
  | (f, none) => if ((f.el el).heldToks ctx).isEmpty then f else f.askReplay el ctx
  | (f, some b) => stop f (w32 (2 ^ 31 + b))

/-- A victim slot (R161): the lowest empty one, else that of the idle unpinned context that issued least recently. -/
def Element.victimSlot (e : Element) : Option Nat :=
  match (List.range 4).find? fun s => (tfind e.slots s).isNone with
  | some s => some s
  | none =>
    (((e.slots.filter fun p => !p.2.pinned && !e.busy p.2.ctx).foldl
      (fun best p => match best with | none => some p | some q => if p.2.last < q.2.last then some p else some q) none) : Option (Nat × Resident)).map (·.1)

/-- The first held token of a context raises ILLEGAL (R29, R161): its record goes to a trap destination, and the miss waits
for the answer. -/
def Fabric.missStop (f : Fabric) (el ctx : Nat) (dest : Option Word) (info : Word) : Fabric :=
  match ((f.el el).heldToks ctx).head? with
  | none => f
  | some x =>
    let f := f.modBlk (blockOf el) fun b => { b with misses := if b.misses.contains (el, ctx) then b.misses else b.misses ++ [(el, ctx)] }
    let lanes := recordLanes x.tok.tag .illegal el x.tok.slot false info 0
    match dest with
    | some d => f.sendRecord (f.recordTarget el d) lanes
    | none => f.sendRecord (BitVec.ofNat 32 (f.bk 0 9).toNat) lanes

/-- The frame directory entry that a miss writes from an image's header, and the buffered tokens of the context moved to its
frame (R29); under a header whose entry has V clear they stay in the buffer until they replay. -/
def Fabric.missFrame (f : Fabric) (el ctx : Nat) (img : Image) : Fabric :=
  let e := f.el el
  if entryOk (e.frameEntry ctx) then f
  else
    let e := e.newFrame ctx img.frame
    let go := if !entryOk img.frame then [] else sortWaiting (e.missBuf.filter fun x => x.tok.ctx = ctx)
    let e := if entryOk img.frame then { e with missBuf := e.missBuf.filter fun x => x.tok.ctx ≠ ctx } else e
    (f.setEl el e).toFrame el img true go

/-- CONFIG_MISS_SERVE (R28, R29, R161, R341): the directory entry and the frame, the victim and its waiting tokens, the load. A refused image
leaves the victim resident, its tokens in its frame (R51). -/
def missServe (f : Fabric) (el ctx : Nat) : Fabric :=
  if isFatik el then f
  else if (f.blk (blockOf el)).stopped then f.post (.configMissServe el ctx)
  else
    let part := f.partOf el
    let illegal := fun (f : Fabric) dest => f.missStop el ctx dest (w32 ctx)
    match (f.el el).residentOf ctx with
    | some r => f.afterInstall el ctx fun f i => f.missStop el ctx (some (Image.trapd r.image)) i
    | none =>
      match (f.dirEntry el ctx).bind (f.readImage part) with
      | none => illegal f none
      | some img =>
        if !entryOk ((f.el el).frameEntry ctx) && decide (destKind img.trapd ≠ 1) then illegal f none
        else
          let f := f.missFrame el ctx img
          let dest := if destKind img.trapd = 1 then some img.trapd else none
          match (f.el el).victimSlot with
          | none => f.post (.configMissServe el ctx)
          | some s =>
            let victim := tfind (f.el el).slots s
            let f := match victim with | some v => f.storeToFrame el v.image false | none => f
            let report := if img.ctx ≠ ctx then loadReport 0x13 none none none else loadCheck f el img 2
            if report ≠ 0 then f.missStop el ctx dest report
            else
              let f := match victim with | some v => f.evict el v.ctx false | none => f
              (f.install el s img false).afterInstall el ctx fun f i => f.missStop el ctx dest i

/-- MISS_REPLAY (R28, R159): the held tokens of a resident, active context arrive in stamp order. They stay held while the first of them
waits for the answer to a failed load or bank claim (R161, R345), and while the block is stopped (R348). -/
def replay (f : Fabric) (el ctx : Nat) : Fabric :=
  if isFatik el || !f.active (blockOf el) ctx || ((f.el el).slotOf ctx).isNone then f
  else if (f.blk (blockOf el)).stopped then f.post (.missReplay el ctx)
  else if (f.blk (blockOf el)).misses.contains (el, ctx) then f
  else
    let xs := (f.el el).heldToks ctx
    xs.foldl (fun f x => f.accept el x .packet) (f.modEl el fun e => e.takeHeld ctx)

/-! ## CFGLD's entries (R162) -/

/-- An entry done: its report counted, and the next entry, or the summary. -/
def cfgldNext (f : Fabric) (el : Nat) (p : Pend) (report : Word) : Fabric :=
  let first := if report ≠ 0 ∧ p.vals.isEmpty then [report.setWidth 64, w64 p.cur] else p.vals
  let q := { p with phase := 1, cur := p.cur + 1, cnt := if report = 0 then p.cnt + 1 else p.cnt, vals := first }
  (f.modEl el fun e => e.setPend q).post (.cfgldEntry el p.id)

/-- CFGLD's summary. -/
def cfgldDone (f : Fabric) (el : Nat) (p : Pend) : Fabric :=
  let sum := w64 ((p.vals.getD 0 0).toNat + (p.vals.getD 1 0).toNat % 65536 * 2 ^ 32 + p.cnt % 65536 * 2 ^ 48)
  complete f el p [p.raw p.d sum, p.ordOut p.e]

/-- A directory entry written by an accepted load. -/
def Fabric.dirWrite (f : Fabric) (el ctx addr : Nat) : Fabric :=
  let w := f.bk (blockOf el) 1
  if bit w 0 then
    (f.ctlWrite (f.partOf el) (fld w 56 17 * 131072 + 8 * (64 * ctx + 8 * (rowOf el % 8) + colOf el % 8)) (w64 (addr / 128 * 128 + 1))).getD f
  else f

/-- CFGLD_ENTRY (R162): the count of the load table at p.a (phase 0), then one entry; its index is p.cur, HOLD and PIN are bits
of p.b, the entry count is p.base. An entry whose target's block SAVE has stopped waits (phase 2): its controller starts no fetch
(R348); so does one whose target slot holds a context that is not idle, CFGLD's own context included. Bits 6:0 of an entry's image address, which the rule has zero, are used as they stand (DESIGN CHOICE, log 41). -/
def cfgldStep (f : Fabric) (el id : Nat) : Fabric :=
  onPend f el id fun p =>
    let part := f.partOf el
    let stop := fun a n => let x := f.ctlFault part a n; parkStep f el p p.cur x.1 x.2
    if p.phase = 0 then
      match f.ctlRead part p.a.toNat with
      | none => stop p.a.toNat 1
      | some w => (f.modEl el fun e => e.setPend { p with phase := 1, base := fld w 15 0 }).post (.cfgldEntry el id)
    else if p.base ≤ p.cur then cfgldDone f el p
    else
      let ea := p.a.toNat + 8 + 16 * p.cur
      match f.ctlWords part ea 2 with
      | none => stop ea 2
      | some ws =>
        let addr := fld (ws.getD 0 0) 56 0
        let tgt := fld (ws.getD 1 0) 15 0
        let slot := fld (ws.getD 1 0) 17 16
        if f.partOf tgt ≠ part then cfgldNext f el p (loadReport 0x0E none none none)
        else if !isFatik tgt && (f.blk (blockOf tgt)).stopped then (f.modEl el fun e => e.setPend { p with phase := 2 }).post (.cfgldEntry el id)
        else match f.readImage part addr with
          | none => stop addr 48
          | some img =>
            let report := loadCheck f tgt img (Image.priv ((f.el el).imageOf p.set.ctx))
            if report ≠ 0 then cfgldNext f el p report
            else
              match tfind (f.el tgt).slots slot with
              | some v =>
                if (f.el tgt).busy v.ctx then (f.modEl el fun e => e.setPend { p with phase := 2 }).post (.cfgldEntry el id)
                else go f p img tgt slot addr (if v.ctx = img.ctx then f.storeToFrame tgt v.image false else f.evict tgt v.ctx false)
              | none => go f p img tgt slot addr f
where
  /-- The load itself. -/
  go (_ : Fabric) (p : Pend) (img : Image) (tgt slot addr : Nat) (f : Fabric) : Fabric :=
    let f := (f.install tgt slot img (bit p.b 1)).dirWrite tgt img.ctx addr
    let f := if bit p.b 0 then f.setActive (blockOf tgt) img.ctx false else f
    let f := f.afterInstall tgt img.ctx fun f i => f.missStop tgt img.ctx (some img.trapd) i
    cfgldNext f el p 0

/-! ## CFGFL (R408) -/

/-- The copies still to evict are named in a CFGFL's args as 256 x element + context; one that is gone is counted. -/
def copyKey (el ctx : Nat) : DWord := w64 (256 * el + ctx)

/-- A copy is gone: every CFGFL that waits for it counts it, and one that waits for no more ends. -/
def copyGone (f : Fabric) (el ctx : Nat) : Fabric :=
  let hits := f.els.flatMap fun p => (p.2.pend.filter fun q => decide (q.op = 0xFA) && q.args.contains (copyKey el ctx)).map fun q => (p.1, q)
  hits.foldl (fun f x =>
    let q := { x.2 with args := x.2.args.erase (copyKey el ctx), cnt := x.2.cnt + 1 }
    if q.args.isEmpty then complete f x.1 q [q.raw q.d (w64 q.cnt), q.ordOut q.e] else f.modEl x.1 fun e => e.setPend q) f

/-- CONTEXT_EVICT (R408): the copy leaves once it is idle, its waiting tokens to its frame with M set. -/
def contextEvictStep (f : Fabric) (el ctx : Nat) : Fabric :=
  if ((f.el el).slotOf ctx).isNone then copyGone f el ctx
  else if (f.el el).busy ctx then f.post (.contextEvict el ctx)
  else copyGone (f.evict el ctx true) el ctx

end Sys2Proof.Machine
end

