-- ==== Sys2Proof/Machine/Activity.lean ====
section
/-! DEFINITION. What counts as activity (R249): an element's sets, requests, delay line, generators and misses, and what is on its
way, for the contexts that a wave looks at. -/

namespace Sys2Proof.Machine

/-- Does a parked set count (R249)? -/
def ParkReason.counts (r : ParkReason) : Bool :=
  match r with
  | .lode | .freeList | .pool | .scale | .commit | .wave => false
  | _ => true

/-- Is a firing's credit or pool request held at its anchor (R136)? -/
def Fabric.isHeld (f : Fabric) (el id : Nat) : Bool :=
  match f.anchorOf el with
  | none => false
  | some an => (f.blk an).held.any fun h => decide (h.el = el) && decide (h.id = id)

/-- Does an issued firing count: not a deferred reader, a claim waiter, an access in the store buffer, nor one whose request
is held at the anchor and that awaits nothing else? -/
def Fabric.pendCounts (f : Fabric) (el : Nat) (p : Pend) : Bool :=
  decide (p.phase ≠ 2000) && decide (p.phase ≠ 2100) && decide (p.phase ≠ 3000)
    && !(p.grant && f.isHeld el p.id && (decide (p.left = 0) || decide (0xC8 ≤ p.op)) && p.accs.isEmpty)

/-- The context that a sink token goes to: a trap record to that of the resident slot its HINT names (R395), any other to its own. -/
def Element.sinkCtx (e : Element) (t : Tok) : Option Nat := if t.trapTok then (tfind e.slots t.hint).map (·.ctx) else some t.ctx

/-- Has an element activity of the contexts in P, but for the firing `skip`? -/
def Fabric.elActive (f : Fabric) (el : Nat) (P : Nat → Bool) (skip : Option (Nat × Nat)) : Bool :=
  let e := f.el el
  e.ready.any (fun s => P s.ctx) || e.probes.any (fun x => P x.1.tok.ctx)
    || e.sink.any (fun t => (e.sinkCtx t).any P) || e.parked.any (fun x => P x.set.ctx && x.reason.counts) || e.parkedToks.any (fun x => P x.tok.ctx)
    || e.pend.any (fun p => P p.set.ctx && decide (skip ≠ some (el, p.id)) && f.pendCounts el p)
    || e.delays.any (fun d => P d.2.set.ctx) || e.loops.any (fun g => P g.pend.set.ctx)
    || (!isFatik el && (f.blk (blockOf el)).misses.any fun m => decide (m.1 = el) && P m.2)

/-- Has an element sent a token of the contexts in P since a sample (R249)? -/
def Fabric.elSent (f : Fabric) (el : Nat) (P : Nat → Bool) (since : Nat) : Bool :=
  (f.el el).sentAt.any fun x => P x.1 && decide (since < x.2)

/-- A memory request on its way. -/
def evReq : Ev → Option Req
  | .translationRequest _ q => some q
  | .channelRequest _ _ q => some q
  | .stripeAccess q => some q
  | .routeAccess _ _ q => some q
  | .apertureStore q => some q
  | .apertureLoad q => some q
  | .engineCommand _ _ q _ => some q
  | _ => none

/-- Is a request one of the contexts in P, from an element that meets a test? -/
def Req.among (P T : Nat → Bool) (q : Req) : Bool := decide (q.el < 131072) && T q.el && P q.ctx

/-- Is an event a token, a request or a miss of the contexts in P on its way to or from an element that meets a test? -/
def evActive (P : Nat → Bool) (T : Nat → Bool) : Ev → Bool
  | .tokenArrive el _ t => T el && P t.ctx
  | .scaleTokenArrive el t => T el && P (fld t.tag 63 56)
  | .stageEntrySend el t => T el && P t.ctx
  | .configMissServe el c => T el && P c
  | .missReplay el c => T el && P c
  | e => (evReq e).any (Req.among P T)

/-- Is a request of the contexts in P under way at a base die: in its translation unit, at a channel port, at a Geode slice or with a Fatik
element (R249, R426)? -/
def Fabric.diesActive (f : Fabric) (P T : Nat → Bool) : Bool :=
  let mine := Req.among P T
  let claim := fun g : GReq => decide (g.pkg = f.pkg) && T g.el && P g.ctx
  f.agenda.any (fun e => match e with | .geodeSliceOperation _ g => claim g | .clinvSetStep _ g => claim g | _ => false)
    || f.dies.any (fun d => d.2.walkQ.any mine || d.2.walks.any (fun w => w.reqs.any mine) || d.2.queued.any fun x => mine x.2.2)
    || f.els.any fun x => x.2.cmds.any fun c => mine c.1

/-- Is anything of the contexts in P active among the elements that meet a test? -/
def Fabric.anyActive (f : Fabric) (P : Nat → Bool) (T : Nat → Bool) (since : Nat) (skip : Option (Nat × Nat)) : Bool :=
  f.agenda.any (evActive P T) || f.els.any fun x => T x.1 && (f.elActive x.1 P skip || f.elSent x.1 P since)

end Sys2Proof.Machine
end

