-- ==== Sys2Proof/Machine/AnchorEv.lean ====
section
/-! DEFINITION. What anchors do (R134-R142, R160, R168, R227, R253, R405): credits and pool numbers, CSW's drain, region waves with
their traps and reports, and the waves of a KILL. -/

namespace Sys2Proof.Machine

/-! ## Credits and pool numbers (R135-R138) -/

/-- A request at an anchor that keeps no counters for its context is refused: ILLEGAL with the slot, after issue (R135). -/
def Fabric.refuseGrant (f : Fabric) (el id : Nat) : Fabric :=
  match (f.el el).pendOf id with
  | none => f
  | some p => parkAccess f el id ⟨0, .trap, .illegal, p.slotW, false, none⟩

/-- The lowest free pool number below 2^wid. -/
def AnchorCtx.lowest (x : AnchorCtx) (wid : Nat) : Option Nat := (List.range (min 256 (2 ^ wid))).find? fun n => bit x.pool n

/-- A credit of a level taken. -/
def AnchorCtx.takeCredit (x : AnchorCtx) (lvl : Nat) : AnchorCtx := { x with credits := x.credits.set (lvl - 1) (x.credits.getD (lvl - 1) 0 - 1) }
/-- A pool number taken. -/
def AnchorCtx.takeNum (x : AnchorCtx) (n : Nat) : AnchorCtx := { x with pool := setFld x.pool n n 0 }
/-- A context's record replaced. -/
def Fabric.setAnchor (f : Fabric) (bk ctx : Nat) (x : AnchorCtx) : Fabric := f.modBlk bk fun b => { b with anchors := tset b.anchors ctx x }

/-- A request satisfied at once, if it can be: the fabric with the grant on its way. -/
def Fabric.tryGrant (f : Fabric) (bk : Nat) (h : Held) (x : AnchorCtx) : Option Fabric :=
  if h.pool then (x.lowest h.arg).map fun n => (f.setAnchor bk h.ctx (x.takeNum n)).post (.grantArrive h.el h.id n)
  else if x.credits.getD (h.arg - 1) 0 = 0 then none
  else some ((f.setAnchor bk h.ctx (x.takeCredit h.arg)).post (.grantArrive h.el h.id 0))

/-- A request at its anchor: granted, held, or refused. -/
def Fabric.askGrant (f : Fabric) (bk : Nat) (h : Held) : Fabric :=
  if ((f.el h.el).pendOf h.id).isNone then f
  else match tfind (f.blk bk).anchors h.ctx with
  | none => f.refuseGrant h.el h.id
  | some x =>
    match f.tryGrant bk h x with
    | some f => f
    | none => (f.modBlk bk fun b => { b with held := b.held ++ [h] }).askWave h.el

/-- LEVEL_CREDIT_REQUEST (R136). -/
def execLevelCreditRequest (bk el id ctx lvl : Nat) (s : State) : Host.Outcome State Fault Refusal :=
  fabStep s fun f => f.askGrant bk ⟨el, id, ctx, false, lvl, false⟩
/-- POOL_REQUEST (R136). -/
def execPoolRequest (bk el id ctx wid : Nat) (s : State) : Host.Outcome State Fault Refusal :=
  fabStep s fun f => f.askGrant bk ⟨el, id, ctx, true, wid, false⟩

/-- A return for a context without counters is counted (R138). -/
def Fabric.tagErr (f : Fabric) (bk : Nat) : Fabric := f.setBk bk 8 ((satAdd (w32 (f.bk bk 8).toNat) 1).setWidth 64)

/-- The oldest held request of a context that can be satisfied is granted (R136). -/
def Fabric.grantHeld (f : Fabric) (bk ctx : Nat) (pool : Bool) (arg : Nat) : Fabric :=
  match tfind (f.blk bk).anchors ctx with
  | none => f
  | some x =>
    let can := fun h : Held => decide (h.ctx = ctx) && decide (h.pool = pool) && (pool || decide (h.arg = arg)) && (f.tryGrant bk h x).isSome
    match (f.blk bk).held.find? can with
    | none => f
    | some h => ((f.tryGrant bk h x).getD f).modBlk bk fun b => { b with held := b.held.erase h }

/-- A level credit returned (R138). -/
def creditBack (f : Fabric) (bk ctx lvl : Nat) : Fabric :=
  match tfind (f.blk bk).anchors ctx with
  | none => f.tagErr bk
  | some x =>
    let n := x.credits.getD (lvl - 1) 0
    if lvl = 0 ∨ x.levels < lvl ∨ fld x.h2 (4 * lvl - 1) (4 * lvl - 4) + 1 ≤ n then f
    else (f.setAnchor bk ctx { x with credits := x.credits.set (lvl - 1) (n + 1) }).grantHeld bk ctx false lvl

/-- A pool number returned (R138). -/
def poolBack (f : Fabric) (bk ctx num : Nat) : Fabric :=
  match tfind (f.blk bk).anchors ctx with
  | none => f.tagErr bk
  | some x =>
    if x.poolSize ≤ num || bit x.pool num then f
    else (f.setAnchor bk ctx { x with pool := setFld x.pool num num 1 }).grantHeld bk ctx true 0

/-- LEVEL_CREDIT_RETURN (R138). -/
def execLevelCreditReturn (w : ToAnchor) (ctx lvl : Nat) (s : State) : Host.Outcome State Fault Refusal := fabStep s fun f => creditBack f w.bk ctx lvl
/-- POOL_RETURN (R138). -/
def execPoolReturn (w : ToAnchor) (ctx num : Nat) (s : State) : Host.Outcome State Fault Refusal := fabStep s fun f => poolBack f w.bk ctx num

/-- A header's generator starts (R148). A firing that has a place among the emits onto stream routes keeps its record until the
generator ends (R367). -/
def startLoop (f : Fabric) (el : Nat) (p : Pend) (num : Nat) : Fabric :=
  let img := (f.el el).imageOf p.set.ctx
  let q := { p with grant := false, tag := finalTag img p num }
  (f.modEl el fun e =>
    let e := if p.ordered then e.setPend { q with phase := loopPhase, left := 1 } else e.dropPend p.id
    { e with loops := e.loops ++ [⟨q, 0, p.cnt, p.args.map (·.toNat), 0⟩] }).post (.loopGeneratorEmit el)

/-- A grant reaches its firing (R137): a header's generator starts, a form that waited for it begins, any other firing that
awaits nothing more retires. A TAGSTARVE raised for the request is over. -/
def granted (f : Fabric) (el id num : Nat) : Fabric :=
  match (f.el el).pendOf id with
  | none => f
  | some p =>
    let p := { p with accs := p.accs.filter fun a => a.cause ≠ .tagStarve }
    let img := (f.el el).imageOf p.set.ctx
    if 0x78 ≤ p.op ∧ p.op ≤ 0x7A then startLoop f el p num
    else if p.left = 0 ∧ p.accs = [] then retire f el { p with grant := false } num
    else
      let q := { p with grant := false, tag := finalTag img p num, t := if p.t = 6 then 6 else 0 }
      (f.modEl el fun e => e.setPend q).postAll (startEvents f el q)

/-- GRANT_ARRIVE (R137). -/
def execGrantArrive (el id num : Nat) (s : State) : Host.Outcome State Fault Refusal := fabStep s fun f => granted f el id num

/-! ## CSW (R160) -/

/-- The privilege of a context as the anchor records it, or as the directory's image says; none where that cannot be read. -/
def Fabric.ctxPriv (f : Fabric) (bk el ctx : Nat) : Option Nat :=
  match tfind (f.blk bk).anchors ctx with
  | some x => if x.levels = restoredLevels then (f.dirImage el ctx).map Image.priv else some x.priv
  | none => (f.dirImage el ctx).map Image.priv

/-- CSW at the anchor: privilege first, then the drain in order of arrival. Its trap stands in lane 1 of its record; lane 0 is the grant's. -/
def cswAt (f : Fabric) (bk el id : Nat) : Fabric :=
  onPend f el id fun p =>
    let ctl : Word := BitVec.ofNat 32 p.a.toNat
    let mine := Image.priv ((f.el el).imageOf p.set.ctx)
    let check := fun (on : Bool) (ctx : Nat) =>
      if !on then none
      else match f.ctxPriv bk el ctx with
        | none => some (Cause.illegal, w32 ctx)
        | some v => if mine < v then some (Cause.priv, p.slotW) else none
    let bad := match check (bit ctl 16) (fld ctl 7 0) with | some x => some x | none => check (bit ctl 17) (fld ctl 15 8)
    match bad with
    | some (c, w) => parkAccess f el id ⟨1, .trap, c, w, false, none⟩
    | none => (f.modBlk bk fun b => { b with csws := b.csws ++ [⟨el, id, ctl, 0⟩] }).askWave el

/-- CSW_REQUEST (R160). -/
def execCswRequest (bk el id : Nat) (s : State) : Host.Outcome State Fault Refusal := fabStep s fun f => cswAt f bk el id

/-- A context becomes active in every block of a region, and its held tokens replay (R159, R160). -/
def Fabric.activate (f : Fabric) (bks : List Nat) (ctx : Nat) : Fabric :=
  bks.foldl (fun f b =>
    let f := f.setActive b ctx true
    (f.els.filter fun p => !isFatik p.1 && decide (blockOf p.1 = b) && (p.2.slotOf ctx).isSome && !(p.2.heldToks ctx).isEmpty).foldl
      (fun f p => f.askReplay p.1 ctx) f) f

/-- Is a return of a context's credit or number on its way to an anchor? -/
def returning (bk ctx : Nat) : Ev → Bool
  | .levelCreditReturn w c _ => decide (w.bk = bk) && decide (c = ctx)
  | .poolReturn w c _ => decide (w.bk = bk) && decide (c = ctx)
  | _ => false

/-- Does something keep FROM from being drained (R160)? Beyond the taps of R249: every parked set, every firing that has not retired,
whether its request is held at the anchor or not, and what it still has on the way to the anchor. -/
def Fabric.undrained (f : Fabric) (bk ctx since : Nat) (own : Nat × Nat) (T : Nat → Bool) : Bool :=
  f.anyActive (fun c => decide (c = ctx)) T since (some own) || f.agenda.any (returning bk ctx)
    || f.els.any fun x => T x.1 && (x.2.parked.any (fun y => decide (y.set.ctx = ctx))
      || x.2.pend.any fun p => decide (p.set.ctx = ctx) && decide ((x.1, p.id) ≠ own))

/-- The head CSW of an anchor after one wave over FROM (R160). -/
def cswWave (f : Fabric) (bk : Nat) (since : Nat) : Fabric :=
  match (f.blk bk).csws with
  | [] => f
  | j :: r =>
    let bks := f.regionBlks bk
    let T := fun el => !isFatik el && bks.contains (blockOf el)
    let from' := fld j.ctl 7 0
    let clean := if bit j.ctl 16 then (if f.undrained bk from' since (j.el, j.id) T then 0 else j.clean + 1) else 2
    if clean < 2 then f.modBlk bk fun b => { b with csws := { j with clean := clean } :: r }
    else
      let f := f.modBlk bk fun b => { b with csws := r }
      let f := if bit j.ctl 16 then bks.foldl (fun f b => f.setActive b from' false) f else f
      let f := if bit j.ctl 17 then f.activate bks (fld j.ctl 15 8) else f
      match (f.el j.el).pendOf j.id with
      | some p => settle f j.el { p with left := 0 }
      | none => f

/-! ## Quiescence of a region (R139, R142, R168) -/

/-- TAGSTARVE's information word. -/
def starveInfo (p : Pend) (pool : Bool) : Word := w32 ((depth p.set.tag + 1) % 16 + 16 * pool.toNat)

/-- TAGSTARVE for each request held and not yet reported. -/
def raiseHeld (f : Fabric) (bk : Nat) : Fabric :=
  ((f.blk bk).held.filter fun h => !h.raised).foldl (fun f h =>
    let f := f.modBlk bk fun b => { b with held := b.held.map fun x => if x = h then { h with raised := true } else x }
    match (f.el h.el).pendOf h.id with
    | none => f
    | some p => parkAccess f h.el h.id ⟨0, .trap, .tagStarve, starveInfo p h.pool, false, none⟩) f

/-- The number of scales a set lacks, as FORMAT's information word (R168). At depth 0 the blocks of a run share one key, under which
each takes a token of its own. -/
def scaleInfo (f : Fabric) (el : Nat) (s : MSet) : Word :=
  let img := (f.el el).imageOf s.ctx
  let w := img.instr s.slot
  let c := mkCtx f el s (fieldOp w).toNat (fieldA w).toNat (fieldB w).toNat (fieldD w).toNat (fieldE w).toNat (fieldT w).toNat
  let has := fun v => (f.el el).scales.find? fun t => decide (t.slot = s.slot) && decide (t.tag = img.setF0 s.tag v)
  match has c.base with
  | some t =>
    let n := scaleLen t.val
    if depth s.tag = 0 then w32 (256 + (c.len / n - (f.el el).scales.countP fun t => decide (t.slot = s.slot) && decide (t.tag = s.tag)))
    else w32 (256 + ((List.range (c.len / n)).countP fun j => (has (c.base + n * j)).isNone))
  | none =>
    let k := (c.len + 15) / 16
    w32 (768 + (k - (List.range k).countP fun j => (has (c.base + 16 * j)).isSome))
where
  /-- The block length of a scale value (R81). -/
  scaleLen (v : BitVec 16) : Nat := if bit v 8 then 32 else 16

/-- Sets parked under SCALE raise FORMAT (R168). -/
def raiseScales (f : Fabric) (el : Nat) : Fabric :=
  ((f.el el).parked.filter fun x => x.reason == .scale).foldl (fun f x =>
    takeTrap (f.modEl el fun e => { e with parked := e.parked.erase x }) el x.set .format (scaleInfo f el x.set)) f

/-- Is a context committing (R140)? -/
def committing (img : Image) : Bool :=
  decide (img.stmask ≠ 0) || (List.range 32).any fun s =>
    img.uses s && (let w := img.instr s
      decide ((fieldOp w).toNat = 0x66) || (decide (0x16 ≤ (fieldD w).toNat) && decide ((fieldD w).toNat ≤ 0x19))
        || (decide (0x16 ≤ (fieldE w).toNat) && decide ((fieldE w).toNat ≤ 0x19)))

/-- The waiting tokens of a context: slot and tag of each (R142, R168, R227). -/
def waitingOf (f : Fabric) (el ctx : Nat) : List (Nat × DWord) :=
  let e := f.el el
  let w := e.frameEntry ctx
  let inStore := (e.store.filter fun x => x.tok.ctx = ctx).map fun x => (x.tok.slot, x.tok.tag)
  let inFrame := ((e.frameAll w false).filter fun x => decide (e.frameCtl w x.1 / 2 % 2 = 0)).map fun x => (x.2.tok.slot, x.2.tok.tag)
  inStore ++ inFrame ++ ((e.scales.filter fun t => decide (fld t.tag 63 56 = ctx)).map fun t => (t.slot, t.tag))

/-- Accesses of a context that an element's block holds unreleased (R227). -/
def bufferedOf (f : Fabric) (el ctx : Nat) : List (Nat × DWord) :=
  ((f.blk (bufOf el)).buffer.filter fun x => decide (x.el = el) && decide (x.ctx = ctx)).filterMap fun x =>
    ((f.el el).pendOf x.id).map fun p => (p.set.slot, x.tag)

/-- Tags ascending, each once. -/
def insertTag (x : DWord) : List DWord → List DWord
  | [] => [x]
  | y :: r => if y = x then y :: r else if y.toNat < x.toNat then y :: insertTag x r else x :: y :: r

/-- The contexts for which an element may have reports: resident, with an open commit entry, with scales, or with tokens in a frame
(R142). -/
def Element.knownCtxs (e : Element) : List Nat :=
  (List.range 256).filter fun c => (e.slotOf c).isSome || e.commits.any (fun x => decide (x.ctx = c))
    || e.scales.any (fun t => decide (fld t.tag 63 56 = c)) || !(e.frameAll (e.frameEntry c) false).isEmpty

/-- The stalled-activation reports of a context in an element (R142), resident or not. -/
def reportStalled (f : Fabric) (el ctx : Nat) : Fabric :=
  let e := f.el el
  let img := f.seenImage el ctx
  let buf := bufferedOf f el ctx
  let ws := (if committing img then waitingOf f el ctx else []) ++ buf
  let opens := if committing img then e.commits.filter fun x => decide (x.ctx = ctx) && x.held.isNone else []
  let tags := ((opens.map (·.tag)) ++ ws.map (·.2)).foldl (fun r t => insertTag t r) []
  tags.foldl (fun f t =>
    let slots := (ws.filter fun x => x.2 = t).map (·.1)
    let slot := match slots with
      | [] => ((opens.find? fun x => x.tag = t).map (·.slot)).getD 0
      | s :: r => r.foldl min s
    let f := f.reportAs el img ctx (recordLanes t .stalled el slot false (w32 slots.length) 0)
    let go := (f.el el).commits.filter fun x => decide (x.ctx = ctx) && decide (x.tag = t) && x.held.isNone
    if go.isEmpty then f else (f.modEl el fun e => { e with commits := e.commits.filter fun x => !go.contains x }).wakeFor el .commit) f

/-- A region found quiescent. -/
def regionQuiet (f : Fabric) (bk : Nat) : Fabric :=
  let f := raiseHeld f bk
  let els := (f.els.filter fun p => !isFatik p.1 && (f.regionBlks bk).contains (blockOf p.1)).map (·.1)
  els.foldl (fun f el => (f.el el).knownCtxs.foldl (fun f ctx => reportStalled f el ctx) (raiseScales f el)) f

/-- Why region waves go on (R253): a held request, a CSW, a set parked under SCALE, COMMIT or WAVE, an open commit entry, an
access in a store buffer. -/
def waveWanted (f : Fabric) (bk : Nat) : Bool :=
  let bks := f.regionBlks bk
  !(f.blk bk).held.isEmpty || bks.any (fun b => !(f.blk b).buffer.isEmpty)
    || f.els.any fun p => !isFatik p.1 && bks.contains (blockOf p.1)
      && (!p.2.commits.isEmpty || p.2.parked.any fun x => x.reason == .scale || x.reason == .commit || x.reason == .wave)

/-! ## KILL's waves (R405) -/

/-- Is a token or an access of a context anywhere in the package for a partition? -/
def Fabric.ctxAnywhere (f : Fabric) (part ctx since : Nat) (skip : Nat × Nat) : Bool :=
  let T := fun el => decide (f.partOf el = part)
  f.agenda.any (fun e => evActive (fun c => decide (c = ctx)) T e) || f.diesActive (fun c => decide (c = ctx)) T
    || f.els.any fun x => T x.1 && (x.2.pend.any (fun p => decide (p.set.ctx = ctx) && decide ((x.1, p.id) ≠ skip) && decide (p.left ≠ 0) && f.pendCounts x.1 p)
      || f.elSent x.1 (fun c => decide (c = ctx)) since)

/-- A KILL's wave: after two clean ones it completes, its emits dropped where it killed its own context. -/
def killWave (f : Fabric) (el : Nat) (p : Pend) (since : Nat) : Fabric :=
  let part := f.partOf el
  if f.ctxAnywhere part p.a.toNat since (el, p.id) then f.modEl el fun e => e.setPend { p with phase := 1 }
  else if p.phase < 2 then f.modEl el fun e => e.setPend { p with phase := 2 }
  else if p.a.toNat = p.set.ctx then
    (f.modEl el fun e => { e.dropPend p.id with commits := e.commits.filter fun x => decide (x.ctx ≠ p.set.ctx) }).wakeFor el .commit
  else complete f el p [p.raw p.d (w64 (min p.cnt 0xFFFFFFFF)), p.ordOut p.e]

/-- The KILLs whose waves start at a block: the lowest of their partition. -/
def killsAt (f : Fabric) (bk : Nat) : List (Nat × Pend) :=
  if (f.blksOf (f.partOfBlk bk)).head? = some bk then
    f.els.flatMap fun x => if f.partOf x.1 = f.partOfBlk bk then (x.2.pend.filter fun p => decide (p.op = 0xF3)).map fun p => (x.1, p) else []
  else []

/-- A wave of a region. -/
def regionWaveStep (f : Fabric) (bk : Nat) : Fabric :=
  let since := (f.blk bk).sampledAt
  let bks := f.regionBlks bk
  let T := fun el => !isFatik el && bks.contains (blockOf el)
  let want := waveWanted f bk
  let dirty := f.anyActive (fun _ => true) T since none
  let n := if dirty then 0 else (f.blk bk).waves + 1
  let f := f.modBlk bk fun b => { b with sampledAt := f.clock, waves := if n = 2 then 0 else n }
  let f := (killsAt f bk).foldl (fun f x => match (f.el x.1).pendOf x.2.id with | some p => killWave f x.1 p since | none => f) f
  let f := cswWave f bk since
  let f := if want && n = 2 then regionQuiet f bk else f
  if !(f.blk bk).csws.isEmpty || !(killsAt f bk).isEmpty || (want && decide (n ≠ 2)) then f.post (.regionWave bk) else f

/-- REGION_WAVE (R253). -/
def execRegionWave (bk : Nat) (s : State) : Host.Outcome State Fault Refusal := fabStep s fun f => regionWaveStep f bk

end Sys2Proof.Machine
end

