-- ==== Sys2Proof/Machine/TransEv.lean ====
section
/-! DEFINITION. Requests at their base die (R206, R354-R370): answers and faults, the TLB and the walker, the checks of R362,
write-protected pages, and the page-table aperture: TRANSLATION_REQUEST, PAGE_WALK_LEVEL, APERTURE_STORE, TABLE_APPLY, APPLY_ACK,
APERTURE_LOAD and PEER_ACCESS. -/

namespace Sys2Proof.Machine

/-! ## Answers of a base die, a memory side or a port -/

/-- The key of a master in a peer package (R368): element eid of package pkg. Its requests carry the partition as `id` and the
order id as `lane`. -/
def peerKey (pkg eid : Nat) : Nat := 131072 + 65536 * pkg + eid
/-- The key of the host functions (R444). Their requests carry the partition as `id`, and `lane` 1 for a posted write. -/
def hostKey : Nat := 131072 + 65536 * 1024

/-- An answer goes to its issuer: an element of this package, one of a peer, or the host, whose posted write is then
complete, or which then has the data of its read. One that came as a message is answered by one (R425). A controller's write waits for no
answer. -/
def Fabric.answer (f : Fabric) (a : Ans) : Fabric :=
  match f.rawOf a.el a.id a.lane with
  | some r => f.rawDone r (rawKey a.el a.id a.lane).2 a
  | none =>
  if a.el < 131072 then f.post (.memoryAnswer a)
  else if a.el < hostKey then
    f.answerPeer ((a.el - 131072) / 65536) a.id (rspFlits a.fail.toNat a.id (a.el % 65536) a.lane a.fail a.cause (if a.fail then [] else [a.val]))
  else if a.el = hostKey then f.modLaunch a.id fun l => { l with posted := l.posted - a.lane, readout := if a.lane = 0 then a.val else l.readout }
  else f

/-- A request completes with a value (R214). -/
def Fabric.answerReq (f : Fabric) (q : Req) (v : DWord) : Fabric := f.answer ⟨q.el, q.id, q.lane, v, true, false, 0⟩

/-- An outstanding request is complete, or parked: requests of its issuer that wait for it at a channel port of the same base die are
told (R433). A request of more than 8 bytes is complete with its last word. -/
def Fabric.doneOrder (f : Fabric) (el oid : Nat) : Fabric :=
  f.dies.foldl (fun f x =>
    if x.2.outst.contains (el, oid) then
      let f := f.modDie x.1 fun d => { d with outst := d.outst.erase (el, oid) }
      if (f.die x.1).outst.contains (el, oid) then f
      else if x.2.queued.any fun z => decide (z.2.2.el = el) && z.2.2.pred == some oid then f.post (.predecessorMark x.1 el oid)
      else f
    else f) f

/-- A fault answer (R366). The access parks at base die `sd` where its park store of 512 has room; otherwise it goes back with
the answer. A peer's request goes back with its cause and information word (log 14); a host access just ends. -/
def Fabric.faultAt (f : Fabric) (sd : Option Nat) (q : Req) (c : Cause) (info : Word) : Fabric :=
  match f.rawOf q.el q.id q.lane with
  | some r => (f.doneOrder q.el q.oid).rawStop r 2 [w64 c.code, info.setWidth 64]
  | none =>
  if hostKey ≤ q.el then f.answerReq q 0xFFFFFFFFFFFFFFFF
  else if 131072 ≤ q.el then
    f.answerPeer ((q.el - 131072) / 65536) q.part (rspFlits 2 q.part (q.el % 65536) q.lane false 0 [w64 c.code, info.setWidth 64])
  else
    let f := match sd with
      | some s => if (f.die s).park.length < 512 then f.modDie s fun d => { d with park := d.park ++ [(q, c, info)] } else f
      | none => f
    (f.doneOrder q.el q.oid).post (.faultAnswer q c info)

/-- Does a request count as a store whose refusal sets FAIL (R215, R216)? -/
def ReqOp.failing : ReqOp → Bool
  | .store | .feset | .feclr => true
  | _ => false

/-- A request is turned away (R215, R216, R220, R398): a store, FESET or FECLR completes with FAIL and a cause, PREF ends silently,
anything else raises a trap. An engine request that writes counts as a store only where a line has no storage (R422, R430, R436). -/
def Fabric.turnAway (f : Fabric) (q : Req) (code : BitVec 2) (c : Cause) (info : Word) : Fabric :=
  if q.op = .pref then f.answerReq q 0
  else if ReqOp.failing q.op && !(q.eng && decide (code ≠ 3)) then
    (f.doneOrder q.el q.oid).answer ⟨q.el, q.id, q.lane, 0, true, true, code⟩
  else f.faultAt none q c info

/-- An access table refuses a request (R398). -/
def Fabric.refuse (f : Fabric) (q : Req) : Fabric := f.turnAway q 1 .access (w32 q.addr)

/-- A dead link loses a request (R422); no rule gives its DATA an information word, so it carries the slot (R393). -/
def Fabric.loseReq (f : Fabric) (q : Req) : Fabric := f.turnAway q 2 .data (f.slotInfo q)

/-- A request is answered retry (R339, R365): it stays outstanding, since its issuer sends it again. -/
def Fabric.retryTo (f : Fabric) (q : Req) : Fabric :=
  match f.rawOf q.el q.id q.lane with
  | some r => f.rawStop r 3 []
  | none => f.post (.retryAnswer q)

/-- A request is answered retry by a base die. A peer's waits at its port for another turn. -/
def Fabric.retryReq (f : Fabric) (sd : Nat) (q : Req) : Fabric :=
  if 131072 ≤ q.el then f.post (.translationRequest sd q) else f.retryTo q

/-- A place frees at a base die: elements of its partition whose accesses or sets wait under QUEUE are told (R339, R365). -/
def Fabric.freePlaces (f : Fabric) (part : Nat) : Fabric :=
  f.postAll ((f.els.filter fun p => decide (f.partOf p.1 = part)
      && (p.2.pend.any (fun x => x.accs.any fun a => a.reason == .queue)
        || p.2.parked.any fun x => x.reason == .queue && decide (x.on ≠ 1))).map fun p => .signalRelease p.1)

/-! ## Checks (R362) -/

/-- The master of a request. -/
def reqMaster (q : Req) : Master := ⟨q.part, q.priv, q.ukind, if q.eng then 3 else ReqOp.needs q.op⟩

/-- May a request reach its frame: the access table of the stack or of the host bridge (R398)? -/
def Fabric.frameMay (f : Fabric) (q : Req) (fr : Frame) : Bool := f.mayReach (reqMaster q) fr

/-- The checks of R362 in order, on a leaf and its page bits, or on none. -/
def Fabric.verdict (f : Fabric) (q : Req) (tr : Option (DWord × Nat)) : Verdict :=
  f.judge (reqMaster q) (ReqOp.writes q.op) (q.addr % 2 ^ 46) tr

/-- The base die that serves a frame: the stack's own; host memory is reached from the home base die. -/
def frameDie (sd : Nat) : Frame → Nat
  | .stack s _ => s
  | .host _ => sd

/-- A write to a write-protected page parks in the park store, and its set under MIGRATE at the element that issued it (R369). -/
def Fabric.parkWrite (f : Fabric) (sd : Nat) (q : Req) : Fabric :=
  if (f.die sd).park.length < 512 then
    let f := (f.doneOrder q.el q.oid).modDie sd fun d => { d with park := d.park ++ [(q, .stalled, 0)] }
    if q.el < 131072 then parkAccess f q.el q.id ⟨q.lane, .migrate, .stalled, 0, true, none⟩ else f
  else f.retryReq sd q

/-- The set of a replayed write is parked under MIGRATE no longer. -/
def Fabric.unmigrate (f : Fabric) (q : Req) : Fabric :=
  match (f.el q.el).pendOf q.id with
  | none => f
  | some p => f.modEl q.el fun e => e.setPend { p with accs := p.accs.filter fun a => !(a.reason == .migrate && decide (a.lane = q.lane)) }

/-- An outstanding request goes on to the base die of its frame: requests that wait for it at its home base die wait no longer, since a
PRED never reaches across base dies (R433). -/
def Fabric.moveOrder (f : Fabric) (sd s : Nat) (q : Req) : Fabric :=
  if s ≠ sd ∧ (f.die sd).outst.contains (q.el, q.oid) then
    (f.doneOrder q.el q.oid).modDie s fun d => { d with outst := d.outst ++ [(q.el, q.oid)] }
  else f

/-- A translated access goes on, or ends as R362 says. PREF ends at any step (R220). -/
def Fabric.decideReq (f : Fabric) (sd : Nat) (q : Req) (tr : Option (DWord × Nat)) : Fabric :=
  if q.op = .pref then f.answerReq q 0
  else
    match f.verdict q tr with
    | .pass fr fe => (f.moveOrder sd (frameDie sd fr) q).post (.channelRequest (frameDie sd fr) fr { q with fe := fe })
    | .fault c info => f.faultAt (some sd) q c info
    | .migrate => f.parkWrite sd q
    | .refused => f.refuse q

/-! ## TLB and walker (R364, R365) -/

/-- The set of a page number. -/
def tlbSet (n : Nat) : Nat := (n ^^^ (n / 2048)) % 2048

/-- The entry that holds the page of an offset. -/
def BaseDie.tlbHit (d : BaseDie) (o : Nat) : Option TlbEntry := d.tlb.find? fun e => decide (e.page = o / 2 ^ e.bits)

/-- An entry used now: entries stand in the order of their last use. -/
def BaseDie.touch (d : BaseDie) (e : TlbEntry) : BaseDie := { d with tlb := d.tlb.erase e ++ [e] }

/-- An entry installed, in place of the least recently used of a full set. -/
def BaseDie.install (d : BaseDie) (e : TlbEntry) : BaseDie :=
  let same := d.tlb.filter fun x => decide (tlbSet x.page = tlbSet e.page)
  let rest := match same.head? with
    | some x => if same.length < 8 then d.tlb else d.tlb.erase x
    | none => d.tlb
  { d with tlb := rest ++ [e] }

/-- Does a request cross the link of a stack: every issuer but the stack's own Fatik elements? -/
def crosses (sd : Nat) (q : Req) : Bool := !(isFatik q.el && decide (q.el < 131072) && decide (fatikStack q.el = sd))

/-- Is a lane of a request's firing in a walk of another page, or waiting for a walker? The lanes of a firing come to a channel port in
lane order (R213). -/
def BaseDie.laneAhead (d : BaseDie) (q : Req) : Bool :=
  d.walkQ.any (fun r => decide (r.firing = q.firing))
    || d.walks.any fun w => decide (w.piece ≠ q.addr % 2 ^ 46 / 65536) && w.reqs.any fun r => decide (r.firing = q.firing)

/-- A request at the translation unit (R364, R365): it comes behind the lanes of its firing that are in translation (R213); a hit is
checked; a miss joins a walk, takes a walker, or waits behind the misses that wait already (`old` is one of these, taken in its turn);
PTROOT with V clear maps nothing (R354). -/
def takeReq (f : Fabric) (sd : Nat) (q : Req) (old : Bool) : Fabric :=
  let d := f.die sd
  let o := q.addr % 2 ^ 46
  if f.linkDead sd && crosses sd q then f.loseReq q
  else if !old && d.laneAhead q then f.holdBack (.translationRequest sd q)
  else
    match d.tlbHit o with
    | some e => (f.setDie sd (d.touch e)).decideReq sd q (some (e.leaf, e.bits))
    | none =>
      match f.rootTable sd with
      | none => f.decideReq sd q none
      | some t =>
        if d.walks.any fun w => decide (w.piece = o / 65536) then
          f.setDie sd { d with walks := d.walks.map fun w => if w.piece = o / 65536 then { w with reqs := w.reqs ++ [q] } else w }
        else if d.walks.length < 64 ∧ (old || d.walkQ.isEmpty) = true then
          (f.setDie sd { d with walks := d.walks ++ [⟨o / 65536, 1, t, [], [q]⟩] }).post (.pageWalkLevel sd)
        else if d.walkQ.length < 256 then f.setDie sd { d with walkQ := d.walkQ ++ [q] }
        else f.retryReq sd q

/-- TRANSLATION_REQUEST (R365). -/
def translateReq (f : Fabric) (sd : Nat) (q : Req) : Fabric := takeReq f sd q false

/-- While a walker is free the oldest requests of the queue are taken, and their places free (R364). -/
def nextWalks (sd : Nat) : Nat → Fabric → Fabric
  | 0, f => f
  | n + 1, f =>
    if 64 ≤ (f.die sd).walks.length then f
    else match (f.die sd).walkQ with
    | [] => f
    | q :: r => nextWalks sd n ((takeReq (f.modDie sd fun d => { d with walkQ := r }) sd q true).freePlaces (f.partOfStack sd))

/-- A walk ended. -/
def nextWalk (f : Fabric) (sd : Nat) : Fabric := nextWalks sd (f.die sd).walkQ.length f

/-- PAGE_WALK_LEVEL (R364, R365): the oldest walk reads one level. A leaf is installed and its requests follow in order; a walk
that finds none is not mapped. -/
def walkLevel (f : Fabric) (sd : Nat) : Fabric :=
  let part := f.partOfStack sd
  match (f.die sd).walks with
  | [] => f
  | w :: rest =>
    let o := w.piece * 65536
    let a := w.table + 8 * levelIndex w.level o
    let g := f.modDie sd fun d => { d with walks := rest }
    match (if (f.rootTable sd).isNone then WalkRes.none else f.walkStep sd part o w.level w.table) with
    | .next t =>
      (f.modDie sd fun d => { d with walks := rest ++ [{ w with level := w.level + 1, table := t, used := w.used ++ [a] }] }).post
        (.pageWalkLevel sd)
    | .leaf e =>
      let bits := levelBits w.level
      let g := g.modDie sd fun d => d.install ⟨bits, o / 2 ^ bits, e, w.used ++ [a]⟩
      nextWalk (w.reqs.foldl (fun f q => f.decideReq sd q (some (e, bits))) g) sd
    | .none => nextWalk (w.reqs.foldl (fun f q => f.decideReq sd q none) g) sd

/-- The translation of an offset as a copy engine uses it: a hit, or a walk made and installed at once. -/
def Fabric.lookupNow (f : Fabric) (sd part o : Nat) : Fabric × Option (DWord × Nat) :=
  match (f.die sd).tlbHit o with
  | some e => (f.modDie sd fun d => d.touch e, some (e.leaf, e.bits))
  | none =>
    match f.translate sd part o with
    | some (leaf, bits, used) => (f.modDie sd fun d => d.install ⟨bits, o / 2 ^ bits, leaf, used⟩, some (leaf, bits))
    | none => (f, none)

/-! ## The aperture (R359, R360) -/

/-- APERTURE_STORE (R360): the sequencer numbers the store and sends it to every base die of the partition. -/
def apStore (f : Fabric) (q : Req) : Fabric :=
  match f.sequencer q.part with
  | none => f.faultAt none q .page (pageInfo 0 (q.addr % 2 ^ 46))
  | some sd =>
    if f.linkDead sd && crosses sd q then f.loseReq q
    else if !f.dieAllows sd q.part q.priv q.ukind 1 then f.refuse q
    else
      let st : ApStore := ⟨(f.die sd).apNext, q.addr % 2 ^ 40, q.data, q⟩
      let ss := f.stacksOf q.part
      (f.modDie sd fun d => { d with apNext := d.apNext + 1, apAcks := d.apAcks ++ [(st, ss.length)] }).postAll
        (ss.map fun s => .tableApply s st)

/-- The offset of an aperture word in a stack. -/
def Fabric.apAddr (f : Fabric) (sd off : Nat) : Nat := fld (f.bd sd 0) 36 21 * 2 ^ 21 + off

/-- The indexes of a table's entries that memory lists as other than zero: n entries from an offset. -/
def listedIdx (m : Memory) (table n : Nat) : List Nat :=
  ((m.filter fun c => decide (table ≤ c.1) && decide (c.1 < table + 8 * n)).map fun c => (c.1 - table) / 8).dedup

/-- The next tables that a table's well-formed entries name, with the indexes that lead there. -/
def Fabric.nextTables (f : Fabric) (sd part level table n : Nat) : List (Nat × Nat) :=
  (listedIdx (f.die sd).mem table n).filterMap fun i =>
    let e := (f.die sd).mem.word (table + 8 * i)
    if pteV e && !f.pteBad sd part level e && !pteLeaf e then some (i, fld e 36 8 * 256) else none

/-- The pages, as page bits and first offset, that a word maps as a leaf: one for each level at which a walk from the root reaches it and
at which the leaf is well formed (R358, R360). -/
def Fabric.pagesOf (f : Fabric) (sd part a : Nat) (leaf : DWord) : List (Nat × Nat) :=
  let hit := fun t n : Nat => decide (t ≤ a) && decide (a < t + 8 * n)
  match f.rootTable sd with
  | none => []
  | some root =>
    let l2 := f.nextTables sd part 1 root 65536
    let l3 := l2.flatMap fun x => (f.nextTables sd part 2 x.2 512).map fun y => (x.1 * 2 ^ 30 + y.1 * 2 ^ 21, y.2)
    let ok := fun level : Nat => !f.pteBad sd part level leaf
    (if hit root 65536 && ok 1 then [(30, (a - root) / 8 * 2 ^ 30)] else [])
      ++ (l2.filter fun x => hit x.2 512 && ok 2).map (fun x => (21, x.1 * 2 ^ 30 + (a - x.2) / 8 * 2 ^ 21))
      ++ (l3.filter fun x => hit x.2 32 && ok 3).map (fun x => (16, x.1 + (a - x.2) / 8 * 2 ^ 16))

/-- Every word of the pieces that a stack homes of a page becomes empty (R360). -/
def Fabric.emptyPage (f : Fabric) (sd part : Nat) (leaf : DWord) (pg : Nat × Nat) : Fabric :=
  f.modDie sd fun d => { d with full := d.full.filter fun w =>
    !(decide (pteAddr leaf ≤ 8 * w) && decide (8 * w < pteAddr leaf + 2 ^ pg.1)
      && decide (f.home part (pg.2 + (8 * w - pteAddr leaf)) = some sd)) }

/-- Does a leaf written over an old word empty its pages (R360)? -/
def makesEmpty (old new : DWord) : Bool :=
  pteV new && pteLeaf new && pteFE new && (!(pteV old && pteLeaf old) || !pteFE old || decide (pteAddr old ≠ pteAddr new))

/-- A request's key: who waits for it. -/
def reqKey (q : Req) : Nat × Nat × Nat := (q.el, q.id, q.lane)
/-- The key of an access that an event carries between its translation and its completion. -/
def evKey : Ev → Option (Nat × Nat × Nat)
  | .channelRequest _ _ q => some (reqKey q)
  | .channelReadReturn _ a => some (a.el, a.id, a.lane)
  | .memoryAnswer a => some (a.el, a.id, a.lane)
  | _ => none

/-- The accesses translated and not yet complete. -/
def Fabric.inFlight (f : Fabric) : List (Nat × Nat × Nat) :=
  f.agenda.filterMap evKey ++ f.dies.flatMap fun x => x.2.queued.map fun y => reqKey y.2.2

/-- The first parts of an apply (R360): the word, the emptied pages, the TLB entries and the walks that used it. The leaf of a
PGMIG, whose request has `fe` set, empties nothing: the presence bits moved with the data (R369, R408). -/
def Fabric.applyWord (f : Fabric) (sd : Nat) (st : ApStore) : Fabric :=
  let part := f.partOfStack sd
  let a := f.apAddr sd st.off
  let old := (f.die sd).mem.word a
  let pages := if makesEmpty old st.val && !st.q.fe then f.pagesOf sd part a st.val else []
  let f := pages.foldl (fun f pg => f.emptyPage sd part st.val pg) f
  let root := (f.rootTable sd).getD 0
  (f.memWrite sd a 8 st.val.toNat).modDie sd fun d => { d with
    tlb := d.tlb.filter fun e => !e.used.contains a
    walks := d.walks.map fun w => if w.used.contains a then { w with level := 1, table := root, used := [] } else w }

/-- An access parked at a base die is tried again from step 1 of R362; a copy piece goes back to its engine. -/
def Fabric.again (f : Fabric) (sd : Nat) (q : Req) : Fabric :=
  if q.bytes = 64 then f.post (.copyPieceComplete q.el q.id q.lane) else translateReq f sd q

/-- The writes parked on pages whose entries no longer have WP set are replayed in order of arrival (R369). -/
def Fabric.replayWrites (f : Fabric) (sd : Nat) : Fabric :=
  let held := fun q : Req => match f.translate sd q.part (q.addr % 2 ^ 46) with
    | some (leaf, _, _) => pteWP leaf
    | none => false
  let go := (f.die sd).park.filter fun x => decide (x.2.1 = .stalled) && !held x.1
  if go.isEmpty then f
  else
    let f := f.modDie sd fun d => { d with park := d.park.filter fun x => !(decide (x.2.1 = .stalled) && !held x.1) }
    (go.foldl (fun f x => (f.unmigrate x.1).again sd x.1) f).freePlaces (f.partOfStack sd)

/-- A store that a dead link keeps from a base die ends as a store lost with its link (R422; DEDUCED, log 17). -/
def loseApply (f : Fabric) (seq : Nat) (st : ApStore) : Fabric :=
  if (f.die seq).apAcks.any fun x => decide (x.1.num = st.num) then
    (f.modDie seq fun d => { d with apAcks := d.apAcks.filter fun x => decide (x.1.num ≠ st.num) }).loseReq st.q
  else f

/-- TABLE_APPLY (R360): the stores that the sequencer sent to a base die are applied in the order of their numbers, which is the order
in which it sent them; the acknowledgment follows once every access translated before is complete. Between base dies they cross the links
of both. -/
def applyStore (f : Fabric) (sd : Nat) (st : ApStore) : Fabric :=
  let seq := (f.sequencer (f.partOfStack sd)).getD sd
  if seq ≠ sd ∧ (f.linkDead sd || f.linkDead seq) = true then loseApply f seq st
  else
    let d := f.die sd
    let keys := d.apWait.getD f.inFlight
    let f := if d.apWait.isNone then f.applyWord sd st else f
    let left := keys.filter fun k => f.inFlight.contains k
    if left.isEmpty then
      let f := f.modDie sd fun d => { d with apDone := d.apDone + 1, apWait := none }
      (f.replayWrites sd).post (.applyAck ((f.sequencer (f.partOfStack sd)).getD sd) st.num)
    else (f.modDie sd fun d => { d with apWait := some left }).holdBack (.tableApply sd st)

/-- APPLY_ACK (R360): the last acknowledgment completes the store. -/
def applyAcked (f : Fabric) (sd num : Nat) : Fabric :=
  match (f.die sd).apAcks.find? fun x => decide (x.1.num = num) with
  | none => f
  | some (st, n) =>
    if n ≤ 1 then (f.modDie sd fun d => { d with apAcks := d.apAcks.filter fun x => decide (x.1.num ≠ num) }).answerReq st.q 0
    else f.modDie sd fun d => { d with apAcks := d.apAcks.map fun x => if x.1.num = num then (x.1, x.2 - 1) else x }

/-- Is a store on its way to be applied at a base die? -/
def applies (sd : Nat) : Ev → Bool
  | .tableApply s _ => decide (s = sd)
  | _ => false

/-- APERTURE_LOAD (R359): the sequencer's replica, after every store that reached it before. -/
def apLoad (f : Fabric) (q : Req) : Fabric :=
  match f.sequencer q.part with
  | none => f.faultAt none q .page (pageInfo 0 (q.addr % 2 ^ 46))
  | some sd =>
    let d := f.die sd
    if f.linkDead sd && crosses sd q then f.loseReq q
    else if !f.dieAllows sd q.part q.priv q.ukind 0 then f.refuse q
    else if f.agenda.any (applies sd) then f.post (.apertureLoad q)
    else f.answerReq q (d.mem.word (f.apAddr sd (q.addr % 2 ^ 40)))

/-! ## Peers (R368) -/

/-- PEER_ACCESS (R368): the port's access table, then the home base die of the partition of the same number. -/
def peerAccess (f : Fabric) (port : Nat) (q : Req) : Fabric :=
  let o := q.addr % 2 ^ 46
  let q := { q with ukind := 3 }
  if !f.portAllows port q.part q.priv 3 (ReqOp.needs q.op) then f.refuse q
  else if o / 2 ^ 40 = 0x3F then
    if q.addr % q.bytes ≠ 0 then f.faultAt none q .align (w32 q.addr) else f.post (.stripeAccess { q with addr := o })
  else if o / 2 ^ 40 = 0x3E ∨ o / 2 ^ 40 = 0x3D then f.faultAt none q .access (w32 q.addr)
  else
    match f.home q.part o with
    | none => f.faultAt none q .page (pageInfo 0 o)
    | some sd => f.post (.translationRequest sd { q with addr := o })

/-- TRANSLATION_REQUEST (R365). -/
def execTranslationRequest (sd : Nat) (q : Req) (s : State) : Host.Outcome State Fault Refusal := fabStep s fun f => translateReq f sd q
/-- PAGE_WALK_LEVEL (R365). -/
def execPageWalkLevel (sd : Nat) (s : State) : Host.Outcome State Fault Refusal := fabStep s fun f => walkLevel f sd
/-- APERTURE_STORE (R360). -/
def execApertureStore (q : Req) (s : State) : Host.Outcome State Fault Refusal := fabStep s fun f => apStore f q
/-- TABLE_APPLY (R360). -/
def execTableApply (sd : Nat) (st : ApStore) (s : State) : Host.Outcome State Fault Refusal := fabStep s fun f => applyStore f sd st
/-- APPLY_ACK (R360). -/
def execApplyAck (sd num : Nat) (s : State) : Host.Outcome State Fault Refusal := fabStep s fun f => applyAcked f sd num
/-- APERTURE_LOAD (R359). -/
def execApertureLoad (q : Req) (s : State) : Host.Outcome State Fault Refusal := fabStep s fun f => apLoad f q
/-- PEER_ACCESS (R368). -/
def execPeerAccess (port : Nat) (q : Req) (s : State) : Host.Outcome State Fault Refusal := fabStep s fun f => peerAccess f port q

end Sys2Proof.Machine
end

