-- ==== Sys2Proof/Machine/ChannelEv.lean ====
section
/-! DEFINITION. Channel ports, stack maintenance and Fatik elements (R197, R198, R427-R440): CHANNEL_REQUEST, PREDECESSOR_MARK,
CHANNEL_READ_RETURN, REFRESH_DUE, RATE_STEP_DOWN, RATE_STEP_UP, RATE_SWITCH_END, PATROL_STEP, CHANNEL_RETIREMENT, REBUILD_STEP,
GUARD_ZERO_DONE, ENGINE_COMMAND and FATIK_IMAGE_LOAD. A line's bytes are kept by its offset, wherever its place is (`placeOf`). -/

namespace Sys2Proof.Machine

/-! ## Presence-guarded words of stacked memory (R197, R198) -/

/-- A number put into a rising list once. -/
def insertNat (n : Nat) : List Nat → List Nat
  | [] => [n]
  | x :: r => if x < n then x :: insertNat n r else if x = n then x :: r else n :: x :: r

/-- The bytes that a load of n bytes at an address takes from an 8-byte word. -/
def cutWord (word : DWord) (addr n : Nat) : DWord := w64 (word.toNat / 2 ^ (8 * (addr % 8)) % 2 ^ (8 * n))

/-- The deferred readers of a virtual word are answered in order of arrival and their entries freed (R197). -/
def Fabric.feAnswers (f : Fabric) (sd vw : Nat) (word : DWord) : Fabric :=
  let rs := (f.die sd).deferred.filter fun x => decide (x.1 = vw)
  if rs.isEmpty then f
  else
    let f := f.modDie sd fun d => { d with deferred := d.deferred.filter fun x => decide (x.1 ≠ vw) }
    (rs.foldl (fun f x => f.answerReq x.2 (cutWord word x.2.addr x.2.bytes)) f).releaseDefer

/-- A firing all of whose awaited loads are deferred readers gives its answer place back (R197, R340). -/
def Fabric.markDeferred (f : Fabric) (q : Req) : Fabric :=
  match (f.el q.el).pendOf q.id with
  | none => f
  | some p =>
    let n := (f.dies.map fun x => x.2.deferred.countP fun y => decide (y.2.el = q.el) && decide (y.2.id = q.id)).sum
    if p.phase = 0 ∧ p.accs = [] ∧ n = p.left then wakeDone (f.modEl q.el fun e => e.setPend { p with phase := 2000 }) q.el else f

/-- The firing that issued a request, in this package. -/
def Fabric.issuerOf (f : Fabric) (q : Req) : Option Pend := if q.el < 131072 then (f.el q.el).pendOf q.id else none

/-- Must a store to a guarded word wait? It is a release: the context's earlier stores and atomics are to be complete first (R242). -/
def Fabric.releaseHeld (f : Fabric) (q : Req) : Bool :=
  (f.issuerOf q).any fun p => (f.el q.el).storesPending p.set.ctx p.set.stamp

/-- The words that stores give to guarded words of a stack: the bytes of each in their place, the others zero. -/
def guardWords : List (Nat × Req) → Table DWord
  | [] => []
  | (off, q) :: r =>
    let t := guardWords r
    tset t (off / 8) (tget 0 t (off / 8) ||| (Req.whole q).data)

/-- The element whose block gives LO for a stripe access (R204): its issuer; for a peer's, one of the partition's first block. -/
def Fabric.stripeIssuer (f : Fabric) (q : Req) : Nat := if 131072 ≤ q.el then 4096 * ((f.diesOf q.part).head?.getD 0) else q.el

/-- Does an address lie below an element's own stripe reserve? A stripe access acts there as a plain access (R204). -/
def Fabric.belowReserve (f : Fabric) (m a : Nat) : Bool := decide (a < f.stripeLo m)

/-- Where a presence-guarded word lies: at a stack's offset, or at an address of a member element of the stripe space. -/
inductive WordAt where
  | die (sd off : Nat)
  | member (m a : Nat)
  deriving DecidableEq, Repr

/-- A lane of the same firing as q that stores to a guarded word and has come to its place, past the access table there. -/
def Fabric.guardedAt (f : Fabric) (q : Req) : Ev → Option (WordAt × Req)
  | .channelRequest _ (.stack s off) r =>
    if r.fe ∧ r.op = .store ∧ r.firing = q.firing ∧ (f.channelOf s (f.lineAt s off)).isSome then some (.die s off, r) else none
  | .stripeAccess r =>
    if r.op = .store ∧ r.firing = q.firing then
      match f.stripeAt (f.stripeIssuer r) (r.addr % 2 ^ 40) with
      | some (m, a) =>
        if f.belowReserve m a = false ∧ (f.el m).guarded a = true ∧ f.written m = false ∧ (m = r.el ∨ f.blkAllows (blockOf m) r.part r.priv r.ukind 1) then
          some (.member m a, r)
        else none
      | none => none
    else none
  | _ => none

/-- Is a lane of a firing's store still on its way: to be translated, at a channel port, or to be sent again after a retry? -/
def Fabric.storeToCome (f : Fabric) (q : Req) : Bool :=
  let mine := fun r : Req => decide (r.op = .store) && decide (r.firing = q.firing)
  f.agenda.any (fun e => match e with | .translationRequest _ r => mine r | .peerAccess _ r => mine r | .retryAnswer r => mine r | _ => false)
    || (f.dies.any fun x => x.2.walkQ.any mine || x.2.walks.any (fun w => w.reqs.any mine) || x.2.queued.any fun y => mine y.2.2)
    || (f.issuerOf q).any fun p => p.accs.any fun a => a.reason == .queue && a.q.any mine

/-- Is a guarded word full? -/
def Fabric.wordFull (f : Fabric) : WordAt × Req → Bool
  | (.die sd off, _) => (f.die sd).full.contains (off / 8)
  | (.member m a, r) => (fullTarget (f.el m) [{ r with addr := a }]).isSome

/-- The information word of a full guarded word (R393): its address as the place that found it knows it. -/
def WordAt.info : WordAt → Req → Word
  | .die _ _, r => w32 r.addr
  | .member _ a, _ => w32 a

/-- The lowest word of some that are full, by its virtual address. -/
def lowestFull : List (WordAt × Req) → Option (WordAt × Req)
  | [] => none
  | x :: r => match lowestFull r with
    | none => some x
    | some y => if y.2.addr < x.2.addr then some y else some x

/-- A lane that a full word of its firing holds back: it waits with the trap, its access record under reason WAVE; a peer's goes back as
a retry with FAIL set (log 14), to wait so at its element. -/
def Fabric.holdLane (f : Fabric) (r : Req) : Fabric :=
  match f.rawOf r.el r.id r.lane with
  | some x => (f.doneOrder r.el r.oid).rawStop x 3 [] true
  | none =>
  if r.el < 131072 then parkAccess (f.doneOrder r.el r.oid) r.el r.id ⟨r.lane, .wave, .stalled, 0, true, some r⟩
  else if r.el < hostKey then f.answerPeer ((r.el - 131072) / 65536) r.part (rspFlits 3 r.part (r.el % 65536) r.lane true 0 [])
  else f

/-- The stores of a firing to guarded words of one stack, none of which is full. -/
def Fabric.storeDie (f : Fabric) (sd : Nat) (xs : List (Nat × Req)) : Fabric :=
  let ws := guardWords xs
  let f := ws.foldl (fun (f : Fabric) x => (f.memWrite sd (8 * x.1) 8 x.2.toNat).modDie sd fun d => { d with full := insertNat x.1 d.full }) f
  let f := xs.foldl (fun f x => f.feAnswers sd (x.2.addr % 2 ^ 46 / 8) (tget 0 ws (x.1 / 8))) f
  xs.foldl (fun f x => (f.doneOrder x.2.el x.2.oid).answerReq x.2 0) f

/-- The stores of a firing to guarded words of one member element, none of which is full. -/
def Fabric.storeMember (f : Fabric) (m : Nat) (xs : List (Nat × Req)) : Fabric :=
  match serveRun (0, 0) 0 false (f.el m) (xs.map fun x => { x.2 with addr := x.1 }) ((xs.map (·.1)).headD 0) with
  | .ok x => xs.foldl (fun f r => f.answerReq r.2 0) (f.afterServe m x.1 x.2.2)
  | .error (.trap c info) => xs.foldl (fun f r => f.faultAt none r.2 c info) f
  | .error _ => f

/-- A store to a guarded word that has come to its place, with its event (R197, R204, R222): once no lane of its firing is on its way,
every guarded word that the firing stores to, in whatever stacks and member elements, is checked; where one is full, WRITEONCE is raised
for the lowest, nothing is written, and the other lanes wait with it. A line whose old bytes cannot be read turns its lane away first
(R432). A store waits, as a release, for its context's earlier ones (R242). -/
def Fabric.guardStore (f : Fabric) (ev : Ev) (w : WordAt) (q : Req) : Fabric :=
  if f.releaseHeld q || f.storeToCome q then f.holdBack ev
  else
    let others := if q.el < hostKey then f.agenda.filterMap (f.guardedAt q) else []
    let f := if others.isEmpty then f else { f with agenda := f.agenda.filter fun e => (f.guardedAt q e).isNone }
    let x := ((w, q) :: others).foldl (fun (x : Fabric × List (WordAt × Req)) y => match y.1 with
      | .die sd off =>
        let c := x.1.readCheck sd off 8
        if c.2 then (c.1, x.2 ++ [y]) else (c.1.turnAway y.2 3 .data (c.1.slotInfo y.2), x.2)
      | .member _ _ => (x.1, x.2 ++ [y])) (f, [])
    let f := x.1
    let qs := x.2
    match lowestFull (qs.filter f.wordFull) with
    | some b => (qs.erase b).foldl (fun f y => f.holdLane y.2) (f.faultAt none b.2 .writeOnce (b.1.info b.2))
    | none =>
      let dies := (qs.filterMap fun y => match y.1 with | .die s _ => some s | .member _ _ => none).dedup
      let els := (qs.filterMap fun y => match y.1 with | .member m _ => some m | .die _ _ => none).dedup
      let f := dies.foldl (fun f s => f.storeDie s (qs.filterMap fun y => match y.1 with
        | .die t off => if t = s then some (off, y.2) else none | .member _ _ => none)) f
      els.foldl (fun f m => f.storeMember m (qs.filterMap fun y => match y.1 with
        | .member n a => if n = m then some (a, y.2) else none | .die _ _ => none)) f

/-- A channel has read a request's word: its data leave. -/
def Fabric.dataOut (f : Fabric) (sd : Nat) (q : Req) (v : DWord) : Fabric :=
  (f.modDie sd fun d => { d with reads := d.reads ++ [q] }).post (.channelReadReturn sd ⟨q.el, q.id, q.lane, v, true, false, 0⟩)

/-- An access to a guarded word at its channel port (R197, R221, R229). A scatter lane raises ACCESS as an engine's write does. -/
def Fabric.feDo (f : Fabric) (sd off : Nat) (q : Req) : Fabric :=
  let d := f.die sd
  let w := off / 8
  let vw := q.addr % 2 ^ 46 / 8
  let full := d.full.contains w
  let done := fun f : Fabric => (f.doneOrder q.el q.oid).answerReq q 0
  match q.op with
  | .pref => f.answerReq q 0
  | .load =>
    if full then f.dataOut sd q (cutWord (w64 (f.memRead sd (8 * w) 8)) q.addr q.bytes)
    else
      let f := f.doneOrder q.el q.oid
      if d.deferred.length < 65536 then
        let f := f.modDie sd fun d => { d with deferred := d.deferred ++ [(vw, q)] }
        match f.rawOf q.el q.id q.lane with
        | some r => f.rawStop r 4 []
        | none => f.markDeferred q
      else if 131072 ≤ q.el then f.post (.translationRequest sd q)
      else parkAccess f q.el q.id ⟨q.lane, .defer, .stalled, 0, true, some q⟩
  | .store =>
    if q.eng || (f.issuerOf q).any (fun p => isIndirect p.op) then f.faultAt none q .access (w32 q.addr) else f.guardStore (.channelRequest sd (.stack sd off) q) (.die sd off) q
  | .feset =>
    if full then done f
    else done ((f.modDie sd fun d => { d with full := insertNat w d.full }).feAnswers sd vw (w64 (f.memRead sd (8 * w) 8)))
  | .feclr => done (f.modDie sd fun d => { d with full := d.full.filter (· ≠ w) })
  | .atomic _ _ => f.faultAt none q .access (w32 q.addr)

/-! ## The channel port (R433) -/

/-- An access performed at a channel (R214, R228-R230, R431): a read returns later, a write is complete when accepted. An error that
cannot be corrected in the bytes that it reads, or that a store merges into, turns it away (R215, R432). -/
def Fabric.channelDo (f : Fabric) (sd off : Nat) (q : Req) : Fabric :=
  let x := if q.op = .pref ∨ q.op = .feclr then (f, true) else f.readCheck sd off q.bytes
  let f := x.1
  let ret := fun (f : Fabric) (v : Nat) => f.dataOut sd q (w64 v)
  let put := fun (v : Nat) => f.memWrite sd off q.bytes v
  if !x.2 then f.turnAway q 3 .data (f.slotInfo q)
  else if q.fe then f.feDo sd off q
  else
    match q.op with
    | .load => ret f (f.memRead sd off q.bytes)
    | .store => ((put q.data.toNat).doneOrder q.el q.oid).answerReq q 0
    | .atomic op x =>
      let old := f.memRead sd off q.bytes
      ret (if atomicWrites op x (w64 old) q.cmp then put (atomicNew op x (w64 old) q.data q.cmp).toNat else f) old
    | .pref => f.answerReq q 0
    | _ => f.faultAt none q .access (w32 q.addr)

/-- An access performed in host memory through the host bridge (R357). -/
def Fabric.hostDo (f : Fabric) (a : Nat) (q : Req) : Fabric :=
  let put := fun (v : Nat) => { f with hostMem := f.hostMem.writeN a v q.bytes }
  let old := f.hostMem.readN a q.bytes
  let done := fun (f : Fabric) (v : Nat) => (f.doneOrder q.el q.oid).answerReq q (w64 v)
  match q.op with
  | .load => done f old
  | .store => done (put q.data.toNat) 0
  | .atomic op x => done (if atomicWrites op x (w64 old) q.cmp then put (atomicNew op x (w64 old) q.data q.cmp).toNat else f) old
  | .pref => f.answerReq q 0
  | _ => f.faultAt none q .access (w32 q.addr)

/-- Is a request's predecessor outstanding at a base die? -/
def Fabric.predOut (f : Fabric) (sd : Nat) (q : Req) : Bool :=
  match q.pred with
  | none => false
  | some p => (f.die sd).outst.contains (q.el, p)

/-- CHANNEL_REQUEST (R430, R433, R436): a line without storage turns the request away; a full queue answers retry; a request waits
while its channel switches its rate, for an earlier one of its line, for an earlier lane of its firing (R213), and for its predecessor;
any other is performed. -/
def channelTake (f : Fabric) (sd : Nat) (fr : Frame) (q : Req) : Fabric :=
  match fr with
  | .host a => f.hostDo a q
  | .stack s off =>
    let line := f.lineAt s off
    match line with
    | .shadow => f.turnAway q 1 .access (w32 q.addr)
    | _ =>
      match f.channelOf s line with
      | none => f.turnAway q 3 .data (f.slotInfo q)
      | some ch =>
        let d := f.die s
        if 64 ≤ (d.queued.countP fun x => decide (x.1 = ch)) then f.retryReq sd q
        else if d.switching.contains ch || f.predOut s q
            || d.queued.any (fun x => sameLine x.2.1 fr || (decide (x.1 = ch) && decide (x.2.2.firing = q.firing))) then
          f.modDie s fun d => { d with queued := d.queued ++ [(ch, fr, q)] }
        else f.channelDo s off q

/-- The waiting requests of a channel are taken again in their order; where places free, elements are told. -/
def Fabric.resumePort (f : Fabric) (sd ch : Nat) : Fabric :=
  let xs := (f.die sd).queued.filter fun x => decide (x.1 = ch)
  let f := f.modDie sd fun d => { d with queued := d.queued.filter fun x => decide (x.1 ≠ ch) }
  let f := xs.foldl (fun f x => channelTake f sd x.2.1 x.2.2) f
  if ((f.die sd).queued.countP fun x => decide (x.1 = ch)) < xs.length then f.freePlaces (f.partOfStack sd) else f

/-- PREDECESSOR_MARK (R433): requests held for a predecessor go on. -/
def predMark (f : Fabric) (sd el oid : Nat) : Fabric :=
  let held := fun x : Nat × Frame × Req => decide (x.2.2.el = el) && x.2.2.pred == some oid
  let chs := (((f.die sd).queued.filter held).map (·.1)).dedup
  let f := f.modDie sd fun d => { d with queued := d.queued.map fun x => if held x then (x.1, x.2.1, { x.2.2 with pred := none }) else x }
  chs.foldl (fun f c => f.resumePort sd c) f

/-- CHANNEL_READ_RETURN (R433): the data goes to its issuer. -/
def readReturn (f : Fabric) (sd : Nat) (a : Ans) : Fabric :=
  let f := f.modDie sd fun d => { d with reads := d.reads.eraseP fun q => decide (reqKey q = (a.el, a.id, a.lane)) }
  (f.doneOrder a.el (rawKey a.el a.id a.lane).1).answer a

/-! ## Rates, refresh, patrol (R432, R434, R435) -/

/-- The rate point of a channel; 3 once it is retired. -/
def Fabric.point (f : Fabric) (sd ch : Nat) : Nat := fld (f.bd sd 0x211) (2 * ch + 1) (2 * ch)
def Fabric.setPoint (f : Fabric) (sd ch v : Nat) : Fabric := f.setBd sd 0x211 (setFld (f.bd sd 0x211) (2 * ch + 1) (2 * ch) v)
/-- The highest point that BD.RATECFG allows. -/
def Fabric.rateCap (f : Fabric) (sd : Nat) : Nat := fld (f.bd sd 0x210) 1 0

/-- REFRESH_DUE (R435): one more refresh is owed. Owed refreshes are performed where no request waits, and at once when 8 are
owed. -/
def refreshOne (f : Fabric) (sd ch : Nat) : Fabric :=
  let d := f.die sd
  let n := tget 0 d.owed ch + 1
  let waits := d.queued.any fun x => decide (x.1 = ch)
  f.modDie sd fun d => { d with owed := if waits && decide (n < 8) then tset d.owed ch n else tdel d.owed ch }

/-- A channel switches to a point: no request is performed until the switch ends. A switch waits while four refreshes are
owed, or another switch runs. -/
def rateTo (f : Fabric) (sd ch v : Nat) (again : Ev) : Fabric :=
  let d := f.die sd
  if 4 ≤ tget 0 d.owed ch ∨ d.switching.contains ch then f.post again
  else ((f.setPoint sd ch v).modDie sd fun d => { d with switching := d.switching ++ [ch] }).post (.rateSwitchEnd sd ch)

/-- RATE_STEP_DOWN (R434): one point lower, for its temperature or for CAP. -/
def rateDown (f : Fabric) (sd ch : Nat) : Fabric :=
  let p := f.point sd ch
  if p = 0 ∨ p = 3 then f else rateTo f sd ch (p - 1) (.rateStepDown sd ch)

/-- RATE_STEP_UP (R434): never above CAP. -/
def rateUp (f : Fabric) (sd ch : Nat) : Fabric :=
  let p := f.point sd ch
  if f.rateCap sd ≤ p then f else rateTo f sd ch (p + 1) (.rateStepUp sd ch)

/-- RATE_SWITCH_END (R434): the port resumes; a channel still above CAP steps down again. -/
def rateEnd (f : Fabric) (sd ch : Nat) : Fabric :=
  let f := (f.modDie sd fun d => { d with switching := d.switching.filter (· ≠ ch) }).resumePort sd ch
  if f.point sd ch ≠ 3 ∧ f.rateCap sd < f.point sd ch ∧ !f.agenda.contains (.rateStepDown sd ch) then f.post (.rateStepDown sd ch) else f

/-- The offset under which the line at a channel's row is kept: a line of a main row, a guarded row's parity line, or in a spare row the
redirected line of a guarded row (R428, R430, R436). -/
def Fabric.lineOff (f : Fabric) (sd ch row : Nat) : Option Nat :=
  let inRow := fun c r : Nat =>
    match f.regionAt sd (2048 * r) with
    | none => some (64 * (32 * r + ((c ^^^ r ^^^ (r / 32)) % 32)))
    | some _ => if c = r % 32 then f.parityOff sd r else (f.stripeOffs sd r)[if c < r % 32 then c else c - 1]?
  if row < f.mainRows sd then (if f.inService sd ch then inRow ch row else none)
  else
    let band := f.chanRows / 32
    let i := (row - f.mainRows sd) / band
    match f.retired sd i with
    | none => none
    | some c =>
      let r := ((List.range (31 - i)).map fun k => (31 - i) * ((row - f.mainRows sd) % band) + k).find? fun r => f.redirect sd i r = ch
      r.bind fun r => if (f.regionAt sd (2048 * r)).isSome && !f.stripeLost sd r then inRow c r else none

/-- PATROL_STEP (R432): the patrol takes the next line of the main and spare rows and corrects it; it changes no value. -/
def patrolOne (f : Fabric) (sd : Nat) : Fabric :=
  if bit (f.bd sd 0x219) 31 then
    let n := (f.die sd).patrol
    let f := if (f.die sd).errs.isEmpty then f else match f.lineOff sd (n % 32) (n / 32) with
      | some o => (f.readCheck sd o 64).1
      | none => f
    f.modDie sd fun d => { d with patrol := (n + 1) % (32 * f.chanRows) }
  else f

/-! ## Retirement and rebuild (R429, R436, R437) -/

/-- The lowest guarded row at or above a row. -/
def Fabric.guardRow (f : Fabric) (sd r : Nat) : Option Nat :=
  ((f.guards sd).filterMap fun g => if r < g.2 then some (max r g.1) else none).foldl
    (fun m x => match m with | none => some x | some y => some (min x y)) none

/-- How many guarded stripes are lost (R436). -/
def Fabric.lostStripes (f : Fabric) (sd : Nat) : Nat :=
  ((f.guards sd).map fun g => ((List.range (g.2 - g.1)).countP fun i => f.stripeLost sd (g.1 + i))).sum

/-- BD.REBUILD with a rebuild at a row, or with none (R437). -/
def Fabric.setRebuild (f : Fabric) (sd : Nat) (row : Option Nat) : Fabric :=
  let lost := fld (f.bd sd 0x202) 57 32 * 2 ^ 32
  f.setBd sd 0x202 (w64 (match row with | some r => 2 ^ 63 + lost + r % 2 ^ 26 | none => lost))

/-- Can a channel be retired (R409): is it in service, and is another? -/
def Fabric.mayRetire (f : Fabric) (sd ch : Nat) : Bool :=
  f.inService sd ch && decide (2 ≤ (List.range 32).countP fun c => f.inService sd c)

/-- CHANNEL_RETIREMENT (R436): the channel leaves service, its queued requests are performed under the new mapping, the RETIRE
completes, and the rebuild starts from the lowest guarded row. The bytes that it held are gone with their errors. A channel that another
RETIRE has taken meanwhile raises ILLEGAL (R409). -/
def retireChannel (f : Fabric) (sd ch el id : Nat) : Fabric :=
  if !f.mayRetire sd ch then
    match (f.el el).pendOf id with
    | some p => parkAccess f el id ⟨0, .trap, .illegal, p.slotW, true, none⟩
    | none => f
  else
  let w := f.bd sd 0x201
  let f := if (f.die sd).errs.isEmpty then f else f.modDie sd fun d => { d with errs := d.errs.filter fun o => f.channelOf sd (f.lineAt sd o) ≠ some ch }
  let w := setFld w ch ch 0
  let w := if !bit w 57 then setFld (setFld w 56 52 ch) 57 57 1 else if !bit w 63 then setFld (setFld w 62 58 ch) 63 63 1 else w
  let f := (f.setBd sd 0x201 w).setPoint sd ch 3
  let f := f.modDie sd fun d => { d with switching := d.switching.filter (· ≠ ch), owed := tdel d.owed ch }
  let f := f.resumePort sd ch
  let f := f.setBd sd 0x202 (setFld (f.bd sd 0x202) 57 32 (min (f.lostStripes sd) (2 ^ 26 - 1)))
  let f := match f.guardRow sd 0 with
    | none => f
    | some r => if bit (f.bd sd 0x202) 63 then f.setRebuild sd (some r) else (f.setRebuild sd (some r)).post (.rebuildStep sd)
  match (f.el el).pendOf id with
  | none => f
  | some p => complete f el p [p.raw p.d (w64 ((List.range 32).countP fun c => f.inService sd c)), p.ordOut p.e]

/-- The members of a guarded row that a rebuild still owes are written at their redirect places: the XOR of the other 31 members of the
stripe (R437). -/
def Fabric.rebuildRow (f : Fabric) (sd r : Nat) : Fabric :=
  let f := ((f.stripeOffs sd r).filter fun o => match f.lineAt sd o with | .guarded c _ => f.unbuilt sd c r | _ => false).foldl
    (fun (f : Fabric) o => let v := f.rebuilt sd r o; f.modDie sd fun d => { d with mem := d.mem.writeN o v 64 }) f
  match f.unbuilt sd (r % 32) r, f.parityOff sd r with
  | true, some o => let v := f.xorLines sd r (2 ^ 64); f.modDie sd fun d => { d with mem := d.mem.writeN o v 64 }
  | _, _ => f

/-- REBUILD_STEP (R437): the members of one guarded row are rebuilt, and the rebuild goes on to the next row or ends. -/
def rebuildOne (f : Fabric) (sd : Nat) : Fabric :=
  let w := f.bd sd 0x202
  if !bit w 63 then f
  else
    let f := f.rebuildRow sd (fld w 25 0)
    match f.guardRow sd (fld w 25 0 + 1) with
    | some r => (f.setRebuild sd (some r)).post (.rebuildStep sd)
    | none => f.setRebuild sd none

/-- GUARD_ZERO_DONE (R429): the region's rows are zero, data and parity, the register reads its new value, and its write completes. -/
def guardDone (f : Fabric) (sd n : Nat) : Fabric :=
  match (f.die sd).zeroing.find? fun x => decide (x.1 = n) with
  | none => f
  | some z =>
    let v := z.2.1
    let asker := z.2.2
    let g := if bit v 63 then v else f.bd sd (0x208 + n)
    let lo := fld g 15 0 * 2 ^ 21
    let len := (fld g 31 16 + 1) * 2 ^ 21
    let f := f.modDie sd fun d => { d with zeroing := d.zeroing.erase z }
    let f := if !bit v 63 && !bit (f.bd sd (0x208 + n)) 63 then f else f.modDie sd fun d => { d with
      mem := d.mem.clear lo len
      errs := d.errs.filter fun o => !(decide (lo ≤ o) && decide (o < lo + len))
      parCache := d.parCache.filter fun x => !(decide (lo ≤ 2048 * x.1) && decide (2048 * x.1 < lo + len)) }
    let f := f.setBd sd (0x208 + n) v
    match asker with
    | none => f
    | some (el, id) =>
      match (f.el el).pendOf id with
      | none => f
      | some p => complete f el p [p.ordOut p.d, p.ordOut p.e]

/-! ## Fatik elements (R439, R440) -/

/-- Does a Fatik element take commands: an image, not stopped, and none on its way in? -/
def Fabric.fatikOpen (f : Fabric) (sd n : Nat) : Bool :=
  let e := f.el (fatikKey sd n)
  !e.halted && !e.slots.isEmpty && !f.agenda.contains (.fatikImageLoad sd n)

/-- A command's token: slot 0, side A, its first flit's bits 223:0 as four N64 lanes, in the image's context at depth 0. -/
def commandTok (ctx : Nat) (pl : List DWord) : Tok :=
  ⟨mkHdr 0 0 0 false 7 4 0 true false false false, 15, w64 (ctx * 2 ^ 56),
    [pl.getD 0 0, pl.getD 1 0, pl.getD 2 0, w64 (fld (pl.getD 3 0) 31 0)]⟩

/-- ENGINE_COMMAND (R398, R439, R440). -/
def engineTake (f : Fabric) (sd n : Nat) (q : Req) (pl : List DWord) : Fabric :=
  if f.linkDead sd && crosses sd q then f.faultAt none q .data (f.slotInfo q)
  else if !f.dieAllows sd q.part q.priv q.ukind 3 then f.faultAt none q .access (w32 q.addr)
  else if !f.fatikOpen sd n then (if 131072 ≤ q.el then f.post (.engineCommand sd n q pl) else f.retryTo q)
  else
    let el := fatikKey sd n
    let ctx := ((f.el el).slots.head?.map (·.2.ctx)).getD 0
    (f.modEl el fun e => { e with cmds := e.cmds ++ [(q, pl)] }).post (.tokenArrive el .packet (commandTok ctx pl))

/-- What a new image leaves of a Fatik element: its memory and registers (R440). -/
def Element.drained (e : Element) : Element :=
  { e with
    slots := [], store := [], parked := [], parkedToks := [], ready := [], probes := [], missBuf := [], pend := []
    delays := [], loops := [], commits := [], scales := [], cmds := [] }

/-- Has a Fatik element finished what it holds? A stopped one has. -/
def Element.idle (e : Element) : Bool :=
  e.halted || (e.cmds.isEmpty && e.ready.isEmpty && e.pend.isEmpty && e.parked.isEmpty && e.delays.isEmpty && e.loops.isEmpty)

/-- FATIK_IMAGE_LOAD (R440): once the element is drained, the image is loaded under R51 at its own PRIV; a refused one, an image
that cannot be read, and a register with V clear leave the element stopped. -/
def fatikLoad (f : Fabric) (sd n : Nat) : Fabric :=
  let el := fatikKey sd n
  let reg := f.bd sd (0x228 + n)
  if !(f.el el).idle then f.post (.fatikImageLoad sd n)
  else if !bit reg 0 then f.modEl el fun e => { e.drained with halted := true }
  else
    let refused := fun f : Fabric =>
      (f.setBd sd 0x22C (setFld (f.bd sd 0x22C) (4 + n) (4 + n) 1)).modEl el fun e => { e.drained with halted := true }
    match f.readImage (f.partOfStack sd) (fld reg 56 7 * 128) with
    | none => refused f
    | some img =>
      if loadCheck f el img img.priv ≠ 0 then refused f
      else
        (f.modEl el fun e => { e.drained with slots := [(0, ⟨img.ctx, img, false, f.clock, FailRec.empty⟩)], halted := false }).freePlaces
          (f.partOfStack sd)

/-- CHANNEL_REQUEST (R433). -/
def execChannelRequest (sd : Nat) (fr : Frame) (q : Req) (s : State) : Host.Outcome State Fault Refusal := fabStep s fun f => channelTake f sd fr q
/-- PREDECESSOR_MARK (R433). -/
def execPredecessorMark (sd el oid : Nat) (s : State) : Host.Outcome State Fault Refusal := fabStep s fun f => predMark f sd el oid
/-- CHANNEL_READ_RETURN (R433). -/
def execChannelReadReturn (sd : Nat) (a : Ans) (s : State) : Host.Outcome State Fault Refusal := fabStep s fun f => readReturn f sd a
/-- REFRESH_DUE (R435). -/
def execRefreshDue (sd ch : Nat) (s : State) : Host.Outcome State Fault Refusal := fabStep s fun f => refreshOne f sd ch
/-- RATE_STEP_DOWN (R434). -/
def execRateStepDown (sd ch : Nat) (s : State) : Host.Outcome State Fault Refusal := fabStep s fun f => rateDown f sd ch
/-- RATE_STEP_UP (R434). -/
def execRateStepUp (sd ch : Nat) (s : State) : Host.Outcome State Fault Refusal := fabStep s fun f => rateUp f sd ch
/-- RATE_SWITCH_END (R434). -/
def execRateSwitchEnd (sd ch : Nat) (s : State) : Host.Outcome State Fault Refusal := fabStep s fun f => rateEnd f sd ch
/-- PATROL_STEP (R432). -/
def execPatrolStep (sd : Nat) (s : State) : Host.Outcome State Fault Refusal := fabStep s fun f => patrolOne f sd
/-- CHANNEL_RETIREMENT (R436). -/
def execChannelRetirement (sd ch el id : Nat) (s : State) : Host.Outcome State Fault Refusal := fabStep s fun f => retireChannel f sd ch el id
/-- REBUILD_STEP (R437). -/
def execRebuildStep (sd : Nat) (s : State) : Host.Outcome State Fault Refusal := fabStep s fun f => rebuildOne f sd
/-- GUARD_ZERO_DONE (R429). -/
def execGuardZeroDone (sd n : Nat) (s : State) : Host.Outcome State Fault Refusal := fabStep s fun f => guardDone f sd n
/-- ENGINE_COMMAND (R439). -/
def execEngineCommand (sd n : Nat) (q : Req) (pl : List DWord) (s : State) : Host.Outcome State Fault Refusal := fabStep s fun f => engineTake f sd n q pl
/-- FATIK_IMAGE_LOAD (R440). -/
def execFatikImageLoad (sd n : Nat) (s : State) : Host.Outcome State Fault Refusal := fabStep s fun f => fatikLoad f sd n

end Sys2Proof.Machine
end

