-- ==== Sys2Proof/Machine/CopyEv.lean ====
section
/-! DEFINITION. The copy engine (R225, R398, R408, R438): COPY_COMMAND and COPY_PIECE_COMPLETE, for the 64-byte pieces of CPY and the
64 KiB pieces of PGMIG. -/

namespace Sys2Proof.Machine

/-! ## Command places (R208, R225, R339) -/

/-- Does a firing hold a command place of a Fatik element? -/
def Pend.inPlace (p : Pend) (fk : DWord) : Bool :=
  decide (p.phase = 41) && decide (p.c = fk) && (isIndirect p.op || decide (p.op = 0xA2))

/-- The places of a Fatik element in use. -/
def Fabric.placesUsed (f : Fabric) (fk : DWord) : Nat := (f.els.map fun x => x.2.pend.countP fun p => p.inPlace fk).sum

/-- A command reaches its Fatik element: the base die's access table and link, then a place, or the wait for one. -/
def engineCmd (f : Fabric) (el : Nat) (p : Pend) (go : Fabric → Pend → Fabric) : Fabric :=
  let sd := fatikStack p.c.toNat
  let stop := fun (c : Cause) (info : Word) => parkAccess f el p.id ⟨0, .trap, c, info, true, none⟩
  if f.linkDead sd && !(isFatik el && decide (fatikStack el = sd)) then stop .data p.slotW
  else if !f.dieAllows sd (f.partOf el) p.priv (if isFatik el then 1 else 0) 3 then stop .access (w32 p.target)
  else if 16 ≤ f.placesUsed p.c then parkAccess f el p.id ⟨0, .queue, .stalled, 0, true, none⟩
  else
    let p := { p with phase := 41 }
    go (f.putPend el p) p

/-! ## Places of a copy -/

/-- Where a word of a copy lies. -/
inductive CopyAt where
  | elem (el addr : Nat) (plain : Bool)
  | frame (fr : Frame)
  | peer
  deriving DecidableEq, Repr

/-- Why a piece does not go on: a trap, found by the translation of a base die or elsewhere; a write-protected page; or a buffer that is
not ready. -/
inductive CopyStop where
  | trap (c : Cause) (info : Word) (sd : Option Nat)
  | migrate (sd : Nat)
  | wait
  deriving DecidableEq, Repr

/-- May an engine's piece reach an element for its issuer (R398)? -/
def Fabric.pieceMay (f : Fabric) (el tgt : Nat) (p : Pend) : Bool :=
  isFatik tgt || f.blkAllows (blockOf tgt) (f.partOf el) p.priv 1 3

/-- An engine's request of one word. -/
def Fabric.pieceReq (f : Fabric) (el : Nat) (p : Pend) (lane : Nat) (write : Bool) (addr : Nat) (v : DWord) : Req :=
  { f.mkReq el p lane (if write then .store else .load) 8 addr v 0 with ukind := 1, eng := true }

/-- Does a word's channel port hold a piece back: its channel switches, its queue is full, or a request of the same line waits there
(R433, R434, R438)? -/
def Fabric.portHolds (f : Fabric) (s off : Nat) : Bool :=
  let d := f.die s
  match f.channelOf s (f.lineAt s off) with
  | none => false
  | some ch => d.switching.contains ch || decide (64 ≤ d.queued.countP fun x => decide (x.1 = ch)) || d.queued.any fun x => sameLine x.2.1 (.stack s off)

/-- Does the piece that writes the word at byte `off` of a copy cover the word's whole 32-byte half, so that nothing is merged (R432)? -/
def Pend.coversHalf (p : Pend) (off : Nat) : Bool :=
  let a := fld p.b 56 0
  let lo := a + off / 64 * 64
  let h := (a + off) / 32 * 32
  decide (lo ≤ h) && decide (h + 32 ≤ lo + min 64 ((p.args.getD 0 0).toNat - off / 64 * 64))

/-- The place of the word at byte `off'` of one end of a copy, or its stop (R197, R362, R398, R422, R432, R438). Every piece but those of the
engine's own stack crosses the link of the engine's base die. A word by the stripe space acts below its member's reserve as plain
memory (R204). -/
def copyAt (f : Fabric) (el : Nat) (p : Pend) (aw : DWord) (off' : Nat) (write : Bool) : Fabric × Except CopyStop CopyAt :=
  let a := fld aw 56 0 + off'
  let part := f.partOf el
  let addrTrap := fun (c : Cause) (x : Nat) => Except.error (CopyStop.trap c (w32 x) none)
  let own := fatikStack p.c.toNat
  let atElem := fun (tgt x : Nat) (plain : Bool) =>
    if f.written tgt then (f, .error .wait)
    else if f.linkDead own && decide (tgt ≠ p.c.toNat) then (f, addrTrap .data x)
    else if !f.pieceMay el tgt p then (f, addrTrap .access x)
    else if !plain && (f.el tgt).guarded x then (f, addrTrap .access x)
    else (f, .ok (.elem tgt x plain))
  if fld aw 63 62 = 0 then atElem el a false
  else
    match f.vaStop el p.priv (if write then .store else .load) false 8 a with
    | some (.trap c info) => (f, .error (.trap c info none))
    | some _ => (f, .error .wait)
    | none =>
      if (podPkg f a).isSome then (if f.linkDead own then (f, addrTrap .data a) else (f, .ok .peer))
      else
        let o := a % 2 ^ 46
        if o / 2 ^ 40 = 0x3F then
          match f.stripeAt el (o % 2 ^ 40) with
          | some (m, x) => atElem m x (f.belowReserve m x)
          | none => (f, addrTrap .access a)
        else
          match f.home part a with
          | none => (f, .error (.trap .page (pageInfo 0 o) none))
          | some sd =>
            if decide (own ≠ sd) && (f.linkDead sd || f.linkDead own) then (f, addrTrap .data a)
            else
              let x := f.lookupNow sd part o
              let f := x.1
              match f.verdict (f.pieceReq el p 0 write a 0) x.2 with
              | .fault c info => (f, .error (.trap c info (some sd)))
              | .refused => (f, addrTrap .access a)
              | .migrate => (f, .error (.migrate sd))
              | .pass _ true => (f, addrTrap .access a)
              | .pass (.host h) false => if f.linkDead own then (f, addrTrap .data a) else (f, .ok (.frame (.host h)))
              | .pass (.stack s off) false =>
                match f.lineAt s off with
                | .shadow => (f, addrTrap .access a)
                | line =>
                  if (f.channelOf s line).isNone then (f, addrTrap .data a)
                  else if f.portHolds s off then (f, .error .wait)
                  else
                    let y := if write && p.coversHalf off' then (f, true) else f.readCheck s off 8
                    (y.1, if y.2 then .ok (.frame (.stack s off)) else .error (.trap .data (w32 a) none))

/-- The places of the words of one end of a piece. -/
def copyAts (el : Nat) (p : Pend) (aw : DWord) (write : Bool) : Fabric → List Nat → Fabric × Except CopyStop (List CopyAt)
  | f, [] => (f, .ok [])
  | f, off :: r =>
    match copyAt f el p aw off write with
    | (f, .error s) => (f, .error s)
    | (f, .ok x) =>
      match copyAts el p aw write f r with
      | (f, .error s) => (f, .error s)
      | (f, .ok xs) => (f, .ok (x :: xs))

/-- A word read from its place; an element's window acts by its role. -/
def copyRead (f : Fabric) (el : Nat) (p : Pend) : CopyAt → Except CopyStop (Fabric × DWord)
  | .elem tgt a plain =>
    let q := f.pieceReq el p 0 false a 0
    match (if plain then (f.el tgt).servePlain p.set.slot q else (f.el tgt).serve (0, 0) p.set.slot q) with
    | .done e v ans => .ok (f.afterServe tgt e ans, w64 v)
    | .trap c info => .error (.trap c info none)
    | _ => .error .wait
  | .frame fr => .ok (f, w64 ((f.frameRead fr 8).getD 0))
  | .peer => .ok (f, 0)

/-- A word written to its place. -/
def copyWrite (f : Fabric) (el : Nat) (p : Pend) (at' : CopyAt) (v : DWord) : Except CopyStop Fabric :=
  match at' with
  | .elem tgt a plain =>
    let q := f.pieceReq el p 0 true a v
    match (if plain then (f.el tgt).servePlain p.set.slot q else (f.el tgt).serve (0, 0) p.set.slot q) with
    | .done e _ ans => .ok (f.afterServe tgt e ans)
    | .trap c info => .error (.trap c info none)
    | _ => .error .wait
  | .frame fr => .ok (f.frameWrite fr 8 v.toNat)
  | .peer => .ok f

/-- Words read from their places, in order. -/
def copyReads (el : Nat) (p : Pend) : Fabric → List CopyAt → Except CopyStop (Fabric × List DWord)
  | f, [] => .ok (f, [])
  | f, x :: r => (copyRead f el p x).bind fun y => (copyReads el p y.1 r).map fun z => (z.1, y.2 :: z.2)

/-- Words written to their places, in order. -/
def copyWrites (el : Nat) (p : Pend) : Fabric → List (CopyAt × DWord) → Except CopyStop Fabric
  | f, [] => .ok f
  | f, (x, v) :: r => (copyWrite f el p x v).bind fun f => copyWrites el p f r

/-! ## CPY (R225) -/

/-- LEN of a copy, and its pieces. -/
def Pend.copyLen (p : Pend) : Nat := (p.args.getD 0 0).toNat
def Pend.pieces (p : Pend) : Nat := (p.copyLen + 63) / 64
/-- The byte offsets of the words of a piece. -/
def Pend.pieceOffs (p : Pend) (k : Nat) : List Nat := (List.range (min 8 ((p.copyLen - 64 * k) / 8))).map fun i => 64 * k + 8 * i
/-- Does one end of a copy lie in a peer package? Its pieces then go one at a time. -/
def Fabric.copyPeer (f : Fabric) (p : Pend) : Bool :=
  let far := fun aw : DWord => decide (fld aw 63 62 = 2) && (podPkg f (fld aw 56 0)).isSome
  far p.b || (decide (p.args.getD 1 0 = 0) && far p.a)
/-- Is piece k written? -/
def Pend.pieceDone (p : Pend) (k : Nat) : Bool := decide (k < p.cnt) || p.vals.contains (w64 k)

/-- The count of leading pieces written, and the pieces written beyond it, once piece k is. -/
def Pend.markPiece (p : Pend) (k : Nat) : Pend :=
  let vs := w64 k :: p.vals
  let lead := (List.range (p.pieces + 1)).find? fun j => decide (p.cnt ≤ j) && !vs.contains (w64 j)
  let n := lead.getD p.pieces
  { p with cnt := n, vals := vs.filter fun v => decide (n ≤ v.toNat) }

/-- Has a DISCARD given piece k up (R225)? Its number stands above the others in the list. -/
def Pend.gaveUp (p : Pend) : Bool := p.vals.any fun v => decide (2 ^ 32 ≤ v.toNat)
/-- Piece k given up: no more pieces are sent. -/
def Pend.giveUp (p : Pend) (k : Nat) : Pend := { p with vals := w64 (2 ^ 32 + k) :: p.vals }
/-- Is a copy at its end: every piece written, or, after a DISCARD, every piece that was sent written or given up, and none parked? -/
def Pend.copyOver (p : Pend) : Bool := p.accs.isEmpty && (decide (p.cnt = p.pieces) || (p.gaveUp && decide (p.cur ≤ p.cnt + p.vals.length)))

/-- COPY_COMMAND (R225, R366, R438): the command takes a place; then each turn sends one piece, whether or not others are parked. -/
def copyGo (f : Fabric) (el id : Nat) : Fabric :=
  match (f.el el).pendOf id with
  | none => f
  | some p =>
    if p.phase = 40 then engineCmd f el p fun f p => f.post (.copyCommand el p.id)
    else if p.phase ≠ 41 ∨ p.pieces ≤ p.cur ∨ p.gaveUp then f
    else
      let f := (f.putPend el { p with cur := p.cur + 1 }).post (.copyPieceComplete el id p.cur)
      if f.copyPeer p then f else f.post (.copyCommand el id)

/-- A copy ends if it is over, with its length or the length of its leading pieces (R225); else it goes on. -/
def copyGoOn (f : Fabric) (el : Nat) (p : Pend) : Fabric :=
  if p.copyOver then
    let p := if p.gaveUp then { p with args := [w64 (min (64 * p.cnt) p.copyLen)] } else p
    (complete f el p (memOuts p)).freePlaces (f.partOf el)
  else
    let f := f.putPend el p
    if p.cur < p.pieces ∧ ¬ f.agenda.contains (.copyCommand el p.id) then f.post (.copyCommand el p.id) else f

/-- A piece is written. -/
def pieceWritten (f : Fabric) (el : Nat) (p : Pend) (k : Nat) : Fabric := copyGoOn f el { p.markPiece k with args := p.args.take 2 }

/-- A piece parks, and the others of its copy go on (R366). One of a killed context ends (R405). -/
def pieceParked (f : Fabric) (el : Nat) (p : Pend) (a : PAcc) : Fabric :=
  if p.dead then pieceWritten f el p a.lane
  else
  let f := parkAccess f el p.id a
  if f.copyPeer p && decide (p.cur < p.pieces) && !f.agenda.contains (.copyCommand el p.id) then f.post (.copyCommand el p.id) else f

/-- A piece that stops: a trap that translation found takes a place in the base die's park store where there is one, and the piece parks
(R366); a write-protected page parks it under MIGRATE (R369); a buffer that is not ready is tried again. -/
def pieceStop (f : Fabric) (el : Nat) (p : Pend) (k : Nat) : CopyStop → Fabric
  | .trap c info sd =>
    let q : Req := { f.pieceReq el p k true (fld p.b 56 0 + 64 * k) 0 with bytes := 64 }
    let f := match sd with
      | some s => if (f.die s).park.length < 512 then f.modDie s fun d => { d with park := d.park ++ [(q, c, info)] } else f
      | none => f
    pieceParked f el p ⟨k, .trap, c, info, true, none⟩
  | .wait => f.post (.copyPieceComplete el p.id k)
  | .migrate sd =>
    if (f.die sd).park.length < 512 then
      let q : Req := { f.pieceReq el p k true (fld p.b 56 0 + 64 * k) 0 with bytes := 64 }
      pieceParked (f.modDie sd fun d => { d with park := d.park ++ [(q, .stalled, 0)] }) el p ⟨k, .migrate, .stalled, 0, true, none⟩
    else pieceParked f el p ⟨k, .queue, .stalled, 0, true, none⟩

/-- The word addresses of a piece at a peer, as requests. Lane 8 k + i is word i of piece k. -/
def peerWords (f : Fabric) (el : Nat) (p : Pend) (k : Nat) (aw : DWord) (write : Bool) : List Req :=
  ((p.pieceOffs k).zipIdx).map fun x => f.pieceReq el p (8 * k + x.2) write (fld aw 56 0 + x.1) (p.args.getD (2 + x.2) 0)

/-- The destination part of a piece whose words are in the record: written here, or sent to the peer. -/
def pieceOut (f : Fabric) (el : Nat) (p : Pend) (k : Nat) : Fabric :=
  match copyAts el p p.b true f (p.pieceOffs k) with
  | (f, .error s) => pieceStop (f.putPend el { p with phase := 41, left := 1 }) el p k s
  | (f, .ok ds) =>
    if ds.contains .peer then
      let qs := peerWords f el p k p.b true
      qs.foldl Fabric.sendReq (f.putPend el { p with phase := 51, left := qs.length, base := k })
    else
      match copyWrites el p f (ds.zip (p.args.drop 2)) with
      | .error s => pieceStop (f.putPend el { p with phase := 41, left := 1 }) el p k s
      | .ok f => pieceWritten f el { p with phase := 41, left := 1 } k

/-- A piece of a copy (R225): every word is found before any is written. A piece that writes a line of the one before waits for
it (R433). -/
def copyPiece (f : Fabric) (el : Nat) (p : Pend) (k : Nat) : Fabric :=
  let parked := fun j => p.accs.any fun a => decide (a.lane = j)
  if p.pieceDone k || parked k then f
  else if p.phase ≠ 41 ∨ (fld p.b 63 62 = 2 ∧ fld p.b 56 0 % 64 ≠ 0 ∧ k ≠ 0 ∧ p.pieceDone (k - 1) = false ∧ parked (k - 1) = false) then
    f.post (.copyPieceComplete el p.id k)
  else
    let offs := p.pieceOffs k
    let zf := decide (p.args.getD 1 0 ≠ 0)
    match (if zf then (f, .ok []) else copyAts el p p.a false f offs) with
    | (f, .error s) => pieceStop f el p k s
    | (f, .ok srcs) =>
      if srcs.contains .peer then
        let qs := peerWords f el p k p.a false
        qs.foldl Fabric.sendReq (f.putPend el { p with phase := 50, left := qs.length, base := k, args := p.args.take 2 ++ offs.map fun _ => 0 })
      else
        match copyAts el p p.b true f offs with
        | (f, .error s) => pieceStop f el p k s
        | (f, .ok ds) =>
          match (if zf then .ok (f, offs.map fun _ => 0) else copyReads el p f srcs) with
          | .error s => pieceStop f el p k s
          | .ok (f, ws) =>
            if ds.contains .peer then pieceOut f el { p with args := p.args.take 2 ++ ws } k
            else
              match copyWrites el p f (ds.zip ws) with
              | .error s => pieceStop f el p k s
              | .ok f => pieceWritten f el p k

/-- An answer of a peer to a word of a piece. -/
def peerWord (f : Fabric) (el : Nat) (p : Pend) (a : Ans) : Fabric :=
  let p := { p with left := p.left - 1, args := if p.phase = 50 then p.args.set (2 + a.lane % 8) a.val else p.args }
  if a.fail then
    let f := f.putPend el { p with phase := 41, left := 1 }
    let addr := fld (if p.phase = 50 then p.a else p.b) 56 0 + 64 * p.base + 8 * (a.lane % 8)
    if a.cause = 1 then pieceParked f el p ⟨p.base, .trap, .access, w32 addr, true, none⟩
    else pieceParked f el p ⟨p.base, .trap, .data, pageInfo 0 (addr % 2 ^ 46), true, none⟩
  else if p.left ≠ 0 then f.putPend el p
  else if p.phase = 50 then pieceOut f el p p.base
  else pieceWritten f el { p with phase := 41, left := 1 } p.base

/-- A peer's fault on a word of a piece: the piece parks once. -/
def peerFault (f : Fabric) (el : Nat) (p : Pend) (c : Cause) (info : Word) : Fabric :=
  if p.phase = 50 ∨ p.phase = 51 then
    pieceParked (f.putPend el { p with phase := 41, left := 1 }) el p ⟨p.base, .trap, c, info, true, none⟩
  else f

/-! ## PGMIG (R408): a the page, b the new leaf, c the old leaf; base the page bits, target the aperture offset of the leaf -/

/-- An aperture store of a leaf by a PGMIG. -/
def Fabric.leafStore (f : Fabric) (el : Nat) (p : Pend) (v : DWord) : Fabric :=
  f.post (.apertureStore { f.mkReq el p 0 .store 8 (0x3E * 2 ^ 40 + p.target) v 0 with priv := 2, fe := true })

/-- A range of bytes copied from one memory to a range of another. -/
def Memory.copyFrom (m src : Memory) (a d n : Nat) : Memory :=
  (src.filter fun c => decide (a ≤ c.1) && decide (c.1 < a + n)).foldl (fun m c => m.write (c.1 - a + d) c.2) (m.clear d n)

/-- The memory behind a frame. -/
def Fabric.frameMem (f : Fabric) : Frame → Memory × Nat
  | .stack sd off => ((f.die sd).mem, off)
  | .host a => (f.hostMem, a)

/-- A 64 KiB piece copied from frame to frame, its presence bits with it. Those of the old frame stay, for the old leaf if it comes
back (R408). -/
def Fabric.movePiece (f : Fabric) (src dst : Frame) : Fabric :=
  let x := f.frameMem src
  let f := match dst with
    | .stack sd off => (f.setMem sd ((f.die sd).mem.copyFrom x.1 x.2 off 65536)).modDie sd fun d =>
        { d with errs := d.errs.filter fun e => !(decide (off ≤ e) && decide (e < off + 65536)) }
    | .host a => { f with hostMem := f.hostMem.copyFrom x.1 x.2 a 65536 }
  let bits := match src with
    | .stack sd off => ((f.die sd).full.filter fun w => decide (off / 8 ≤ w) && decide (w < off / 8 + 8192)).map fun w => w - off / 8
    | .host _ => []
  match dst with
  | .stack sd off =>
    let rest := fun l : List Nat => l.filter fun w => !(decide (off / 8 ≤ w) && decide (w < off / 8 + 8192))
    f.modDie sd fun d => { d with full := bits.foldl (fun l w => insertNat (w + off / 8) l) (rest d.full) }
  | .host _ => f

/-- Has every line of a 64 KiB frame storage? -/
def Fabric.pieceStored (f : Fabric) : Frame → Bool
  | .host _ => true
  | .stack sd off => (List.range 1024).all fun i => (f.channelOf sd (f.lineAt sd (off + 64 * i))).isSome

/-- A 64 KiB frame is read, and whether all of it can be used (R408, R432). -/
def Fabric.pieceRead (f : Fabric) : Frame → Fabric × Bool
  | .host _ => (f, true)
  | .stack sd off => f.readCheck sd off 65536

/-- A piece of a PGMIG; after the last, the new leaf is stored. -/
def migPiece (f : Fabric) (el : Nat) (p : Pend) (k : Nat) : Fabric :=
  let part := f.partOf el
  let o := p.a.toNat % 2 ^ 46 + 65536 * k
  if p.phase ≠ 71 then f
  else
    match f.frameOf part p.c p.base o, f.frameOf part p.b p.base o with
    | some src, some dst =>
      if !f.pieceStored src || !f.pieceStored dst then parkAccess f el p.id ⟨k, .trap, .data, p.slotW, true, none⟩
      else
        let x := f.pieceRead src
        if !x.2 then parkAccess x.1 el p.id ⟨k, .trap, .data, p.slotW, true, none⟩
        else
        let f := x.1.movePiece src dst
        if k + 1 < 2 ^ (p.base - 16) then (f.putPend el { p with cur := k + 1 }).post (.copyPieceComplete el p.id (k + 1))
        else (f.putPend el { p with phase := 72, cur := k + 1 }).leafStore el p p.b
    | _, _ => parkAccess f el p.id ⟨k, .trap, .data, p.slotW, true, none⟩

/-- An aperture store of a PGMIG is complete: the copy begins, or the form ends. Phase 73 is a DISCARD that put the old leaf back. -/
def migAnswered (f : Fabric) (el : Nat) (p : Pend) : Fabric :=
  if p.phase = 70 then (f.putPend el { p with phase := 71 }).post (.copyPieceComplete el p.id 0)
  else complete f el p [p.raw p.d (w64 (if p.phase = 73 then 0 else 2 ^ p.base)), p.ordOut p.e]

/-- COPY_PIECE_COMPLETE (R225, R408). -/
def pieceDone (f : Fabric) (el id k : Nat) : Fabric :=
  match (f.el el).pendOf id with
  | none => f
  | some p => if p.op = 0xA2 then copyPiece f el p k else if p.op = 0xFB then migPiece f el p k else f

/-- COPY_COMMAND (R225, R438). -/
def execCopyCommand (el id : Nat) (s : State) : Host.Outcome State Fault Refusal := fabStep s fun f => copyGo f el id
/-- COPY_PIECE_COMPLETE (R225). -/
def execCopyPieceComplete (el id piece : Nat) (s : State) : Host.Outcome State Fault Refusal := fabStep s fun f => pieceDone f el id piece

end Sys2Proof.Machine
end

