-- ==== Sys2Proof/Machine/MemEv.lean ====
section
/-! DEFINITION. Answers to memory requests and accesses at memory sides (R197, R203, R204, R208, R214-R231, R366): MEMORY_ANSWER,
FAULT_ANSWER, RETRY_ANSWER, ROUTE_SETUP, ROUTE_ACCESS, STRIPE_ACCESS, RMW_COMPLETE, WAVE_RELEASE, INDIRECT_STREAM_COMMAND and
INDIRECT_LANE_COMPLETE. -/

namespace Sys2Proof.Machine

/-! ## Completion (R214, R215) -/

/-- A failed store counted in a failure record (R239). -/
def FailRec.add (r : FailRec) (cause : BitVec 2) (addr : Nat) : FailRec :=
  ⟨min (r.count + 1) 255, r.causes ||| ((1 : BitVec 3) <<< (cause.toNat - 1)), if r.count = 0 then cause else r.first,
    if r.count = 0 then BitVec.ofNat 48 addr else r.addr⟩

/-- An answer with FAIL is counted for its context and noted in its firing (R215). -/
def noteFail (f : Fabric) (el : Nat) (p : Pend) (a : Ans) : Fabric × Pend :=
  if a.fail then
    let addr := if p.store && decide (a.lane < p.args.length) && !p.isMx && decide (p.op ≠ 0x9F) then (p.args.getD a.lane 0).toNat else p.target
    let r := (((f.el el).residentOf p.set.ctx).map (·.fail)).getD FailRec.empty
    (if p.store then f.modEl el fun e => e.setFail p.set.ctx (r.add a.cause addr) else f,
      if p.fail then p else { p with fail := true, cause := a.cause })
  else (f, p)

/-- Accesses in a block's store buffer are looked at again after a completion (R227). -/
def Fabric.askRelease (f : Fabric) (el : Nat) : Fabric :=
  let bk := bufOf el
  if (f.blk bk).buffer.isEmpty || f.agenda.contains (.waveRelease bk) then f else f.post (.waveRelease bk)

/-- The flags of a load in an MX format are known, or it ends without any: the CSRRs of EL.AFLAGS that issued after it take them in, and
one that waits for no other load emits (R92). Their records hold the firings they wait for in `args`, the register in `a`. -/
def flagsKnown (f : Fabric) (el id : Nat) (fl : Flags) : Fabric :=
  ((f.el el).pend.filter fun q => decide (q.op = 0xF4) && q.args.contains (w64 id)).foldl (fun f q =>
    let q := { q with args := q.args.erase (w64 id), a := q.a ||| fl.setWidth 64 }
    if q.args.isEmpty then complete f el q [q.raw q.d q.a, q.ordOut q.e] else f.modEl el fun e => e.setPend q) f

/-- The end of a memory form: its tokens (R214), unless a flag it raised on the way is enabled (R91; phase 901). Its flags count as set at
its issue: those that a CSRW has cleared since stay clear (R92). -/
def memDone (f : Fabric) (el : Nat) (p : Pend) (fl : Flags) : Fabric :=
  let f := if p.owesFlags then flagsKnown f el p.id fl else f
  let p := { p with outs := p.outs ++ memOuts p, left := 0 }
  let f := f.modEl el fun e => e.addFlags (fl &&& ~~~(p.cleared.setWidth 6))
  if (f.el el).traps fl then parkRetire f el p .arith (fl.setWidth 32) 901
  else (settle f el p).askRelease el

/-- What an answer gives its lane: the value, or an invalid lane (R231). -/
def Pend.took (p : Pend) (a : Ans) : Pend :=
  let valid := if a.valid then p.valid else if p.isMx then 0 else setFld p.valid a.lane a.lane 0
  if p.phase = 11 then { p with args := p.args.set a.lane a.val }
  else { p with vals := p.vals.set a.lane a.val, valid := if isLoadOp p.op || isIndirect p.op || isAtomicOp p.op then valid else p.valid }

/-! ## MX arrays by virtual address (R223) -/

/-- The blocks of a run: first and end. -/
def Pend.mxRange (p : Pend) (d : MxDesc) (L : Nat) : Nat × Nat := (p.base / d.n, p.base / d.n + L / d.n)

/-- The blocks as loaded, from the words that came: elements, scales, flags. -/
def mxBlocks (d : MxDesc) (b8 : Byte) (addr : Nat) (scales : List Nat) (words : List DWord) (lo hi : Nat) : List DWord × List Nat × Flags :=
  (List.range (hi - lo)).foldl (fun acc i =>
    let codes := match d.blockAddr addr scales (lo + i) with
      | some _ => wordBytes ((words.drop (d.n / 8 * i)).take (d.n / 8))
      | none => []
    let b := mxBlock d b8 (scales.getD (lo + i) 0) codes
    (acc.1 ++ b.1, acc.2.1 ++ [b.2.1], acc.2.2 ||| b.2.2)) ([], [], 0)

/-- A trap found in an array: the record parks with the step to do again. -/
def mxBad (f : Fabric) (el : Nat) (p : Pend) : Fabric :=
  parkAccess (f.putPend el { p with left := 1 }) el p.id ⟨0, .trap, .format, p.slotW, true, none⟩

/-- The last step of an MX load. -/
def mxEnd (f : Fabric) (el : Nat) (p : Pend) (d : MxDesc) (lo hi : Nat) : Fabric :=
  let b8 := Image.b8mode ((f.el el).imageOf p.set.ctx)
  let x := mxBlocks d b8 p.a.toNat (p.args.map (·.toNat)) p.vals lo hi
  memDone f el { p with vals := x.1, args := x.2.1.map w64, cnt := d.n } x.2.2

/-- What follows once all answers of a step of an MX access have come: phase 10 the descriptor, 11 the scale words, 12 the
elements of a load, whose run length is then in `cur`; 20 the old descriptor, 21 the words of a store. -/
def mxNext (f : Fabric) (el : Nat) (p : Pend) (val : DWord) : Fabric :=
  let isI8 := decide (p.fin = 13)
  let L := if p.phase = 10 then p.vals.length else p.cur
  if p.phase = 20 then
    if !mxReplaces val p.args.length then mxBad f el p
    else
      let ws := mxImage p.a.toNat p.cnt isI8 (p.args.map (·.toNat)) p.vals
      sendAll f el { p with phase := 21, left := ws.length } ((ws.zipIdx).map fun x => f.mkReq el p x.2 .store 8 x.1.1 x.1.2 0)
  else if p.phase = 21 then memDone f el p 0
  else if p.phase = 10 then
    match mxDesc val with
    | none => mxBad f el p
    | some d =>
      if !d.fits isI8 p.base L then mxBad f el p
      else
        let n := ((p.mxRange d L).2 + 7) / 8
        sendAll f el { p with phase := 11, left := n, c := val, cur := L, args := List.replicate n 0 }
          ((List.range n).map fun j => f.mkReq el p j .load 8 (p.a.toNat + 8 + 8 * j) 0 0)
  else
    match mxDesc p.c with
    | none => mxBad f el p
    | some d =>
      let r := p.mxRange d L
      if p.phase = 11 then
        let scales := ((wordBytes p.args).take r.2).map (·.toNat)
        let qs := (List.range (r.2 - r.1)).flatMap fun i =>
          match d.blockAddr p.a.toNat scales (r.1 + i) with
          | some b => (List.range (d.n / 8)).map fun j => f.mkReq el p (d.n / 8 * i + j) .load 8 (b + 8 * j) 0 0
          | none => []
        let p := { p with phase := 12, left := qs.length, args := scales.map w64, vals := List.replicate (L / 8) 0 }
        if qs.isEmpty then mxEnd f el p d r.1 r.2 else sendAll f el p qs
      else mxEnd f el p d r.1 r.2

/-- MEMORY_ANSWER (R214). -/
def memAnswer (f : Fabric) (a : Ans) : Fabric :=
  if 131072 ≤ a.el || (f.rawOf a.el a.id a.lane).isSome then f.answer a
  else
    match (f.el a.el).pendOf a.id with
    | none => f
    | some p =>
      let el := a.el
      if p.phase = 1000 ∨ p.phase = endedPhase ∨ p.left = 0 then f
      else if p.op = 0xA2 then peerWord f el p a
      else if p.op = 0xFB then migAnswered f el p
      else
        let x := noteFail f el p a
        let f := x.1
        let p := x.2.took a
        if isIndirect p.op then (f.putPend el p).post (.indirectLaneComplete el p.id a.lane)
        else
          let p := { p with left := p.left - 1 }
          if p.op = 0xD4 then settle f el { p with outs := if p.left = 0 then gradOuts p else p.outs }
          else if p.left ≠ 0 then f.putPend el p
          else if p.op = 0xC8 then rbindAnswered f el p
          else if p.op = 0xD8 ∨ p.op = 0xD9 then edgeAnswered f el p
          else if p.isMx ∧ 10 ≤ p.phase ∧ p.phase ≤ 21 then mxNext f el p a.val
          else memDone f el p 0

/-! ## Indirect streams (R208, R224): `cnt` is the mask of lanes sent, `cur` of lanes done -/

/-- Is lane k of a stream parked? -/
def Pend.laneParked (p : Pend) (k : Nat) : Bool := p.accs.any fun a => decide (a.lane = k)
/-- The address of lane k. -/
def Pend.laneAddr (p : Pend) (k : Nat) : Nat := (p.args.getD k 0).toNat

/-- An engine sends lane k of a stream, after its predecessor (R433), or finds its fault (R224). -/
def sendLane (f : Fabric) (el : Nat) (p : Pend) (k : Nat) (pred : Option Nat) : Fabric :=
  let a := p.laneAddr k
  let q : Req := { f.mkReq el p k (if isGather p.op then .load else .store) p.bytes a (p.vals.getD k 0) 0 with ukind := 1, pred := pred }
  let p := { p with cnt := p.cnt ||| 2 ^ k }
  let f := f.putPend el p
  if 2 ^ 46 ≤ a then parkAccess f el p.id ⟨k, .trap, .page, pageInfo 3 (a % 2 ^ 46), true, none⟩
  else
    match f.vaStop el q.priv q.op false q.bytes a with
    | some (.trap c info) => parkAccess f el p.id ⟨k, .trap, c, info, true, none⟩
    | _ =>
      let f := match isOrdered p.op, f.home q.part a with
        | true, some sd => if a / 2 ^ 40 = 0x3F then f else f.modDie sd fun d => { d with outst := d.outst ++ [(el, q.oid)] }
        | _, _ => f
      f.sendReq q

/-- Lanes of an ordered stream leave in lane order: a lane whose 64 KiB piece holds a lane before it that is on its way waits, and
so do all behind it; one whose piece holds only parked lanes, or lanes held for one, is passed over (R367). -/
def pumpOrdered (el id : Nat) : Fabric → List Nat → List Nat → Fabric
  | f, _, [] => f
  | f, before, k :: r =>
    match (f.el el).pendOf id with
    | none => f
    | some p =>
      if p.cur.testBit k then pumpOrdered el id f before r
      else
        let open' := before.filter fun i => !p.cur.testBit i
        if p.cnt.testBit k then pumpOrdered el id f (before ++ [k]) r
        else
          let clash := open'.filter fun i => decide (p.laneAddr i / 65536 = p.laneAddr k / 65536)
          if clash.any fun i => p.cnt.testBit i && !p.laneParked i then f
          else if !clash.isEmpty then pumpOrdered el id f (before ++ [k]) r
          else
            let part := f.partOf el
            let pred := (open'.filter fun i => p.cnt.testBit i && !p.laneParked i
              && decide (f.home part (p.laneAddr i) = f.home part (p.laneAddr k))).getLast?
            pumpOrdered el id (sendLane f el p k (pred.map fun i => 64 * id + i)) (before ++ [k]) r

/-- The lanes of a stream that may leave now do. -/
def pumpStream (f : Fabric) (el id : Nat) : Fabric :=
  match (f.el el).pendOf id with
  | none => f
  | some p =>
    if p.phase ≠ 41 then f
    else if isOrdered p.op then pumpOrdered el id f [] p.onLanes
    else (p.onLanes.filter fun k => !p.cnt.testBit k).foldl (fun f k =>
      match (f.el el).pendOf id with | some p => sendLane f el p k none | none => f) f

/-- INDIRECT_STREAM_COMMAND (R208). -/
def streamCmd (f : Fabric) (el id : Nat) : Fabric :=
  match (f.el el).pendOf id with
  | none => f
  | some p => if p.phase ≠ 40 then f else engineCmd f el { p with cnt := 0, cur := 0 } fun f p => pumpStream f el p.id

/-- INDIRECT_LANE_COMPLETE (R208, R224): a tagged gather emits the lane at once; the last lane ends the stream and frees its
place. -/
def laneDone (f : Fabric) (el id k : Nat) : Fabric :=
  match (f.el el).pendOf id with
  | none => f
  | some p =>
    if p.cur.testBit k || decide (p.left = 0) then f
    else
      let p := { p with cur := p.cur ||| 2 ^ k, left := p.left - 1 }
      let on := bit p.valid k
      let o : Out := { p.value p.d false (if on then 1 else 0) [if on then p.vals.getD k 0 else 0] with f0 := some (p.base + k) }
      let p := if p.op = 0xA0 ∧ p.grant then { p with outs := p.outs ++ [o] } else p
      let f := f.putPend el p
      let f := if p.op = 0xA0 ∧ ¬ p.grant then emitNow f el p o else f
      if p.left = 0 then
        let p := ((f.el el).pendOf id).getD p
        (memDone f el { p with phase := 0 } 0).freePlaces (f.partOf el)
      else pumpStream f el id

/-! ## Faults and retries (R365, R366) -/

/-- FAULT_ANSWER (R366): the access parks, at its base die if the park store holds it, and the record is sent. -/
def faultIn (f : Fabric) (q : Req) (c : Cause) (info : Word) : Fabric :=
  match f.rawOf q.el q.id q.lane, (f.el q.el).pendOf q.id with
  | some r, _ => f.rawStop r 2 [w64 c.code, info.setWidth 64]
  | none, none => f
  | none, some p =>
    if p.op = 0xA2 then peerFault f q.el p c info
    else
      let stored := f.dies.any fun x => x.2.park.contains (q, c, info)
      let f := parkAccess f q.el q.id ⟨q.lane, .trap, c, info, true, if stored then none else some q⟩
      if isOrdered p.op then pumpStream f q.el q.id else f

/-- RETRY_ANSWER (R339, R365): the access waits under QUEUE. -/
def retryIn (f : Fabric) (q : Req) : Fabric := parkAccess f q.el q.id ⟨q.lane, .queue, .stalled, 0, true, some q⟩

/-! ## Routes (R203, R219) -/

/-- The end of a routed access of lanes: values, answers owed, and what was deferred. -/
def routeServed (f : Fabric) (dst : Nat) (q : Req) (p : Pend) (x : Element × List (Nat × Option DWord) × List Ans) : Fabric :=
  let f := f.afterServe dst x.1 x.2.2
  let p := { p with cur := 1 }
  if q.op = .store then (f.putPend q.el p).answerReq q 0
  else
    let late := x.2.1.countP (·.2.isNone)
    let f := f.putPend q.el (if late = p.left then { p with phase := 2000 } else p)
    let f := if late = p.left then wakeDone f q.el else f
    x.2.1.foldl (fun f y => match y.2 with | some v => f.answerReq { q with lane := y.1 } v | none => f) f

/-- ROUTE_ACCESS (R219): the access acts on its window as the window's role gives; one that waits there holds its route, but a load that
finds no free reader record parks under DEFER at its element (R198). None changes an element whose image SAVE has written (R353). -/
def routeStep (f : Fabric) (dst win : Nat) (q : Req) : Fabric :=
  match (f.el q.el).pendOf q.id with
  | none => f
  | some p =>
    let w := tget (0 : Word) (f.el dst).wins win
    let a := winBase w + q.addr
    let again := f.holdBack (.routeAccess dst win q)
    let route := if q.op = .load ∨ q.op = .store then w32 p.c.toNat else w32 (fld p.a 30 19)
    let stop := fun (c : Cause) (info : Word) => f.post (.faultAnswer q c info)
    if f.written dst || (f.el q.el).routeHeld q.id q.route then again
    else if winRole w = 0 then stop .illegal route
    else if winLen w ≤ q.addr then stop .align (w32 a)
    else if dst ≠ q.el && !f.blkAllows (blockOf dst) q.part q.priv q.ukind (ReqOp.needs q.op) then f.turnAway q 1 .access (w32 a)
    else
      match q.op with
      | .atomic _ _ =>
        if winRole w ≠ 4 ∧ winRole w ≠ 5 then stop .access (w32 a)
        else if 3 ≤ (f.el dst).rmw.length then again
        else ((f.modEl dst fun e => { e with rmw := e.rmw ++ [{ q with addr := a }] }).putPend q.el { p with cur := 1 }).post (.rmwComplete dst)
      | .load | .store =>
        let qs := p.onLanes.map fun k => { q with lane := k, bytes := p.bytes, addr := a + k * p.bytes, data := p.args.getD k 0 }
        match qs.find? fun x => decide (winBase w + winLen w < x.addr + x.bytes) && !(winRole w = 2 && decide (q.addr = 16)) with
        | some x => stop .align (w32 x.addr)
        | none =>
          if q.op = .store && qs.any (fun x => (f.el dst).guarded x.addr) && f.releaseHeld q then again
          else match serveRun (readerRec ((f.el q.el).imageOf p.set.ctx) p) p.set.slot (q.op = .store) (f.el dst) qs a with
          | .ok x => routeServed f dst q p x
          | .error (.trap c info) => stop c info
          | .error (.park .defer _) => parkAccess (f.putPend q.el { p with cur := 1 }) q.el q.id ⟨q.lane, .defer, .stalled, 0, true, some q⟩
          | .error _ => again
      | _ =>
        match (f.el dst).serve (0, 0) p.set.slot { q with addr := a } with
        | .done e _ ans => ((f.afterServe dst e ans).putPend q.el { p with cur := 1 }).answerReq q 0
        | .trap c info => stop c info
        | _ => again

/-! ## The stripe space (R204) -/

/-- STRIPE_ACCESS (R204): the access is performed at its member element. A peer's is mapped with LO of the partition's first
block. -/
def stripeStep (f : Fabric) (q : Req) : Fabric :=
  match f.stripeAt (f.stripeIssuer q) (q.addr % 2 ^ 40) with
  | none => f.faultAt none q .access (w32 q.addr)
  | some (m, a) =>
    let slot := (((f.el q.el).pendOf q.id).map (·.set.slot)).getD 0
    let again := f.holdBack (.stripeAccess q)
    let plain := f.belowReserve m a
    let r := { q with addr := a, fe := plain }
    let back := fun (c : Cause) (info : Word) => f.faultAt none q c info
    if f.written m then again
    else if m ≠ q.el && !f.blkAllows (blockOf m) q.part q.priv q.ukind (if q.eng then 3 else ReqOp.needs q.op) then f.turnAway q 1 .access (w32 a)
    else
      let guarded := !plain && (f.el m).guarded a
      let serve := fun (x : DWord × DWord) => if plain then (f.el m).servePlain slot r else (f.el m).serve x slot r
      match q.op with
      | .pref => f.answerReq q 0
      | .atomic _ _ =>
        match serve (0, 0) with
        | .trap c info => back c info
        | _ =>
          if 3 ≤ (f.el m).rmw.length then again
          else (f.modEl m fun e => { e with rmw := e.rmw ++ [r] }).post (.rmwComplete m)
      | _ =>
        if q.eng && decide (q.op = .store) && guarded then back .access (w32 a)
        else if guarded && decide (q.op = .store) then f.guardStore (.stripeAccess q) (.member m a) q
        else
          let rec' := match (f.el q.el).pendOf q.id with
            | some p => readerRec ((f.el q.el).imageOf p.set.ctx) p
            | none => (0, 0)
          match serve rec' with
          | .done e v ans => (f.afterServe m e ans).answerReq q (w64 v)
          | .deferred e => f.setEl m e
          | .trap c info => back c info
          | .park .defer => if 131072 ≤ q.el then again else parkAccess f q.el q.id ⟨q.lane, .defer, .stalled, 0, true, some q⟩
          | .park _ => again

/-! ## Atomics (R230) -/

/-- RMW_COMPLETE (R230): the oldest atomic of the pipeline writes and answers, and sets that wait for the pipeline are examined. -/
def rmwStep (f : Fabric) (el : Nat) : Fabric :=
  match (f.el el).rmw with
  | [] => f
  | q :: r =>
    let e : Element := { f.el el with rmw := r }
    match (if q.fe then e.servePlain 0 q else e.serve (0, 0) 0 q) with
    | .done e v _ => (f.setEl el (e.wakeReason .rmw)).answerReq q (w64 v)
    | .trap c info => (f.setEl el (e.wakeReason .rmw)).faultAt none q c info
    | _ => f.setEl el (e.wakeReason .rmw)

/-! ## Wave order (R227) -/

/-- May a buffered access be released: its link to the last released one, and that one's completion? -/
def waveReady (f : Fabric) (b : Block) (x : WaveAcc) : Bool :=
  match b.waveOf x.ctx x.tag with
  | none => false
  | some w =>
    let link := match w.last with
      | none => decide (fld x.lit 31 22 = 0) && !bit x.lit 1
      | some p => (decide (fld p 21 12 = fld x.lit 31 22) && !bit x.lit 1) || (decide (fld p 11 2 = fld x.lit 21 12) && !bit p 0)
    let open' := match (f.el w.lastEl).pendOf w.lastId with | some p => p.incomplete | none => false
    link && (w.last.isNone || (w.lastLoad && x.load) || !open')

/-- A released access is performed; phase 3001 marks one that its memory side holds back or that raised a trap there, which keeps its
place in the order of release. -/
def performReleased (f : Fabric) (el : Nat) (p : Pend) : Fabric :=
  let late := { p with phase := 3001, left := 1 }
  let keep := fun f : Fabric => (f.putPend el late).modBlk (bufOf el) fun b => { b with late := b.late ++ [(el, p.id)] }
  match perform f el { p with phase := 0, left := 0 } with
  | .done f p fl => memDone f el p fl
  | .wait f p => f.putPend el p
  | .stop (.trap c info) => parkAccess (keep f) el p.id ⟨0, .trap, c, info, false, none⟩
  | .stop _ =>
    let g := keep f
    if g.agenda.contains (.waveRelease (bufOf el)) then g else g.post (.waveRelease (bufOf el))

/-- The elements whose accesses a store buffer takes. -/
def Fabric.bufEls (f : Fabric) (bk : Nat) : List Nat := (f.els.map (·.1)).filter fun x => bufOf x = bk

/-- The released accesses of a store buffer that their memory side holds back are tried again, in release order; one that waits for the
answer to its trap keeps its place (R227). -/
def Fabric.waveLate (f : Fabric) (bk : Nat) : Fabric :=
  (f.blk bk).late.foldl (fun (f : Fabric) x => match (f.el x.1).pendOf x.2 with
    | some p =>
      if p.phase ≠ 3001 then f
      else if p.accs.isEmpty then performReleased f x.1 p
      else f.modBlk bk fun b => { b with late := b.late ++ [x] }
    | none => f) (f.modBlk bk fun b => { b with late := [] })

/-- WAVE_RELEASE (R227): the accesses held back are performed where they can be, and the first that its wave allows is released. -/
def waveStep (f : Fabric) (bk : Nat) : Fabric :=
  let f := f.waveLate bk
  let b := f.blk bk
  match b.buffer.find? (waveReady f b) with
  | none => f
  | some x =>
    let ends := decide (fld x.lit 11 2 = 0) && !bit x.lit 0
    let f := f.modBlk bk fun b => { b with
      buffer := b.buffer.erase x
      waveTab := if ends then b.waveTab.filter fun w => !(decide (w.ctx = x.ctx) && decide (w.tag = x.tag))
        else b.waveTab.map fun w => if w.ctx = x.ctx ∧ w.tag = x.tag then { w with last := some x.lit, lastEl := x.el, lastId := x.id, lastLoad := x.load } else w }
    let f := (f.bufEls bk).foldl (fun (f : Fabric) y => f.wakeFor y .wave) f
    let f := match (f.el x.el).pendOf x.id with
      | some p => performReleased f x.el p
      | none => f
    f.askRelease x.el

/-- MEMORY_ANSWER (R214). -/
def execMemoryAnswer (a : Ans) (s : State) : Host.Outcome State Fault Refusal := fabStep s fun f => memAnswer f a
/-- FAULT_ANSWER (R366). -/
def execFaultAnswer (q : Req) (c : Cause) (info : Word) (s : State) : Host.Outcome State Fault Refusal := fabStep s fun f => faultIn f q c info
/-- RETRY_ANSWER (R365). -/
def execRetryAnswer (q : Req) (s : State) : Host.Outcome State Fault Refusal := fabStep s fun f => retryIn f q
/-- ROUTE_SETUP (R203). -/
def execRouteSetup (el route : Nat) (s : State) : Host.Outcome State Fault Refusal :=
  fabStep s fun f => f.modEl el fun e => { e with routes := insertNat route e.routes }
/-- ROUTE_ACCESS (R219). -/
def execRouteAccess (dst win : Nat) (q : Req) (s : State) : Host.Outcome State Fault Refusal := fabStep s fun f => routeStep f dst win q
/-- STRIPE_ACCESS (R204). -/
def execStripeAccess (q : Req) (s : State) : Host.Outcome State Fault Refusal := fabStep s fun f => stripeStep f q
/-- RMW_COMPLETE (R230). -/
def execRmwComplete (el : Nat) (s : State) : Host.Outcome State Fault Refusal := fabStep s fun f => rmwStep f el
/-- WAVE_RELEASE (R227). -/
def execWaveRelease (bk : Nat) (s : State) : Host.Outcome State Fault Refusal := fabStep s fun f => waveStep f bk
/-- INDIRECT_STREAM_COMMAND (R208). -/
def execIndirectStreamCommand (el id : Nat) (s : State) : Host.Outcome State Fault Refusal := fabStep s fun f => streamCmd f el id
/-- INDIRECT_LANE_COMPLETE (R208). -/
def execIndirectLaneComplete (el id lane : Nat) (s : State) : Host.Outcome State Fault Refusal := fabStep s fun f => laneDone f el id lane

end Sys2Proof.Machine
end

