-- ==== Sys2Proof/Machine/CsrEv.lean ====
section
/-! DEFINITION. Register writes that travel to their register (R401): each is performed there and its CSRW completes. A write of a
guarded region completes when its zeroing ends (R429). -/

namespace Sys2Proof.Machine

/-- A CSRW whose write has taken effect completes with its ordering tokens, one that came as a message with its answer (R425). -/
def Fabric.csrAnswered (f : Fabric) (asker : Option (Nat × Nat)) : Fabric :=
  match asker with
  | none => f
  | some (el, id) =>
    match f.rawAt el id, (f.el el).pendOf id with
    | some r, _ => f.rawDone r 0 ⟨el, id, 0, 0, true, false, 0⟩
    | none, none => f
    | none, some p => (complete f el p [p.ordOut p.d, p.ordOut p.e]).askRelease el

/-- A register write does its work at its register, unless a dead link has lost it (R422). -/
def csrReach (f : Fabric) (w : CsrWr) (go : Fabric → Fabric) : Fabric :=
  match w.asker with
  | none => go f
  | some (el, id) =>
    if f.csrLost el w.unit w.key then
      match f.rawAt el id, (f.el el).pendOf id with
      | some r, _ => f.rawStop r 2 [w64 (Cause.code .data), 0]
      | none, some p => parkStep f el p 0 .data p.slotW
      | none, none => f
    else go f

/-- A write performed at its register. -/
def csrArrives (f : Fabric) (w : CsrWr) : Fabric := csrReach f w fun f => (f.csrWrite w.unit w.key w.num w.val).csrAnswered w.asker

/-- A write of BD.GUARDn (R429): ignored where it may not be; else the region it makes valid, or the one it ends, is zeroed
first. -/
def guardArrives (f : Fabric) (w : CsrWr) : Fabric := csrReach f w fun f =>
  let n := w.num - 0x208
  let v := keepFlds w.val [(63, 63), (31, 0)]
  if f.guardBad w.key n v then f.csrAnswered w.asker
  else if bit v 63 || bit (f.bd w.key w.num) 63 || (f.die w.key).zeroing.any (fun z => decide (z.1 = n)) then
    (f.modDie w.key fun d => { d with zeroing := d.zeroing ++ [(n, v, w.asker)] }).post (.guardZeroDone w.key n)
  else (f.setBd w.key w.num v).csrAnswered w.asker

/-- A write of BD.FATIKn (R440): the element takes no new command, and loads its image once it is drained. -/
def fatikArrives (f : Fabric) (w : CsrWr) : Fabric := csrReach f w fun f =>
  let n := w.num - 0x228
  let f := f.setBd w.key w.num (keepFlds w.val [(56, 7), (0, 0)])
  let f := if f.agenda.contains (.fatikImageLoad w.key n) then f else f.post (.fatikImageLoad w.key n)
  f.csrAnswered w.asker

/-- REGION_WRITE (R134, R135). -/
def execRegionWrite (w : CsrWr) (s : State) : Host.Outcome State Fault Refusal := fabStep s fun f => csrArrives f w
/-- WINDOW_WRITE (R192). -/
def execWindowWrite (w : CsrWr) (s : State) : Host.Outcome State Fault Refusal := fabStep s fun f => csrArrives f w
/-- AFLAGS_WRITE (R90). -/
def execAflagsWrite (w : CsrWr) (s : State) : Host.Outcome State Fault Refusal := fabStep s fun f => csrArrives f w
/-- SRSTATE_WRITE (R88). -/
def execSrstateWrite (w : CsrWr) (s : State) : Host.Outcome State Fault Refusal := fabStep s fun f => csrArrives f w
/-- LODEEN_WRITE (R245). -/
def execLodeenWrite (w : CsrWr) (s : State) : Host.Outcome State Fault Refusal := fabStep s fun f => csrArrives f w
/-- LODE_LINE_WRITE (R244, R247, R255). -/
def execLodeLineWrite (w : CsrWr) (s : State) : Host.Outcome State Fault Refusal := fabStep s fun f => csrArrives f w
/-- STAGES_WRITE (R327). -/
def execStagesWrite (w : CsrWr) (s : State) : Host.Outcome State Fault Refusal := fabStep s fun f => csrArrives f w
/-- PTROOT_WRITE (R354). -/
def execPtrootWrite (w : CsrWr) (s : State) : Host.Outcome State Fault Refusal := fabStep s fun f => csrArrives f w
/-- GUARD_WRITE (R429). -/
def execGuardWrite (w : CsrWr) (s : State) : Host.Outcome State Fault Refusal := fabStep s fun f => guardArrives f w
/-- RATECFG_WRITE (R434). -/
def execRatecfgWrite (w : CsrWr) (s : State) : Host.Outcome State Fault Refusal := fabStep s fun f => csrArrives f w
/-- FATIK_IMAGE_WRITE (R440). -/
def execFatikImageWrite (w : CsrWr) (s : State) : Host.Outcome State Fault Refusal := fabStep s fun f => fatikArrives f w
/-- CSR_REGISTER_WRITE (R401). -/
def execCsrRegisterWrite (w : CsrWr) (s : State) : Host.Outcome State Fault Refusal := fabStep s fun f => csrArrives f w

end Sys2Proof.Machine
end

