-- ==== Sys2Proof/Machine/System.lean ====
section
/-! DEFINITION. The system forms (R162, R402-R412): TRAP, RESUME, DISCARD, KILL, HCALL, CFGLD, CFGFL, PGMIG, SCRUB, RETIRE and
ATTEST. SAVE and RESTORE are in Machine/Save.lean. -/

namespace Sys2Proof.Machine

/-! ## Shared checks -/

/-- The low 32 bits of a form's a operand: lane 0's where a is a run (R397). -/
def FCtx.aLow (c : FCtx) : Word :=
  match c.tok c.a with
  | some t => w32 (t.lane 0).toNat
  | none => w32 c.ra.toNat

/-- A system form that names a unit of another partition (R397, R412): ACCESS below HYP. -/
def FCtx.mine (c : FCtx) (part : Nat) (k : Except Stop Res) : Except Stop Res :=
  if part ≠ c.part ∧ c.priv ≠ 2 then .error (.trap .access c.aLow) else k

/-- A record of this firing that waits for one answer. -/
def FCtx.waits (_c : FCtx) (f : Fabric) (p : Pend) : Except Stop Res := .ok (Res.of f 0 [] (some { p with left := 1 }))

/-! ## TRAP, HCALL -/

/-- TRAP (R403). Note 2 marks a set that RESUME completes. -/
def trapForm (c : FCtx) : Except Stop Res :=
  let n := fld c.rb 7 0
  if c.s.note = 2 then c.emits [c.scalar c.d true c.ra, c.ord c.e]
  else match Cause.ofCode n with
    | some k => .error (.trap k (w32 (fld c.ra 31 0)))
    | none => .error (.trap .illegal (w32 n))

/-- HCALL (R406). Note 8 marks a set that RESUME answered, with Bedrock's result. -/
def hcallForm (c : FCtx) : Except Stop Res :=
  if c.s.note = 8 then c.emits [c.scalar c.d true c.s.arg, c.ord c.e]
  else if c.elt.storesPending c.ctx c.s.stamp then .error (.park .fence 0)
  else if destKind (BitVec.ofNat 32 (c.f.bk 0 9).toNat) ≠ 1 then .error (.trap .illegal (w32 (fld c.ra 31 0)))
  else .error (.late c.f { c.s with arg := c.rb } .hcall (w32 (fld c.ra 31 0)))

/-! ## Answers (R396, R404) -/

/-- The privilege of a context at an element: of its resident image, of the anchor's record, or of the directory's image. -/
def Fabric.privAt (f : Fabric) (el ctx : Nat) : Nat :=
  match (f.el el).residentOf ctx with
  | some r => Image.priv r.image
  | none =>
    match f.anchorOf el with
    | some an => (f.ctxPriv an el ctx).getD 0
    | none => (((f.dirEntry el ctx).bind (f.readImage (f.partOf el))).map Image.priv).getD 0

/-- RESUME and DISCARD: the record's element and context are checked, and the answer goes to the element. `args` holds the
record's first two lanes as they are, zero where a scalar has none, `b` the value for an HCALL. -/
def answerForm (c : FCtx) : Except Stop Res :=
  let lane := fun k : Nat => (match c.tok c.a with
    | some t => t.lane k
    | none => if k = 0 then c.ra else 0 : DWord)
  let el := fld (lane 1) 55 40
  c.mine (c.f.partOf el) <|
    if c.priv ≠ 2 ∧ c.priv < c.f.privAt el (fld (lane 0) 63 56) then .error (.trap .priv c.aLow)
    else c.waits (c.f.post (.handlerAnswerApply c.el c.id)) { c.pend with args := [lane 0, lane 1], b := if c.op = 0xF1 then c.rb else 0 }

/-! ## KILL (R405) -/

/-- The privilege of a context in a partition: the greatest that an image or an anchor's record of it has, else that of the
directory's image. -/
def Fabric.privIn (f : Fabric) (part el ctx : Nat) : Nat :=
  let imgs := (f.els.filter fun x => decide (f.partOf x.1 = part)).filterMap fun x => (x.2.residentOf ctx).map fun r => Image.priv r.image
  let ancs := (f.blks.filter fun x => decide (f.partOfBlk x.1 = part)).filterMap fun x => (tfind x.2.anchors ctx).bind fun a => if a.levels = restoredLevels then none else some a.priv
  match imgs ++ ancs with
  | [] => f.privAt el ctx
  | xs => xs.foldl max 0

/-- The operand tokens of a set. -/
def MSet.toks (s : MSet) : List Tok := s.a.toList ++ s.b.toList

/-- Is a slot's reader record taken out: the deferred readers that stay are linked anew, the others' records freed (R196)? -/
def Element.relink (e : Element) (gone : Deferred → Bool) (a : Nat) : Element :=
  match e.windowAt a with
  | none => e
  | some (_, w) =>
    let mine := e.defers.filter fun d => d.addr = a
    let keep := mine.filter fun d => !gone d
    let link := fun (e : Element) (r v : Nat) => e.putWord (recAddr w r + 8) (setFld (e.mem.word (recAddr w r + 8)) 63 48 v)
    let e := (mine.filter gone).foldl (fun (e : Element) d => (link e d.rcd (e.mem.word (winBase w)).toNat).putWord (winBase w) (w64 d.rcd)) e
    let e := (keep.zip ((keep.map (·.rcd)).tail ++ [0xFFFF])).foldl (fun (e : Element) x => link e x.1.rcd x.2) e
    let first := (keep.head?.map (·.rcd)).getD 0xFFFF
    let last := (keep.getLast?.map (·.rcd)).getD 0xFFFF
    { e.putWord a (setFld (setFld (e.mem.word a) 31 16 first) 15 0 last) with defers := e.defers.filter fun d => !(decide (d.addr = a) && gone d) }

/-- Deferred readers that meet a test leave an element's I-structure words. -/
def Element.undefer (e : Element) (gone : Deferred → Bool) : Element :=
  (((e.defers.filter gone).map (·.addr)).dedup).foldl (fun (e : Element) a => e.relink gone a) e

/-- An issued firing of a killed context: a routed access that is on its way, and the pieces of a copy that its engine has sent, run to
completion, their answers dropped (R405, R415); every other is withdrawn, a copy's parked pieces and those not sent with it. -/
def Pend.dying (p : Pend) : Option Pend :=
  let bare := { p with
    d := 0x1F, e := 0x1F, t := 0, grant := false, outs := [], masked := false, ordered := false, placed := false, accs := [], dead := true }
  if p.routed && decide (p.left ≠ 0) && p.accs.isEmpty && decide (p.phase = 0) then some bare
  else if p.op = 0xA2 && [41, 50, 51].contains p.phase then
    let q := { bare with args := p.args.set 0 (w64 (min p.copyLen (64 * p.cur))) }
    let q := p.accs.foldl (fun (q : Pend) a => q.markPiece a.lane) q
    if q.copyOver then none else some q
  else none

/-- An element without a context: its tokens, sets, firings and bookkeeping are gone, and how many tokens were dropped. `skip`
is the KILL's own firing. -/
def Element.without (e : Element) (ctx : Nat) (keepId : Option Nat) : Element × Nat :=
  let of := fun t : Tok => decide (t.ctx = ctx)
  let inFrame := e.frameAll (e.frameEntry ctx) false
  let sets := (e.ready.filter fun s => s.ctx = ctx) ++ ((e.parked.filter fun x => x.set.ctx = ctx).map (·.set))
  let mineSink := e.sink.filter of
  let n := (e.store.countP fun x => of x.tok) + inFrame.length + (e.missBuf.countP fun x => of x.tok) + (e.parkedToks.countP fun x => of x.tok)
    + (sets.map fun s => s.toks.length).sum + (e.probes.countP fun x => of x.1.tok) + (e.delays.countP fun x => decide (x.2.set.ctx = ctx))
    + mineSink.length + (e.area.countP fun x => of x.tok)
  let w := e.frameEntry ctx
  let e := inFrame.foldl (fun (e : Element) x => e.frameTake w x.1) e
  let lines := (e.arrivedBy.filter fun x => x.2 = ctx).map (·.1)
  ({ e with
      slots := e.slots.filter fun x => x.2.ctx ≠ ctx
      store := e.store.filter fun x => !of x.tok
      missBuf := e.missBuf.filter fun x => !of x.tok
      parkedToks := e.parkedToks.filter fun x => !of x.tok
      ready := e.ready.filter fun s => s.ctx ≠ ctx
      parked := e.parked.filter fun x => x.set.ctx ≠ ctx
      probes := e.probes.filter fun x => !of x.1.tok
      delays := e.delays.filter fun x => x.2.set.ctx ≠ ctx
      loops := e.loops.filter fun g => g.pend.set.ctx ≠ ctx
      sink := e.sink.filter fun t => !of t
      area := e.area.filter fun x => !of x.tok
      offered := e.offered.filter fun o => !of o.tok
      outq := e.outq.filter fun x => !of x.2
      commits := e.commits.filter fun x => x.ctx ≠ ctx
      scales := e.scales.filter fun t => fld t.tag 63 56 ≠ ctx
      sentAt := tdel e.sentAt ctx
      arrived := lines.foldl (fun v i => setFld v i i 0) e.arrived
      arrivedBy := e.arrivedBy.filter fun x => x.2 ≠ ctx
      pend := e.pend.filterMap fun p => if p.set.ctx ≠ ctx ∨ some p.id = keepId then some p else p.dying }, n)

/-- A context's counters back at their bounds (R405). -/
def AnchorCtx.bounds (x : AnchorCtx) : AnchorCtx :=
  { x with credits := (List.range 12).map (fun i => if i < x.levels then fld x.h2 (4 * i + 3) (4 * i) + 1 else 0), pool := poolOf x.poolSize }

/-- A block controller without a context: its counters are back at their bounds, or, where they are those of a saved area that no image has
come for yet, gone, so that its next image sets them (R135); the contexts' firings that a KILL withdraws are listed in `gone` by element and id. -/
def Block.without (b : Block) (ctx : Nat) (gone : List (Nat × Nat)) : Block :=
  { b with
    anchors := (b.anchors.filter fun p => !(decide (p.1 = ctx) && decide (p.2.levels = restoredLevels))).map fun p => if p.1 = ctx then (p.1, p.2.bounds) else p
    held := b.held.filter fun h => !(decide (h.ctx = ctx) && gone.contains (h.el, h.id))
    csws := b.csws.filter fun j => !gone.contains (j.el, j.id)
    buffer := b.buffer.filter fun x => x.ctx ≠ ctx
    waveTab := b.waveTab.filter fun x => x.ctx ≠ ctx
    misses := b.misses.filter fun m => m.2 ≠ ctx }

/-- A base die without a context's parked requests and deferred readers. -/
def BaseDie.without (d : BaseDie) (part ctx : Nat) : BaseDie :=
  let mine := fun q : Req => decide (q.el < 131072) && decide (q.part = part) && decide (q.ctx = ctx)
  { d with park := d.park.filter fun x => !mine x.1, deferred := d.deferred.filter fun x => !mine x.2 }

/-- Does a set wait for a place that its element gives: a commit entry, an answer place, a place of the delay line or of the reorder unit
(R140, R146, R340, R367)? -/
def Parked.forPlace (x : Parked) : Bool :=
  x.reason == .commit || x.reason == .delay || x.reason == .order || (x.reason == .queue && decide (x.on = 1))

/-- The effect of a KILL at issue, and how many tokens it dropped. -/
def killNow (f : Fabric) (part ctx : Nat) (self : Nat × Nat) : Fabric × Nat :=
  let els := (f.els.filter fun x => !isFatik x.1 && decide (f.partOf x.1 = part)).map (·.1)
  let withdrawn := els.flatMap fun el => ((f.el el).pend.filter fun p => decide (p.set.ctx = ctx) && decide ((el, p.id) ≠ self)).map fun p => (el, p)
  let gone := withdrawn.map fun x => (x.1, x.2.id)
  let f := (withdrawn.filter fun x => decide (x.2.op = 0xFB)).foldl (fun (f : Fabric) x => f.leafStore x.1 x.2 x.2.c) f
  let f := els.foldl (fun (f : Fabric) el => f.saveFail el ctx FailRec.empty) f
  let x := els.foldl (fun (x : Fabric × Nat) el =>
    let y := (x.1.el el).without ctx (if el = self.1 then some self.2 else none)
    (x.1.setEl el y.1, x.2 + y.2)) (f, 0)
  let reader := fun d : Deferred => decide (d.q.el < 131072) && decide (d.q.part = part) && decide (d.q.ctx = ctx)
  let f := (x.1.els.filter fun y => y.2.defers.any reader).foldl (fun (f : Fabric) y => f.modEl y.1 fun e => e.undefer reader) x.1
  let f := els.foldl (fun (f : Fabric) el => (flushOrder f el (f.el el).pend.length).modEl el fun e => e.wake Parked.forPlace) f
  let f := f.blks.foldl (fun (f : Fabric) y => if y.1 < 1024 ∧ f.partOfBlk y.1 = part then f.modBlk y.1 fun b => b.without ctx gone else f) f
  let f := (f.stacksOf part).foldl (fun (f : Fabric) sd => f.modDie sd fun d => d.without part ctx) f
  let f := { f with agenda := f.agenda.filter fun e => match e with | .scaleTokenArrive el t => !(decide (f.partOf el = part) && decide (fld t.tag 63 56 = ctx)) | _ => true }
  ((f.endContext part ctx (f.npkg self.1)).releaseDefer.freePlaces part, x.2)

/-- KILL (R405): the context of a record's tag, or a's bits 7:0; a the context, cnt the tokens dropped. -/
def killForm (c : FCtx) : Except Stop Res :=
  let run := (c.tok c.a).bind fun t => if t.vec then some t else none
  let ctx := match run with | some t => fld (t.lane 0) 63 56 | none => fld c.ra 7 0
  let part := match run with | some t => c.f.partOf (fld (t.lane 1) 55 40) | none => c.part
  c.mine part <|
    if c.priv < c.f.privIn c.part c.el ctx then .error (.trap .priv c.aLow)
    else
      let x := killNow c.f c.part ctx (c.el, c.id)
      match (c.f.blksOf c.part).head? with
      | none => .ok (Res.of x.1 0 [c.scalar c.d true (w64 (min x.2 0xFFFFFFFF)), c.ord c.e] none)
      | some bk =>
        let f := if x.1.agenda.contains (.regionWave bk) then x.1 else x.1.post (.regionWave bk)
        c.waits f { c.pend with a := w64 ctx, cnt := x.2 }

/-! ## CFGLD and CFGFL (R162, R408) -/

/-- CFGLD: a the table's address, b its HOLD and PIN bits. -/
def cfgldForm (c : FCtx) : Except Stop Res :=
  c.waits (c.f.post (.cfgldEntry c.el c.id)) { c.pend with a := w64 (fld c.ra 56 7 * 128), b := w64 (fld c.ra 1 0) }

/-- CFGFL: every copy of the context, or of every other one, in the partition is to leave. -/
def cfgflForm (c : FCtx) : Except Stop Res :=
  let hit := fun x : Nat => if bit c.ra 8 then decide (x ≠ c.ctx) else decide (x = fld c.ra 7 0)
  let keys := (c.f.els.filter fun x => !isFatik x.1 && decide (c.f.partOf x.1 = c.part)).flatMap fun x =>
    (x.2.slots.filter fun s => hit s.2.ctx).map fun s => (x.1, s.2.ctx)
  if keys.isEmpty then c.emits [c.scalar c.d true 0, c.ord c.e]
  else c.waits (c.f.postAll (keys.map fun k => .contextEvict k.1 k.2)) { c.pend with args := keys.map fun k => copyKey k.1 k.2 }

/-! ## PGMIG (R408) -/

/-- The level of a page size in address bits. -/
def bitsLevel (bits : Nat) : Nat := if bits = 30 then 1 else if bits = 21 then 2 else 3

/-- PGMIG: the page's leaf gets WP; the rest follows from its completion. -/
def pgmigForm (c : FCtx) : Except Stop Res :=
  let a := c.f.ownAddr c.ra.toNat
  let o := a % 2 ^ 46
  let aWord := w32 a
  if a % 65536 ≠ 0 then .error (.trap .align aWord)
  else if 2 ^ 46 ≤ a then .error (.trap .page (pageInfo 3 o))
  else
    let unmapped := Except.error (Stop.trap .page (pageInfo 0 o))
    match (c.f.home c.part a).bind fun sd => (c.f.translate sd c.part o).map fun x => (sd, x) with
    | none => unmapped
    | some (sd, leaf, bits, used) =>
      let base := fld (c.f.bd sd 0) 36 21 * 2 ^ 21
      let word := (used.getLast?).getD 0
      if a % 2 ^ bits ≠ 0 then .error (.trap .align aWord)
      else if pteLost leaf then .error (.trap .data (pageInfo 0 o))
      else if !pteV c.rb || !pteLeaf c.rb || pteWP c.rb || c.f.pteBad sd c.part (bitsLevel bits) c.rb then c.format
      else if word < base ∨ (fld (c.f.bd sd 0) 20 8 + 1) * 2 ^ 21 ≤ word - base then unmapped
      else
        let old := setFld leaf 58 58 0
        let p := { c.pend with a := w64 a, b := c.rb, c := old, base := bits, target := word - base, phase := 70 }
        c.waits (c.f.leafStore c.el p (setFld old 58 58 1)) p

/-! ## SCRUB, RETIRE, ATTEST (R409-R411) -/

/-- Is a block clear (R407)? -/
def Block.clear (b : Block) : Bool := (b.stopped && b.saved) || b.scrubbed

/-- A block as SCRUB leaves it (R410). The barriers that its elements were enrolled on are examined (R247). That of the block which serves its partition's launch window starts the window anew: this is where
the model has Bedrock's boot of a partition reset the launch register (R325; DESIGN CHOICE, log 5). -/
def scrubBlock (f : Fabric) (bk : Nat) : Fabric :=
  let keep := fun n : Nat => n = 9 || inRanges n [(0x20, 0x7F), (0x80, 0x8F)]
  let mine := f.els.filter fun x => !isFatik x.1 && decide (blockOf x.1 = bk)
  let lines := (List.range 64).filter fun n => mine.any fun x => bit (if n < 32 then x.2.lodeen0 else x.2.lodeen1) (n % 32)
  let f := mine.foldl (fun (f : Fabric) x =>
    f.setEl x.1 { Element.reset with arrivals := x.2.arrivals, nextId := x.2.nextId }) f
  let part := f.partOfBlk bk
  let f := if f.launchBlk part = bk then f.modLaunch part fun l => { Launch.reset with posted := l.posted, readout := l.readout } else f
  (f.modBlk bk fun b => { Block.reset with regs := b.regs.filter fun p => keep p.1, scrubbed := true }).postAll (lines.map .barrierRelease)

/-- A base die as SCRUB leaves it (R410); its dirty parity lines are written back first (R431). -/
def scrubDie (f : Fabric) (sd : Nat) : Fabric :=
  (f.flushParity sd).modDie sd fun d => { d with ways := [], hands := [], waitersUsed := 0, tlb := [], deferred := [], walkQ := [] }

/-- SCRUB. -/
def scrubForm (c : FCtx) : Except Stop Res :=
  let kind := fld c.ra 15 14
  let bk := fld c.ra 9 0
  let sd := fld c.ra 4 0
  let done := fun f : Fabric => Except.ok (Res.of f 0 [c.ord c.d, c.ord c.e] none)
  if kind = 0 then
    c.mine (c.f.partOfBlk bk) <|
      if (c.f.blk bk).clear || !bit (c.f.bk bk 0) 31 then done (scrubBlock c.f bk) else c.illegal
  else if kind = 1 ∧ sd < 24 then
    c.mine (c.f.partOfStack sd) <| if (c.f.die sd).park.isEmpty then done (scrubDie c.f sd) else c.illegal
  else c.format

/-- RETIRE: a stack that the package does not have lies outside every partition, and has no channel in service (R409, R412). -/
def retireForm (c : FCtx) : Except Stop Res :=
  let sd := fld c.ra 4 0
  let ch := fld c.ra 12 8
  if 24 ≤ sd then .error (.trap (if c.priv = 2 then .illegal else .access) c.aLow)
  else c.mine (c.f.partOfStack sd) <|
    if !c.f.mayRetire sd ch then .error (.trap .illegal (w32 c.ra.toNat))
    else c.waits (c.f.post (.channelRetirement sd ch c.el c.id)) { c.pend with a := c.ra }

/-- Bytes of an attestation report (R411). -/
abbrev reportBytes : Nat := 50368

/-- Is an event a report at the signer? -/
def isReport : Ev → Bool
  | .attestReportSigned _ _ => true
  | _ => false

/-- ATTEST. -/
def attestForm (c : FCtx) : Except Stop Res :=
  let a := c.ra.toNat
  if a % 8 ≠ 0 ∨ Config.elemBytes < a + reportBytes then .error (.trap .align (w32 a))
  else if 16 ≤ c.f.agenda.countP isReport then .error (.park .queue 0)
  else c.waits (c.f.post (.attestReportSigned c.el c.id)) { c.pend with a := c.ra }

/-- TRAP (R403). -/
def execTrap (a b d e : BitVec 5) (t : BitVec 4) (s : State) : Host.Outcome State Fault Refusal := fire 0xF0 a b d e t trapForm s
/-- RESUME (R404). -/
def execResume (a b d e : BitVec 5) (t : BitVec 4) (s : State) : Host.Outcome State Fault Refusal := fire 0xF1 a b d e t answerForm s
/-- DISCARD (R404). -/
def execDiscard (a b d e : BitVec 5) (t : BitVec 4) (s : State) : Host.Outcome State Fault Refusal := fire 0xF2 a b d e t answerForm s
/-- KILL (R405). -/
def execKill (a b d e : BitVec 5) (t : BitVec 4) (s : State) : Host.Outcome State Fault Refusal := fire 0xF3 a b d e t killForm s
/-- HCALL (R406). -/
def execHcall (a b d e : BitVec 5) (t : BitVec 4) (s : State) : Host.Outcome State Fault Refusal := fire 0xF6 a b d e t hcallForm s
/-- CFGLD (R162). -/
def execCfgld (a b d e : BitVec 5) (t : BitVec 4) (s : State) : Host.Outcome State Fault Refusal := fire 0xF7 a b d e t cfgldForm s
/-- CFGFL (R408). -/
def execCfgfl (a b d e : BitVec 5) (t : BitVec 4) (s : State) : Host.Outcome State Fault Refusal := fire 0xFA a b d e t cfgflForm s
/-- PGMIG (R408). -/
def execPgmig (a b d e : BitVec 5) (t : BitVec 4) (s : State) : Host.Outcome State Fault Refusal := fire 0xFB a b d e t pgmigForm s
/-- SCRUB (R410). -/
def execScrub (a b d e : BitVec 5) (t : BitVec 4) (s : State) : Host.Outcome State Fault Refusal := fire 0xFC a b d e t scrubForm s
/-- RETIRE (R409). -/
def execRetire (a b d e : BitVec 5) (t : BitVec 4) (s : State) : Host.Outcome State Fault Refusal := fire 0xFD a b d e t retireForm s
/-- ATTEST (R411). -/
def execAttest (a b d e : BitVec 5) (t : BitVec 4) (s : State) : Host.Outcome State Fault Refusal := fire 0xFE a b d e t attestForm s

end Sys2Proof.Machine
end

