-- ==== Sys2Proof/Machine/Save.lean ====
section
/-! DEFINITION. SAVE and RESTORE of a block (R347-R353, R407) with SAVE_WRITE: the drain, what is withdrawn, and the layout of
the area. Fields whose place a layout row leaves to the model are in log 16. -/

namespace Sys2Proof.Machine

/-! ## The drain (R348) -/

/-- The listed elements of a block. -/
def Fabric.listedEls (f : Fabric) (bk : Nat) : List Nat := (f.els.filter fun x => !isFatik x.1 && decide (blockOf x.1 = bk)).map (·.1)

/-- Is an item of a firing still without a place, or an entry of a CFGLD still to come? -/
def itemOf (el id : Nat) : Ev → Bool
  | .queueAccept q => q.asker == some (el, id)
  | .successorForward q => q.asker == some (el, id)
  | .cfgldEntry k n => decide (k = el) && decide (n = id)
  | _ => false

/-- The accesses of a firing that wait at an element whose image is written: over a route, or at a stripe member. -/
def Fabric.heldAccess (f : Fabric) (el id : Nat) : Ev → Bool
  | .routeAccess dst _ q => decide (q.firing = (el, id)) && f.written dst
  | .stripeAccess q => decide (q.firing = (el, id)) && ((f.stripeAt (f.stripeIssuer q) (q.addr % 2 ^ 40)).any fun x => f.written x.1)
  | _ => false

/-- Is an issued firing held on a trap, a fault, a full place, a held anchor request or a target that a SAVE has stopped or written, and
nothing of it on its way? -/
def Fabric.withdrawable (f : Fabric) (el : Nat) (p : Pend) : Bool :=
  let held := f.agenda.countP (f.heldAccess el p.id)
  (decide (0 < p.accs.length + held) && decide (p.left ≤ p.accs.length + held))
    || (decide (p.op = 0xF7) && decide (p.phase = 2))
    || (p.grant && f.isHeld el p.id && (decide (p.left = 0) || decide (0xC8 ≤ p.op)))
    || (inRanges p.op [(0xE8, 0xEA)] && f.agenda.any (itemOf el p.id))

/-- Is an event on its way to an element that meets a test? -/
def boundFor (T : Nat → Bool) : Ev → Bool
  | .tokenArrive el _ _ => T el
  | .scaleTokenArrive el _ => T el
  | .stageEntrySend el _ => T el
  | .grantArrive el _ _ => T el
  | _ => false

/-- Is a block drained, but for firings that can be withdrawn (R348)? No token may be on its way to it, nor to a block of its partition that
a SAVE has stopped before it, so that none is lost once the last of them is written (R353). -/
def Fabric.drained (f : Fabric) (bk : Nat) : Bool :=
  let bound := fun b => decide (b = bk) || ((f.blk b).stopped && decide (f.partOfBlk b = f.partOfBlk bk))
  !f.agenda.any (boundFor fun el => !isFatik el && bound (blockOf el))
    && (f.listedEls bk).all fun el =>
      let e := f.el el
      e.probes.isEmpty && (e.ready.all fun s => !s.answered) && e.delays.isEmpty && (e.commits.all fun x => x.held.isNone)
        && e.pend.all fun p => f.withdrawable el p || decide (p.phase = 1000) || decide (p.phase = loopPhase)

/-- How a withdrawn firing's set is parked (R348): on its trap, as its record says; for a grant that the anchor holds; or for a place. -/
def Fabric.parkedAgain (f : Fabric) (el : Nat) (p : Pend) : Parked :=
  match p.accs.find? fun a => a.reason == .trap with
  | some a => ⟨p.set, .trap, a.cause, a.info, (f.slotWord el p.set).toNat⟩
  | none => ⟨p.set, if p.grant then (if p.t = 4 ∨ p.op = 0x72 then .pool else .freeList) else .queue, .stalled, 0, 0⟩

/-- A STAGEQ DONE withdrawn while an item of it waits for a place: its firing is live again, with the handles whose items are still to come
(R334, R348). -/
def relive (f : Fabric) (el : Nat) (p : Pend) : Fabric :=
  if p.op ≠ 0xEA then f
  else
    let handle := fun q : Item => w64 (q.stage * 2 ^ 54 + q.port * 2 ^ 52)
    let first := (f.agenda.filter (itemOf el p.id)).filterMap fun e => match e with | .queueAccept q => some (handle q) | .successorForward q => some (handle q) | _ => none
    let stage := fld (Image.lit ((f.el el).imageOf p.set.ctx) (p.set.slot % 16)) 9 0
    match f.stage (f.stageBlk el) stage with
    | some s => f.modBlk s.anchor fun b => { b with lives := b.lives ++ [⟨stage, w32 p.a.toNat, first ++ p.args⟩] }
    | none => f

/-- A firing withdrawn without effect: its set is parked again with its stamp (R348). -/
def withdraw (f : Fabric) (el : Nat) (p : Pend) : Fabric :=
  let mine := fun q : Req => decide (q.el = el) && decide (q.id = p.id)
  let f := if p.owesFlags then flagsKnown f el p.id 0 else relive f el p
  let f := f.modEl el fun e => { (countDone e p).dropPend p.id with parked := e.parked ++ [f.parkedAgain el p] }
  let f := match f.anchorOf el with
    | some an => f.modBlk an fun b => { b with held := b.held.filter fun h => !(decide (h.el = el) && decide (h.id = p.id)) }
    | none => f
  let f := (f.dies.filter fun x => x.2.park.any fun y => mine y.1).foldl (fun (f : Fabric) x =>
    f.modDie x.1 fun d => { d with park := d.park.filter fun y => !mine y.1 }) f
  let f := { f with agenda := f.agenda.filter fun e => !(itemOf el p.id e || f.heldAccess el p.id e) }
  flushOrder f el (f.el el).pend.length

/-- A generator behind the first gives its credit back, and its header is ready again. -/
def withdrawLoop (f : Fabric) (el : Nat) (g : LoopGen) : Fabric :=
  let f := f.modEl el fun e => ({ e with loops := e.loops.erase g }.dropPend g.pend.id).toReady g.pend.set
  match f.anchorOf el with
  | some an => creditBack f an g.pend.set.ctx (depth g.pend.set.tag + 1)
  | none => f

/-- The blocks of a partition that are being saved together: each is written once all of them have drained (R348, R353). -/
def Fabric.savedWith (f : Fabric) (bk : Nat) : List Nat :=
  bk :: (f.blks.filter fun x => decide (x.1 < 1024) && x.2.stopped && !x.2.saved && decide (f.partOfBlk x.1 = f.partOfBlk bk) && decide (x.1 ≠ bk)).map (·.1)

/-- Everything of a block that is withdrawn. -/
def withdrawAll (f : Fabric) (bk : Nat) : Fabric :=
  (f.listedEls bk).foldl (fun f el =>
    let f := ((f.el el).pend.filter fun p => f.withdrawable el p).foldl (fun f p => withdraw f el p) f
    (f.el el).loops.tail.foldl (fun f g => withdrawLoop f el g) f) f

/-! ## The tokens of an element -/

/-- The tokens that a save takes out of an element, in stamp order (R348). The set of a generator's stop is not one of them: the
generator itself is saved. -/
def Element.saveToks (e : Element) : List Waiting :=
  let ofSet := fun s : MSet => s.toks.map fun t => (⟨t, s.stamp⟩ : Waiting)
  sortWaiting (e.store ++ e.ready.flatMap ofSet ++ (e.parked.filter fun x => x.set.note ≠ 5).flatMap (fun x => ofSet x.set)
    ++ (e.parkedToks.map fun x => (⟨x.tok, x.stamp⟩ : Waiting)) ++ e.missBuf ++ e.area ++ (e.sink.map fun t => (⟨t, e.arrivals⟩ : Waiting)))

/-- Tokens of the area; those beyond go to their frames. -/
abbrev areaToks : Nat := 192

/-- The tokens beyond the token area moved to their frames with M set; none where one finds no place. -/
def Element.overflow (e : Element) : List Waiting → Option Element
  | [] => some e
  | x :: r => (e.frameInsert (e.imageOf x.tok.ctx) (e.frameEntry x.tok.ctx) x true).bind fun e => Element.overflow e r

/-! ## Layout (R346, R349, R350) -/

/-- A number cut into n words, from an offset. -/
def numWords (off n v : Nat) : List (Nat × DWord) := (List.range n).map fun i => (off + 8 * i, w64 (v / 2 ^ (64 * i)))
/-- Fields of b bits packed from an offset, least significant first. -/
def packed (off b : Nat) (vs : List Nat) : List (Nat × DWord) :=
  let k := 64 / b
  (List.range ((vs.length + k - 1) / k)).map fun i =>
    (off + 8 * i, w64 (((List.range k).map fun j => vs.getD (k * i + j) 0 % 2 ^ b * 2 ^ (b * j)).sum))

/-- The registers at the head of a block's area, but for the acceptance counter. -/
def savedRegs : List Nat := [0] ++ (List.range 8).map (0x10 + ·) ++ [8, 1, 2, 3, 4, 5]

/-- A place's descriptor (log 16): stage, port, valid bit; stamp. -/
def placeWords (i : Nat) (p : Place) : List (Nat × DWord) :=
  (p.words.zipIdx).map (fun x => (0x3080 + 256 * i + 8 * x.2, x.1))
    ++ [(0xB080 + 16 * i, w64 (2 ^ 24 + p.port * 2 ^ 16 + p.stage)), (0xB088 + 16 * i, w64 p.stamp)]
/-- A live firing (log 16): sequence number, valid bit, handles, stage; the handles. -/
def liveWords (i : Nat) (l : Live) : List (Nat × DWord) :=
  (0xB880 + 64 * i, w64 (l.seq.toNat * 2 ^ 32 + 2 ^ 31 + l.succ.length * 2 ^ 16 + l.stage))
    :: (l.succ.zipIdx).map fun x => (0xB888 + 64 * i + 8 * x.2, x.1)

/-- The block area (R349). -/
def blockArea (f : Fabric) (bk : Nat) : List (Nat × DWord) :=
  let b := f.blk bk
  (savedRegs.zipIdx).map (fun x => (8 * x.2, f.bk bk x.1)) ++ [(0x78, w64 b.accStamp)]
    ++ b.anchors.flatMap (fun p => numWords (0x80 + 48 * p.1) 6
      (((p.2.credits.zipIdx).map fun x => x.1 * 2 ^ (8 * x.2)).sum + p.2.pool.toNat * 2 ^ 96))
    ++ (b.places.zipIdx).flatMap (fun x => placeWords x.2 x.1)
    ++ (b.lives.zipIdx).flatMap (fun x => liveWords x.2 x.1)
    ++ ((b.seqs.map (·.1) ++ b.lives.map (·.stage)).dedup).map fun n => (0xC880 + 8 * n, w64 ((tget (0 : Word) b.seqs n).toNat + (b.liveOf n).length * 2 ^ 32))

/-- The registers at the head of an element's area. -/
def Element.headRegs (e : Element) : List Nat :=
  [e.aflags.toNat, e.aftrap.toNat, e.srstate.toNat, e.mxcfg.toNat, e.selctl.toNat, e.selk.toNat, fld e.selpfx 31 0, fld e.selpfx 63 32,
    e.framedir.toNat, e.lodeen0.toNat, e.lodeen1.toNat, e.mismatch.toNat, e.stray.toNat, e.badtok.toNat]
    ++ (List.range 8).map fun j => (tget (0 : Word) e.wins j).toNat

/-- The trip count or descriptor address of a header's set. -/
def loopArg (f : Fabric) (el : Nat) (s : MSet) : DWord :=
  let w := Image.instr ((f.el el).imageOf s.ctx) s.slot
  FCtx.va (mkCtx f el s (fieldOp w).toNat (fieldA w).toNat (fieldB w).toNat (fieldD w).toNat (fieldE w).toNat (fieldT w).toNat) 0

/-- A place of the scale store: the tag; value, slot and valid bit (log 16). -/
def scaleWords (t : ScaleTok) : List DWord := [t.tag, w64 (t.val.toNat + t.slot * 2 ^ 16 + 2 ^ 24)]

/-- An element's area but for its banks (R350), with its tokens. -/
def elemArea (f : Fabric) (el : Nat) (toks : List Waiting) : List (Nat × DWord) :=
  let e := landAll (f.el el)
  packed 0 32 e.headRegs ++ [(0x58, w64 e.arrivals)]
    ++ e.gens.flatMap (fun p => [(0x80 + 32 * p.1, p.2.w0), (0x88 + 32 * p.1, p.2.w1), (0x90 + 32 * p.1, w64 (p.2.i0 % 2 ^ 32 + p.2.i1 % 2 ^ 32 * 2 ^ 32))])
    ++ e.slots.flatMap (fun p => (0x100 + 32 * p.1, w64 (p.2.ctx + 256 * (1 + 2 * p.2.pinned.toNat)))
        :: ((failWords p.2.fail).zipIdx).map fun x => (0x110 + 32 * p.1 + 8 * x.2, x.1))
    ++ (e.commits.zipIdx).flatMap (fun x => [(0x180 + 16 * x.2, w64 (x.1.ctx + 256)), (0x188 + 16 * x.2, x.1.tag)])
    ++ (e.scales.zipIdx).flatMap (fun x => ((scaleWords x.1).zipIdx).map fun y => (0x380 + 16 * x.2 + 8 * y.2, y.1))
    ++ packed 0x780 8 ((List.range 32).map fun i => (tget (0 : Byte) e.sw i).toNat)
    ++ packed 0x800 16 ((List.range 512).map fun i => (tget (0 : BitVec 16) e.weights i).toNat)
    ++ packed 0xC00 32 ((List.range 256).map fun i => (tget (0 : Word) e.acc i).toNat)
    ++ packed 0x1000 32 ((List.range 256).map fun i => (tget (0 : Word) e.hist i).toNat)
    ++ [(0x1400, w64 toks.length)]
    ++ (match e.loops with
      | g :: _ => [(0x1408, g.pend.set.tag), (0x1410, loopArg f el g.pend.set), (0x1418, w64 (g.ordinal % 2 ^ 32 + g.chunk * 2 ^ 32 + g.pend.set.slot * 2 ^ 40 + 2 ^ 48))]
      | [] => [])
    ++ (toks.zipIdx).flatMap (fun x => ((tokRecord x.1 3).zipIdx).map fun y => (0x1440 + 160 * x.2 + 8 * y.2, y.1))
    ++ packed 0x8F40 16 ((List.range 96).map fun b => match tfind e.owners b with | some c => 2 ^ 15 + c | none => 0)

/-- Words written into a range of a stack that was cleared first. -/
def Memory.layOut (m : Memory) (base len : Nat) (ws : List (Nat × DWord)) : Memory :=
  (ws.filter fun x => x.2 ≠ 0).foldl (fun (m : Memory) x => m.setWord (base + x.1) x.2) (m.clear base len)

/-- The offset of an element's area. -/
def elemAreaAt (e : Nat) : Nat := 0x10000 + 0x6A800 * e

/-- The dirty banks of an element written, and how many (R347, R348). -/
def writeBanks (m : Memory) (base : Nat) (e : Element) : Memory × Nat :=
  ((List.range 96).filter fun b => bit e.dirty b).foldl (fun (x : Memory × Nat) b =>
    let ws := encodeBank (e.bankWords b)
    ((x.1.setWords (base + 0x9000 + 0x1040 * b) ws).setWord (base + 0x8C40 + 8 * b) (w64 (2 ^ 63 + ws.length)), x.2 + 1)) (m, 0)

/-- The whole area of a block written into a stack at an offset: the fabric with the dirty bits cleared and the number of banks,
or none where a token finds no place. -/
def writeArea (f : Fabric) (bk sd base : Nat) : Option (Fabric × Nat) :=
  let els := (List.range 64).map fun i => (i, blockEl bk i)
  let moved := els.foldl (fun (g : Option Fabric) x => g.bind fun f =>
    ((f.el x.2).overflow ((f.el x.2).saveToks.drop areaToks)).map fun e => f.setEl x.2 e) (some f)
  moved.map fun f =>
    let m := ((f.die sd).mem).layOut base 0x10000 (blockArea f bk)
    let x := els.foldl (fun (x : Memory × Nat) y =>
      let at' := base + elemAreaAt y.1
      let keep := x.1.words (at' + 0x8C40) 96
      let m := (x.1.layOut at' 0x9000 (elemArea f y.2 ((f.el y.2).saveToks.take areaToks))).setWords (at' + 0x8C40) keep
      let z := writeBanks m at' (f.el y.2)
      (z.1, x.2 + z.2)) (m, 0)
    let f := f.modDie sd fun d => { d with mem := x.1 }
    ((f.listedEls bk).foldl (fun (f : Fabric) el => f.modEl el fun e =>
      let lines := (e.parked.filter fun p => p.reason == .lode && decide (p.set.note = 1)).map (·.on)
      { e with dirty := 0, arrived := lines.foldl (fun v n => if n < 64 then setFld v n n 0 else v) e.arrived }) f, x.2)

/-! ## SAVE -/

/-- The stack and offset of an area address, or none where it breaks R407. -/
def Fabric.areaAt (f : Fabric) (b : DWord) : Option (Nat × Nat) :=
  let sd := fld b 41 37
  let off := fld b 36 16 * 65536
  if fld b 63 42 ≠ 0 ∨ fld b 15 0 ≠ 0 ∨ 24 ≤ sd ∨ f.stackEnd sd < off + Config.saveAreaBytes then none else some (sd, off)

/-- The checks that SAVE and RESTORE share, in order: the block, its partition, the area. -/
def FCtx.areaRun (c : FCtx) (k : Nat → Nat × Nat → Except Stop Res) : Except Stop Res :=
  let bk := c.ra.toNat % 2 ^ 32
  if 1024 ≤ bk then .error (.trap .illegal (w32 bk))
  else c.mine (c.f.partOfBlk bk) <|
    match c.f.areaAt c.rb with
    | none => .error (.trap .align (w32 c.rb.toNat))
    | some x => c.mine (c.f.partOfStack x.1) (k bk x)

/-- SAVE (R407): the block stops, and is written once it has drained. a the block, base the stack, cnt the offset. -/
def saveForm (c : FCtx) : Except Stop Res :=
  c.areaRun fun bk x =>
    if (c.f.blk bk).stopped || (!isFatik c.el && decide (blockOf c.el = bk)) then .error (.trap .illegal (w32 bk))
    else c.waits ((c.f.modBlk bk fun b => { b with stopped := true, saved := false }).post (.saveWrite c.el c.id)) { c.pend with a := w64 bk, base := x.1, cnt := x.2 }

/-- A saved token arrives (R28, R348, R352): a trap record in the sink, any other with its stamp. -/
def Fabric.arriveAgain (f : Fabric) (el : Nat) (x : Waiting) : Fabric :=
  if x.tok.trapTok then (f.modEl el fun e => { e with sink := e.sink ++ [x.tok] }).post (.trapRecordDeliver el) else f.accept el x .packet

/-- Is a set parked for a place or a grant that a SAVE has withdrawn? -/
def Parked.withdrawn (x : Parked) : Bool := x.reason == .freeList || x.reason == .pool || (x.reason == .queue && decide (x.on ≠ 1))

/-- The contexts of an element whose held tokens may replay: resident, and active. -/
def Fabric.replayable (f : Fabric) (el : Nat) : List Nat :=
  ((f.el el).slots.map (·.2.ctx)).filter fun c => f.active (blockOf el) c && !((f.el el).heldToks c).isEmpty

/-- A block issues again: withdrawn sets are ready again, and what waits on its agenda-borne events is asked for. -/
def restart (f : Fabric) (bk : Nat) : Fabric :=
  let f := f.modBlk bk fun b => { b with stopped := false, saved := false, savedAt := none }
  let f := (f.listedEls bk).foldl (fun (f : Fabric) el =>
    let xs := sortWaiting (f.el el).area
    let f := f.modEl el fun e => { e.wake Parked.withdrawn with area := [] }
    let f := (f.replayable el).foldl (fun f c => f.askReplay el c) f
    let f := xs.foldl (fun f x => f.arriveAgain el x) f
    let f := if (f.el el).sink.isEmpty then f else f.post (.trapRecordDeliver el)
    if (f.el el).loops.isEmpty then f else f.post (.loopGeneratorEmit el)) f
  f.post (.stageFire bk)

/-- SAVE_WRITE (R348): once the block has drained, what its targets hold is withdrawn (phase 1), then the area is written. A token
without a place fails the SAVE, and the block runs on. -/
def saveStep (f : Fabric) (el id : Nat) : Fabric :=
  onPend f el id fun p =>
    let bk := p.a.toNat
    let again := fun f : Fabric => f.post (.saveWrite el id)
    let status := fun n : Nat => [p.raw p.d (w64 n), p.ordOut p.e]
    if (f.savedWith bk).any fun b => !f.drained b then again f
    else if (f.listedEls bk).any (fun x => (f.el x).pend.any (f.withdrawable x) || decide (1 < (f.el x).loops.length)) then again (withdrawAll f bk)
    else if (f.listedEls bk).any fun x => (f.el x).pend.any fun q => decide (q.phase ≠ loopPhase) then again f
    else match writeArea f bk p.base p.cnt with
      | none => complete (restart f bk) el p (status 2)
      | some (f, n) => complete (f.modBlk bk fun b => { b with saved := true, savedAt := some (p.base, p.cnt) }) el p (status (1 + n * 2 ^ 32))

/-! ## RESTORE (R352, R407) -/

/-- Fields of b bits read back. -/
def unpacked (m : Memory) (at' bytes n : Nat) : List Nat := (List.range n).map fun i => m.readN (at' + bytes * i) bytes

/-- A table of the values that are not zero. -/
def tableOf (w : Nat) (vs : List Nat) : Table (BitVec w) :=
  (vs.zipIdx).filterMap fun x => if x.1 = 0 then none else some (x.2, BitVec.ofNat w x.1)

/-- The block's registers, anchor states, queue places and live firings read back. A record of zeros is that of a context whose credits
and numbers are all taken where the context is resident in the region, and else none (DESIGN CHOICE, log 16). -/
def restoreBlock (f : Fabric) (bk : Nat) (m : Memory) (base : Nat) : Fabric :=
  let word := fun o => m.word (base + o)
  let f := (savedRegs.zipIdx).foldl (fun (f : Fabric) x => f.setBk bk x.1 (word (8 * x.2))) f
  let imgs := fun c : Nat => (f.els.filter fun p => !isFatik p.1 && (f.regionBlks bk).contains (blockOf p.1)).filterMap fun p => (p.2.residentOf c).map (·.image)
  let anchors := (List.range 256).filterMap fun c =>
    let n := m.readN (base + 0x80 + 48 * c) 48
    let x := anchorRestored ((List.range 12).map fun i => n / 2 ^ (8 * i) % 256) (BitVec.ofNat 256 (n / 2 ^ 96))
    match imgs c with
    | i :: r => some (c, { anchorNew i with credits := x.credits, pool := x.pool, priv := (r.map Image.priv).foldl max (Image.priv i) })
    | [] => if n = 0 then none else some (c, x)
  let places := (List.range 128).filterMap fun i =>
    let d := word (0xB080 + 16 * i)
    if !bit d 24 then none
    else
      let h := word (0x3080 + 256 * i)
      let n := if fld d 23 16 = 0 then max 1 (min 32 (pktLen h)) else 2
      some (⟨fld d 15 0, fld d 23 16, (word (0xB088 + 16 * i)).toNat, m.words (base + 0x3080 + 256 * i) n⟩ : Place)
  let lives := (List.range 64).filterMap fun i =>
    let d := word (0xB880 + 64 * i)
    if bit d 31 then some (⟨fld d 15 0, w32 (fld d 63 32), m.words (base + 0xB888 + 64 * i) (min 7 (fld d 30 16))⟩ : Live) else none
  f.modBlk bk fun b => { b with
    anchors := anchors
    accStamp := (word 0x78).toNat
    places := places
    lives := lives
    seqs := tableOf 32 ((List.range 1024).map fun n => fld (word (0xC880 + 8 * n)) 31 0) }

/-- An element's memory from its banks; an error names the bank that does not decode. -/
def restoreBanks (m : Memory) (at' : Nat) : Element → List Nat → Except Nat (Element × Nat)
  | e, [] => .ok (e, 0)
  | e, b :: r =>
    let t := m.word (at' + 0x8C40 + 8 * b)
    if bit t 63 then
      match decodeWhole (m.words (at' + 0x9000 + 0x1040 * b) (fld t 9 0)) with
      | none => .error b
      | some ws => (restoreBanks m at' (e.putBank b ws) r).map fun x => (x.1, x.2 + 1)
    else restoreBanks m at' e r

/-- The running generator of an element read back; its header is that of the resident image. -/
def restoreLoop (f : Fabric) (el : Nat) (m : Memory) (at' : Nat) : List LoopGen :=
  let d := m.word (at' + 0x1418)
  if !bit d 48 then []
  else
    let tag := m.word (at' + 0x1408)
    let s : MSet := { MSet.none with ctx := fld tag 63 56, slot := fld d 44 40, tag := tag }
    let img := (f.el el).imageOf s.ctx
    let w := img.instr s.slot
    let op := (fieldOp w).toNat
    let c := mkCtx f el s op (fieldA w).toNat (fieldB w).toNat (fieldD w).toNat (fieldE w).toNat (fieldT w).toNat
    let a := (m.word (at' + 0x1410)).toNat
    let vals := match (if op = 0x78 then loopVals c a else if op = 0x79 then sloopVals c a else streeVals c a) with | .ok v => v | .error _ => []
    let n := fld d 31 0
    let k := max 1 (fld d 39 32)
    [⟨{ c.pend with tag := img.push tag 0 }, n, k, vals.drop n, (n + k - 1) / k⟩]

/-- An element's registers, slab, slots and tables read back (R350), its banks given. The images are reloaded under R51 (R352): one that its
checks refuse is resident no more, and its context is missed when a token comes. -/
def restoreElem (f : Fabric) (el : Nat) (m : Memory) (at' : Nat) (e : Element) : Fabric :=
  let r := fun i : Nat => m.readN (at' + 4 * i) 4
  let word := fun o => m.word (at' + o)
  let mx := w32 (r 3)
  let e := { e with
    aflags := w32 (r 0), aftrap := w32 (r 1), srstate := w32 (r 2), selctl := w32 (r 4), selk := w32 (r 5)
    mxOn := bit mx 31, mxWarm := bit mx 30, mxBurst := fld mx 29 16, mxFmt := BitVec.ofNat 4 (fld mx 11 8)
    selpfx := w64 (r 6 + r 7 * 2 ^ 32), framedir := w32 (r 8), lodeen0 := w32 (r 9), lodeen1 := w32 (r 10), mismatch := w32 (r 11)
    stray := w32 (r 12), badtok := w32 (r 13), arrivals := (word 0x58).toNat
    wins := tableOf 32 ((List.range 8).map fun j => r (14 + j))
    gens := (List.range 4).map fun j => (j, ⟨word (0x80 + 32 * j), word (0x88 + 32 * j), fld (word (0x90 + 32 * j)) 31 0, fld (word (0x90 + 32 * j)) 63 32⟩)
    commits := (List.range 32).filterMap fun i =>
      if bit (word (0x180 + 16 * i)) 8 then some ⟨fld (word (0x180 + 16 * i)) 7 0, word (0x188 + 16 * i), 0, 0, none⟩ else none
    scales := (List.range 64).filterMap fun i =>
      let d := word (0x388 + 16 * i)
      if bit d 24 then some ⟨fld d 20 16, BitVec.ofNat 16 (fld d 15 0), word (0x380 + 16 * i)⟩ else none
    sw := tableOf 8 (unpacked m (at' + 0x780) 1 32)
    weights := tableOf 16 (unpacked m (at' + 0x800) 2 512)
    acc := tableOf 32 (unpacked m (at' + 0xC00) 4 256)
    hist := tableOf 32 (unpacked m (at' + 0x1000) 4 256)
    owners := ((unpacked m (at' + 0x8F40) 2 96).zipIdx).filterMap fun (x : Nat × Nat) => if 2 ^ 15 ≤ x.1 then some (x.2, x.1 % 256) else none
    dirty := 0 }
  let slots := (List.range 4).filterMap fun k =>
    let d := word (0x100 + 32 * k)
    if !bit d 8 then none
    else (f.dirImage el (fld d 7 0)).map fun img =>
      (k, (⟨fld d 7 0, img, bit d 9, f.clock, failOf [word (0x110 + 32 * k), word (0x118 + 32 * k)]⟩ : Resident))
  let f := slots.foldl (fun (f : Fabric) s =>
    let f := match f.anchorOf el with
      | none => f
      | some an => f.modBlk an fun b =>
        if (tfind b.anchors s.2.ctx).isSome then b
        else { b with anchors := tset b.anchors s.2.ctx (anchorRestored (List.replicate 12 0) 0) }
    if Image.ctx s.2.image = s.2.ctx ∧ loadCheck f el s.2.image 2 = 0 then
      (f.modEl el fun e => { e with slots := e.slots ++ [s] }).anchorLoad el s.2.image
    else f) (f.setEl el { e with slots := [] })
  f.modEl el fun e => { e with loops := restoreLoop f el m at' }

/-- The saved tokens of an element replay as arrivals in stamp order (R28, R352), with them those that wait in the frames of its resident,
active contexts. -/
def replayArea (f : Fabric) (el : Nat) (m : Memory) (at' : Nat) : Fabric :=
  let saved := (List.range (min areaToks (m.word (at' + 0x1400)).toNat)).map fun i => readRecord (m.words (at' + 0x1440 + 160 * i) 20)
  let cs := f.replayable el
  (sortWaiting (saved ++ cs.flatMap (f.el el).heldToks)).foldl (fun (f : Fabric) x => f.arriveAgain el x)
    (f.modEl el fun e => cs.foldl Element.takeHeld e)

/-- A block's area read back: the number of banks decoded, or the element and bank that failed. -/
def readArea (f : Fabric) (bk sd base : Nat) : Except Nat (Fabric × Nat) :=
  let m := (f.die sd).mem
  let els := (List.range 64).map fun i => (i, blockEl bk i)
  let f := f.modBlk bk fun _ => { Block.reset with regs := (f.blk bk).regs, stopped := true }
  let banks := els.foldl (fun (x : Except Nat (List (Nat × Nat × Element) × Nat)) y =>
    x.bind fun z =>
      let old := f.el y.2
      let fresh : Element := { Element.reset with nextId := old.nextId, arrived := old.arrived, arrivedBy := old.arrivedBy }
      match restoreBanks m (base + elemAreaAt y.1) fresh (List.range 96) with
      | .ok r => .ok (z.1 ++ [(y.1, y.2, r.1)], z.2 + r.2)
      | .error b => .error (96 * y.1 + b)) (.ok ([], 0))
  banks.map fun z =>
    let f := restoreBlock f bk m base
    let f := z.1.foldl (fun f y => restoreElem f y.2.1 m (base + elemAreaAt y.1) y.2.2) f
    let f := restoreBlock f bk m base
    let f := f.modBlk bk fun b => { b with stopped := false }
    let f := z.1.foldl (fun f y => replayArea f y.2.1 m (base + elemAreaAt y.1)) f
    (restart f bk, z.2)

/-- RESTORE: a block that is not clear raises ILLEGAL; a bank that does not decode leaves the block as SCRUB does. -/
def restoreForm (c : FCtx) : Except Stop Res :=
  c.areaRun fun bk x =>
    if !(c.f.blk bk).clear then c.illegal
    else match readArea c.f bk x.1 x.2 with
      | .error n => .error (.late (scrubBlock c.f bk) c.s .data (w32 n))
      | .ok (f, n) => .ok (Res.of f 0 [c.scalar c.d true (w64 n), c.ord c.e] none)

/-- SAVE (R407). -/
def execSave (a b d e : BitVec 5) (t : BitVec 4) (s : State) : Host.Outcome State Fault Refusal := fire 0xF8 a b d e t saveForm s
/-- RESTORE (R407). -/
def execRestore (a b d e : BitVec 5) (t : BitVec 4) (s : State) : Host.Outcome State Fault Refusal := fire 0xF9 a b d e t restoreForm s
/-- SAVE_WRITE (R348). -/
def execSaveWrite (el id : Nat) (s : State) : Host.Outcome State Fault Refusal := fabStep s fun f => saveStep f el id

end Sys2Proof.Machine
end

