-- ==== Sys2Proof/Machine/ElementEv.lean ====
section
/-! DEFINITION. What happens at an element by itself: TOKEN_ARRIVE, FRAME_PROBE_END, CONFIG_MISS_SERVE, MISS_REPLAY, CFGLD_ENTRY,
CONTEXT_EVICT, DEFER_RELEASE, LOOP_GENERATOR_EMIT, DELAY_DUE, SCALE_TOKEN_ARRIVE, and the slab's GROUP_LANDING, WARMUP_DONE,
BURST_TIMEOUT and SLAB_COOL. -/

namespace Sys2Proof.Machine

/-! ## Tokens -/

/-- The most ready sets: 32, and 8 places for sets that a sink token completes (R24, R340). -/
abbrev readyPlaces : Nat := 40

/-- A token takes a stamp (R21) and arrives. Unless it stays at its port once more, its earlier offer there is over. -/
def Fabric.stampAccept (f : Fabric) (el : Nat) (p : Port) (t : Tok) : Fabric :=
  let n := (f.el el).arrivals
  ((f.modEl el fun e => { e with arrivals := n + 1 }).accept el ⟨t, n⟩ p).modEl el fun e =>
    { e with offered := e.offered.filter fun o => !(decide (o.tok = t) && (o.port == p) && decide (o.stamp ≠ n)) }

/-- Must a token wait at its port? A token offered before waits until there may be a place for it: an entry that is not held by a parked
set, or another frame (R37); one that R35 holds is offered anew in every cycle. Any other waits where the port is held back. -/
def Element.mustStay (e : Element) (p : Port) (t : Tok) : Bool :=
  let net := p == .packet || p == .stream
  match e.offered.find? fun o => decide (o.tok = t) && (o.port == p) with
  | some o => (net && Element.holdsBack { e with offered := [] } p)
      || (o.raised && e.store.isEmpty && decide (Config.storeEntries ≤ e.entries) && decide (e.frameEntry t.ctx = o.frame))
  | none => net && e.holdsBack p

/-- A token that its target has taken leaves the output queue of its sender (R340). -/
def Fabric.leaveQueue (f : Fabric) (el : Nat) (t : Tok) : Fabric :=
  match f.els.find? fun p => p.2.outq.contains (el, t) with
  | some p => f.modEl p.1 fun e => { e with outq := e.outq.erase (el, t) }
  | none => f

/-- The tokens of the memory area that a saved block's element has: none while the block is not saved (R348). -/
def Fabric.savedArea (f : Fabric) (el : Nat) : Option (Nat × Nat) :=
  if isFatik el then none else ((f.blk (blockOf el)).savedAt).map fun x => (x.1, x.2 + elemAreaAt (8 * (rowOf el % 8) + colOf el % 8))

/-- A token that arrives at an element whose image is written joins the image: its token area, or, once that is full, its context's
frame, whose banks are written again; none where neither has a place (R348, R353). -/
def Fabric.joinImage (f : Fabric) (el sd at' : Nat) (t : Tok) : Option Fabric :=
  let e := f.el el
  let x : Waiting := ⟨t, e.arrivals⟩
  let m := (f.die sd).mem
  let n := (m.word (at' + 0x1400)).toNat
  let e := { e with arrivals := e.arrivals + 1 }
  let m := m.setWord (at' + 0x58) (w64 e.arrivals)
  let put := fun (e : Element) (m : Memory) => (f.setEl el e).modDie sd fun d => { d with mem := m }
  if n < areaToks then some (put e ((m.setWords (at' + 0x1440 + 160 * n) (tokRecord x 3)).setWord (at' + 0x1400) (w64 (n + 1))))
  else (e.frameInsert (f.seenImage el t.ctx) (e.frameEntry t.ctx) x true).map fun e => put { e with dirty := 0 } (writeBanks m at' e).1

/-- TOKEN_ARRIVE (R21, R24, R29, R35, R37, R340, R348, R353, R405): dropped under a KILL, kept for the token area while the block is
stopped and put into the image once that is written, held at its port, put into the sink, or accepted. -/
def tokenIn (f : Fabric) (el : Nat) (p : Port) (t : Tok) : Fabric :=
  let e := f.el el
  let wait := f.holdBack (.tokenArrive el p t)
  let left := fun f : Fabric => (f.modEl el fun e => { e with offered := e.offered.filter fun o => !(decide (o.tok = t) && (o.port == p)) }).leaveQueue el t
  if f.killing el t.ctx then left (f.killDrop el t.ctx)
  else if !isFatik el && (f.blk (blockOf el)).stopped then
    match f.savedArea el with
    | none => left (f.modEl el fun e => { e with area := e.area ++ [⟨t, e.arrivals⟩], arrivals := e.arrivals + 1 })
    | some x => ((f.joinImage el x.1 x.2 t).map left).getD wait
  else if e.mustStay p t then wait
  else if p = .signal then
    if 16 ≤ e.sink.length then wait
    else (f.modEl el fun e => { e with sink := e.sink ++ [t] }).post (.trapRecordDeliver el)
  else (f.leaveQueue el t).stampAccept el p t

/-- TOKEN_ARRIVE (R21). -/
def execTokenArrive (el : Nat) (p : Port) (t : Tok) (s : State) : Host.Outcome State Fault Refusal := fabStep s fun f => tokenIn f el p t

/-- The oldest probe of an element ends (R33, R34): a hit takes the partner out of the frame; a miss looks once more for a
partner that came meanwhile, and else waits, at the port that delivered it where it has no place (R35, R37). -/
def probeEnd (f : Fabric) (el : Nat) : Fabric :=
  match (f.el el).probes with
  | [] => f
  | (y, p) :: r =>
    let e := { f.el el with probes := r }
    let f := f.setEl el e
    let img := e.imageOf y.tok.ctx
    let relaxed := !matchesEqual (fieldOp (img.instr y.tok.slot)).toNat
    let w := e.frameEntry y.tok.ctx
    let found := if frameUsable w then e.frameFind w (isPartner img relaxed y.tok) (probeChain w (frameIndex img w y.tok)) else none
    let join := fun (e : Element) (o : Waiting) =>
      let m := mkSet img relaxed y o
      let f := (f.setEl el e).readySet el m.1
      matchToks el img relaxed p 64 m.2.1 (m.2.2.foldl (fun f x => f.waitTok el x p) f)
    match found with
    | some i => join (e.frameTake w i) (e.frameTok w i)
    | none =>
      match lowestOf (isPartner img relaxed y.tok) e.store with
      | some o => join { e with store := e.store.erase o } o
      | none => f.waitTok el y p

/-- FRAME_PROBE_END (R33). -/
def execFrameProbeEnd (el : Nat) (s : State) : Host.Outcome State Fault Refusal := fabStep s fun f => probeEnd f el
/-- CONFIG_MISS_SERVE (R161). -/
def execConfigMissServe (el ctx : Nat) (s : State) : Host.Outcome State Fault Refusal := fabStep s fun f => missServe f el ctx
/-- MISS_REPLAY (R28). -/
def execMissReplay (el ctx : Nat) (s : State) : Host.Outcome State Fault Refusal := fabStep s fun f => replay f el ctx
/-- CFGLD_ENTRY (R162). -/
def execCfgldEntry (el id : Nat) (s : State) : Host.Outcome State Fault Refusal := fabStep s fun f => cfgldStep f el id
/-- CONTEXT_EVICT (R408). -/
def execContextEvict (el ctx : Nat) (s : State) : Host.Outcome State Fault Refusal := fabStep s fun f => contextEvictStep f el ctx
/-- DEFER_RELEASE (R198): DEFER-parked loads are examined again. -/
def execDeferRelease (el : Nat) (s : State) : Host.Outcome State Fault Refusal := fabStep s fun f => (f.resendAccs el .defer).wakeFor el .defer

/-! ## Loop generators (R148) -/

/-- The next token of the element's first running generator, its count, or its stop at an ordinal its field cannot hold; nothing
while SAVE stops the block (R348). What it sends onto a stream route leaves from its header's place (R367); the token of a header that
has none waits while the route is held back, and stops the generator on one that is unfit by now (R203). -/
def loopStep (f : Fabric) (el : Nat) : Fabric :=
  if !isFatik el && (f.blk (blockOf el)).stopped then f
  else match (f.el el).loops.find? fun g => decide (g.pend.phase ≠ 1) with
  | none => f
  | some g =>
    let p := g.pend
    let img := (f.el el).imageOf p.set.ctx
    let put := fun (f : Fabric) (g' : LoopGen) => f.modEl el fun e => { e with loops := e.loops.map fun x => if x = g then g' else x }
    match g.todo with
    | [] =>
      let f := f.modEl el fun e => { e with loops := e.loops.erase g }
      match (f.el el).pendOf p.id with
      | some q => retire f el { q with outs := q.outs ++ [loopCount img g], left := 0, phase := 0 } 0
      | none => retire f el { p with outs := p.outs ++ [loopCount img g] } 0
    | _ =>
      match loopToken img g with
      | .ok o =>
        let n := min g.chunk g.todo.length
        let g' := { g with ordinal := g.ordinal + n, todo := g.todo.drop g.chunk, sent := g.sent + 1 }
        let rs := routesOf img [o]
        match (f.el el).pendOf p.id, rs.find? fun r => (routeOk f el r).isNone with
        | some q, _ => (emitNow (put f g') el q o).post (.loopGeneratorEmit el)
        | none, some r => takeTrap (put f { g with pend := { p with phase := 1 } }) el { p.set with note := 5, arg := w64 p.id } .illegal (w32 r)
        | none, none =>
          let f := if rs.any (routeBusy f el p.id) then f
            else if isExitOut o then put f { g' with pend := { p with outs := p.outs ++ [o] } }
            else emitOut (put f g') el p.set.ctx p.set.slot p.set.tag p.tag o
          f.post (.loopGeneratorEmit el)
      | .error n =>
        takeTrap (put f { g with pend := { p with phase := 1 } }) el { p.set with note := 5, arg := w64 p.id } .format (w32 n)

/-- LOOP_GENERATOR_EMIT (R148). -/
def execLoopGeneratorEmit (el : Nat) (s : State) : Host.Outcome State Fault Refusal := fabStep s fun f => loopStep f el

/-! ## The delay line (R146) -/

/-- The head of the delay line leaves once its step count has come. -/
def delayStep (f : Fabric) (el : Nat) : Fabric :=
  match (f.el el).delays with
  | [] => f
  | (due, p) :: r =>
    if f.clock < due then f.post (.delayDue el)
    else
      let f := f.modEl el fun e => { e with delays := r }
      let f := match (f.el el).pendOf p.id with
        | some q => settle f el { q with left := 0 }
        | none => retire f el { p with left := 0 } 0
      f.wakeFor el .delay

/-- DELAY_DUE (R146). -/
def execDelayDue (el : Nat) (s : State) : Host.Outcome State Fault Refusal := fabStep s fun f => delayStep f el

/-! ## Scale tokens (R167) -/

/-- A scale token that arrives once an element's image is written joins the scale store of the image (R348, R353). -/
def Fabric.joinScales (f : Fabric) (sd at' : Nat) (t : ScaleTok) : Option Fabric :=
  let m := (f.die sd).mem
  ((List.range 64).find? fun i => !bit (m.word (at' + 0x388 + 16 * i)) 24).map fun i =>
    f.modDie sd fun d => { d with mem := m.setWords (at' + 0x380 + 16 * i) (scaleWords t) }

/-- A scale token arrives: held back while the store is full, dropped and counted, or stored, and the sets that wait for scales look
again. One that does not wait leaves the output queue of its sender (R340). -/
def scaleIn (f : Fabric) (el : Nat) (t : ScaleTok) : Fabric :=
  let e := f.el el
  let ctx := fld t.tag 63 56
  let wait := f.holdBack (.scaleTokenArrive el t)
  let gone := fun f : Fabric => f.leaveQueue el (scaleAsTok t)
  if f.killing el ctx then gone f
  else match f.savedArea el with
  | some x => ((f.joinScales x.1 x.2 t).map gone).getD wait
  | none =>
    if 64 ≤ e.scales.length then wait
    else if (e.residentOf ctx).all fun r => takesScales r.image t.slot then (gone (f.setEl el { e with scales := e.scales ++ [t] })).wakeFor el .scale
    else gone (f.setEl el { e with stray := satAdd e.stray 1 })

/-- SCALE_TOKEN_ARRIVE (R167). -/
def execScaleTokenArrive (el : Nat) (t : ScaleTok) (s : State) : Host.Outcome State Fault Refusal := fabStep s fun f => scaleIn f el t

/-! ## The slab (R177) -/

/-- GROUP_LANDING (R177): the oldest computed group writes its ACC words. -/
def execGroupLanding (el : Nat) (s : State) : Host.Outcome State Fault Refusal :=
  fabStep s fun f => f.modEl el fun e =>
    match e.landing with
    | [] => e
    | g :: r => { e with acc := g.foldl (fun t p => tset t p.1 p.2) e.acc, landing := r }

/-- WARMUP_DONE (R177): a warm-up in progress ends, and the slab is warm. -/
def execWarmupDone (el : Nat) (s : State) : Host.Outcome State Fault Refusal :=
  fabStep s fun f => f.modEl el fun e => if e.mxWarming then { e with mxWarm := true, mxWarming := false } else e

/-- BURST_TIMEOUT (R177): 64 cycles without an MMA while BURST is not zero. -/
def execBurstTimeout (el : Nat) (s : State) : Host.Outcome State Fault Refusal :=
  fabStep s fun f => f.modEl el fun e => if e.mxBurst ≠ 0 then e.slabCold else e

/-- SLAB_COOL (R177): nine cycles after the last group, with BURST zero, the slab is cold. -/
def execSlabCool (el : Nat) (s : State) : Host.Outcome State Fault Refusal :=
  fabStep s fun f => f.modEl el fun e => if e.mxBurst = 0 then e.slabCold else e

end Sys2Proof.Machine
end

