-- ==== Sys2Proof/Machine/TrapEv.lean ====
section
/-! DEFINITION. Trap records and handler answers (R37, R91, R139, R141, R148, R160, R231, R285, R366, R385, R395, R396, R403,
R404): TRAP_RECORD_DELIVER and HANDLER_ANSWER_APPLY. -/

namespace Sys2Proof.Machine

/-! ## Delivery of a record (R395) -/

/-- A sink token that can leave the sink: a record whose slot holds a context, and any other token. -/
def Element.deliverable (e : Element) (t : Tok) : Bool := (e.sinkCtx t).isSome

/-- TRAP_RECORD_DELIVER: the oldest sink token that can leave arrives, unless it would complete a set while the ready places are full
(R340) or SAVE has stopped the block (R348). A record is taken by the context in the slot its HINT names; one whose target slot has not
N64 as input format is dropped and counted. -/
def deliverRecord (f : Fabric) (el : Nat) : Fabric :=
  let e := f.el el
  if !isFatik el && (f.blk (blockOf el)).stopped then f
  else match e.sink.find? e.deliverable with
  | none => f
  | some t =>
    let ctx := (e.sinkCtx t).getD 0
    let g := f.modEl el fun e => { e with sink := e.sink.erase t }
    let g :=
      if !t.trapTok then g.stampAccept el .signal t
      else if Image.fin (e.imageOf ctx) t.slot ≠ 7 then g.modEl el fun e => { e with stray := satAdd e.stray 1 }
      else g.stampAccept el .signal { t with tag := w64 (ctx * 2 ^ 56) }
    if e.ready.length < (g.el el).ready.length ∧ readyPlaces < (g.el el).ready.length then f.post (.trapRecordDeliver el) else g

/-- TRAP_RECORD_DELIVER (R395). -/
def execTrapRecordDeliver (el : Nat) (s : State) : Host.Outcome State Fault Refusal := fabStep s fun f => deliverRecord f el

/-! ## What a record names (R396) -/

/-- What an answer acts on: a parked set, a parked access of an issued firing, a parked token, the first held token of a miss,
or a token that waits at its port. -/
inductive Answered where
  | set (x : Parked)
  | access (p : Pend) (a : PAcc)
  | token (x : ParkedTok)
  | miss (x : Waiting)
  | port (o : Offer)
  deriving DecidableEq, Repr

/-- A record's first two lanes, read. -/
structure TrapRec where
  tag : DWord
  code : Nat
  el : Nat
  slot : Nat
  info : Word
  deriving DecidableEq, Repr

/-- The record of an answer form's firing. -/
def Pend.trapRec (p : Pend) : TrapRec :=
  let l := p.args.getD 1 0
  ⟨p.args.getD 0 0, fld l 63 56, fld l 55 40, fld l 39 35, w32 (fld l 31 0)⟩

/-- Candidates of an element with their stamps, and what an answer acts on there: of a set with parked accesses, the one of its cause
that parked first with the record's information word, if there is one. -/
def Fabric.candidates (f : Fabric) (r : TrapRec) : List (Nat × Option Answered) :=
  let e := f.el r.el
  let ctx := fld r.tag 63 56
  let same := fun s : MSet => decide (s.ctx = ctx) && decide (s.slot = r.slot) && decide (s.tag = r.tag)
  let tok := fun t : Tok => decide (t.tag = r.tag) && decide (t.slot = r.slot)
  let sets := (e.parked.filter fun x => decide (x.reason = .trap) && decide (x.cause.code = r.code) && same x.set).map fun x => (x.set.stamp, some (Answered.set x))
  let hit := fun a : PAcc => decide (a.reason = .trap) && decide (a.cause.code = r.code)
  let accs := (e.pend.filter fun p => same p.set && p.accs.any hit).map fun p =>
    (p.set.stamp, (p.accs.find? fun a => hit a && decide (a.info = r.info)).map (Answered.access p))
  let toks := (e.parkedToks.filter fun x => decide (x.cause.code = r.code) && tok x.tok).map fun x => (x.stamp, some (Answered.token x))
  let misses :=
    if r.code = 1 && !isFatik r.el && (f.blk (blockOf r.el)).misses.contains (r.el, ctx) then
      match (e.heldToks ctx).head? with
      | some x => if tok x.tok then [(x.stamp, some (Answered.miss x))] else []
      | none => []
    else []
  let ports := if r.code = 8 then (e.offered.filter fun o => o.raised && tok o.tok).map fun o => (o.stamp, some (Answered.port o)) else []
  sets ++ accs ++ toks ++ misses ++ ports

/-- What a record names (R396): the set of the lowest stamp, and within it the access with the record's information word. -/
def Fabric.named (f : Fabric) (r : TrapRec) : Option Answered :=
  if r.code = 0 then none
  else ((f.candidates r).foldl (fun (best : Option (Nat × Option Answered)) x =>
    match best with | none => some x | some y => if x.1 < y.1 then some x else some y) none).bind (·.2)

/-! ## Parked accesses -/

/-- The request that a base die's park store holds for a parked access. -/
def Fabric.parkedAt (f : Fabric) (el id : Nat) (a : PAcc) : Option (Nat × Req) :=
  if !a.away || a.q.isSome then none
  else f.dies.findSome? fun x =>
    (x.2.park.find? fun y => decide (reqKey y.1 = (el, id, a.lane)) && decide (y.2.1 = a.cause) && decide (y.2.2 = a.info)).map fun y => (x.1, y.1)

/-- A request taken out of a park store; a place frees (R369). -/
def Fabric.unparkReq (f : Fabric) (sd : Nat) (q : Req) : Fabric :=
  (f.modDie sd fun d => { d with park := d.park.filter fun y => y.1 ≠ q }).freePlaces (f.partOfStack sd)

/-- A firing ends without its emits: what is parked of it, and what it holds at its anchor, is withdrawn, and its masked store
counts no longer. -/
def dropFiring (f : Fabric) (el : Nat) (p : Pend) : Fabric :=
  let mine := fun q : Req => decide (q.el = el) && decide (q.id = p.id)
  let f := (f.dies.filter fun x => x.2.park.any fun y => mine y.1).foldl (fun (f : Fabric) x =>
    (f.modDie x.1 fun d => { d with park := d.park.filter fun y => !mine y.1 }).freePlaces (f.partOfStack x.1)) f
  let f := match f.anchorOf el with
    | some an => f.modBlk an fun b => { b with held := b.held.filter fun h => !(decide (h.el = el) && decide (h.id = p.id)) }
    | none => f
  let f := if p.owesFlags then flagsKnown f el p.id 0 else f
  let f := f.modEl el fun e => (countDone e p).dropPend p.id
  let f := flushOrder f el (f.el el).pend.length
  wakeDone (tryCommit f el p.set.ctx p.set.tag) el

/-- A request for a credit or a pool number is sent again (R135, R139). A loop header asks for a credit whatever its tag action. -/
def askAgain (f : Fabric) (el : Nat) (p : Pend) : Fabric :=
  let lvl := depth p.set.tag + 1
  match f.anchorOf el with
  | none => f.refuseGrant el p.id
  | some an =>
    let f := f.modBlk an fun b => { b with held := b.held.filter fun h => !(decide (h.el = el) && decide (h.id = p.id)) }
    if p.op = 0x72 ∨ (p.t = 4 ∧ ¬ (0x78 ≤ p.op ∧ p.op ≤ 0x7A)) then f.post (.poolRequest an el p.id p.set.ctx (Image.width ((f.el el).imageOf p.set.ctx) lvl))
    else f.post (.levelCreditRequest an el p.id p.set.ctx lvl)

/-- The event that does a relation or edge form's parked step again (R285). -/
def stepAgain (p : Pend) (el lane : Nat) : List Ev :=
  match p.op with
  | 0xC8 => [.rbindMember el p.id lane]
  | 0xC9 => [.relationScanVisit el p.id]
  | 0xD3 => [.relationScanVisit el p.id]
  | 0xCA => [.tupleInsertAtHome el p.id]
  | 0xCB => [.probeAtHome el p.id]
  | 0xCC => [.probeAtHome el p.id]
  | 0xCD => [.probeAtHome el p.id]
  | 0xCE => [.probeAtHome el p.id]
  | 0xCF => [.roundAtMember el p.id lane]
  | 0xD1 => [.closeAtMember el p.id lane]
  | 0xD2 => [.tupleDeleteAtHome el p.id]
  | 0xD4 => [.gradientStep el p.id]
  | 0xD5 => [.probeAtHome el p.id]
  | 0xD8 =>
    if contribLane ≤ lane then [.edgeContributionCombine el p.id (contribOf p lane)]
    else if bit p.a 39 then [.pullVertexVisit el p.id lane] else [.pushSourceVisit el p.id lane]
  | 0xD9 => [.edensCount el p.id lane]
  | _ => []

/-- A claim form's request is sent again (R385, R392); that of a CLINV to the package whose part failed, one above its number in the access
record, or to where the own package's sweep stands. -/
def claimAgain (f : Fabric) (el : Nat) (p : Pend) (a : PAcc) : Fabric :=
  let part := f.partOf el
  let g := f.greq el p
  let pod := p.cnt.testBit 4
  let n : Name := (g.dig, g.ver, g.fn)
  let P := if pod then f.npkg el + 1 else 1
  let x : Nat × Ev :=
    if p.op = 0xE2 ∨ p.op = 0xE3 then (fld p.a 63 54, .geodeSliceOperation (fld p.a 53 49) g)
    else if p.op = 0xE4 then
      (if a.lane = 0 then f.pkg else a.lane - 1, .clinvSetStep (p.args.getD 2 0).toNat { g with set := (p.args.getD 3 0).toNat, eid := p.args.getD 4 0, len := w32 (p.args.getD 5 0).toNat })
    else (if pod then nameHash n % P else f.pkg, .geodeSliceOperation (f.geodeHome part P n).1 g)
  match f.sendGeode el p x.1 x.2 with
  | some f => f
  | none => parkStep f el p a.lane .data p.slotW

/-- Is a parked access the refusal or the starving of a request for a credit or pool number? -/
def isGrantTrap (p : Pend) (a : PAcc) : Bool := a.cause == .tagStarve || (p.grant && a.cause == .illegal && !a.away && a.q.isNone && decide (a.lane = 0))

/-- The stores of a firing that wait with the one that raised WRITEONCE (R197). -/
def Pend.siblings (p : Pend) : List Req := (p.accs.filter fun a => a.reason == .wave).filterMap (·.q)

/-- The firing without those stores' access records. -/
def Pend.without (p : Pend) (qs : List Req) : Pend := { p with accs := p.accs.filter fun a => !a.q.any qs.contains }

/-- A relation or edge form that DISCARD ends: with SAME or zero answers once no other trap of it awaits its own answer (R285, R366). -/
def relationEnds (f : Fabric) (el : Nat) (p : Pend) : Fabric :=
  let traps := p.accs.filter fun a => a.reason == .trap
  if traps.isEmpty then complete f el { p with accs := [], phase := 0 } (zeroOuts p) else f.putPend el { p with accs := traps, phase := endedPhase }

/-- RESUME of a parked access (R231, R366): it is tried again in place. The record no longer lists it. -/
def resumeAccess (f : Fabric) (el : Nat) (p : Pend) (a : PAcc) : Fabric :=
  match f.parkedAt el p.id a with
  | some (sd, q) => if p.phase = endedPhase then relationEnds (f.unparkReq sd q) el p else (f.unparkReq sd q).again sd q
  | none =>
    if p.phase = endedPhase then relationEnds f el p
    else if p.phase = 902 then
      let f := f.putPend el { p with phase := 1000 }
      flushOrder f el (f.el el).pend.length
    else if p.op = 0xFD then f.post (.channelRetirement (fld p.a 4 0) (fld p.a 12 8) el p.id)
    else if isGrantTrap p a then askAgain f el p
    else if p.phase = 900 then retire f el { p with phase := 0 } p.cnt
    else if p.phase = 901 then (settle f el { p with phase := 0 }).askRelease el
    else if p.op = 0x67 then (match f.anchorOf el with | some an => f.post (.cswRequest an el p.id) | none => f.refuseGrant el p.id)
    else if p.op = 0xF7 then f.post (.cfgldEntry el p.id)
    else if p.op = 0xF5 then
      f.post (csrEvent ⟨fld p.a 63 48, fld p.a 47 16, fld p.a 15 0, p.b, f.partOf el, p.priv, some (el, p.id)⟩)
    else if p.op = 0xFB then f.post (.copyPieceComplete el p.id a.lane)
    else if p.op = 0xA2 then f.post (if p.phase = 40 then .copyCommand el p.id else .copyPieceComplete el p.id a.lane)
    else if isIndirect p.op then
      if p.phase = 40 then f.post (.indirectStreamCommand el p.id)
      else pumpStream (f.putPend el { p with cnt := if p.cnt.testBit a.lane then p.cnt - 2 ^ a.lane else p.cnt }) el p.id
    else if inRanges p.op [(0xC8, 0xD9)] then
      match a.q with
      | some q => sendChecked f el q
      | none =>
        if p.op = 0xC8 ∧ a.cause = .relFull then (f.putPend el { p with phase := 0 }).post (.rbindMember el p.id (a.lane + 1))
        else f.postAll (stepAgain p el a.lane)
    else if inRanges p.op [(0xE1, 0xE5)] then claimAgain f el p a
    else if p.phase = 3001 then f.post (.waveRelease (bufOf el))
    else if isAtomicOp p.op ∨ p.op = 0x9A ∨ p.op = 0x9B then performReleased f el p
    else
      match a.q with
      | some q =>
        if p.routed then f.sendAgain q
        else if a.cause = .writeOnce then
          let qs := p.siblings
          (q :: qs).foldl Fabric.sendReq (f.putPend el (p.without qs))
        else if p.isMx then sendChecked f el q
        else f.sendReq q
      | none =>
        if p.isMx then (match performMxVirtual f el { p with phase := 0 } with | .wait f p => f.putPend el p | _ => f) else f

/-- A memory form that ends whole without effect: zero with its valid bits clear, a store with FAIL clear. -/
def endEmpty (f : Fabric) (el : Nat) (p : Pend) : Fabric :=
  memDone f el { p with phase := 0, accs := [], vals := p.vals.map fun _ => 0, valid := if isStoreForm p.op && !isAtomicOp p.op then p.valid else 0 } 0

/-- DISCARD of a parked access: it completes without effect (R231), or the set is dropped. -/
def discardAccess (f : Fabric) (el : Nat) (p : Pend) (a : PAcc) : Fabric :=
  let f := match f.parkedAt el p.id a with | some (sd, q) => f.unparkReq sd q | none => f
  let lane := fun (f : Fabric) (k : Nat) => memAnswer f ⟨el, p.id, k, 0, false, false, 0⟩
  if p.phase = 902 then
    let f := f.putPend el { p with phase := 1000, outs := [] }
    flushOrder f el (f.el el).pend.length
  else if isGrantTrap p a ∨ p.phase = 900 ∨ p.phase = 901 ∨ p.op = 0x67 ∨ p.op = 0xFD ∨ p.op = 0xF5 ∨ inRanges p.op [(0xE1, 0xE5)] then dropFiring f el p
  else if p.op = 0xF7 then cfgldDone f el p
  else if p.op = 0xFB then (f.putPend el { p with phase := 73 }).leafStore el p p.c
  else if p.op = 0xA2 then
    if p.phase = 40 then (let p := { p with accs := [], phase := 0, args := [0] }; complete f el p (memOuts p))
    else copyGoOn f el (p.giveUp a.lane)
  else if isIndirect p.op then
    if p.phase = 40 then p.onLanes.foldl lane (f.putPend el { p with phase := 41, cnt := p.onLanes.foldl (fun n k => n ||| 2 ^ k) 0 }) else lane f a.lane
  else if inRanges p.op [(0xC8, 0xD9)] then relationEnds f el p
  else if p.phase = 3001 ∨ p.routed ∨ (p.isMx ∧ (p.phase = 10 ∨ p.phase = 20)) then endEmpty f el p
  else
    let qs := if a.cause = .writeOnce then p.siblings else []
    (a.lane :: qs.map (·.lane)).foldl lane (if qs.isEmpty then f else f.putPend el (p.without qs))

/-! ## Sets, tokens and misses -/

/-- The opcode of the word that parked a set, where the slot still holds that word and it is a form's. A set whose slot CFGLD has
replaced since is the old word's no more: RESUME issues it from the start (R68), and DISCARD drops it. -/
def Fabric.parkedOp (f : Fabric) (el : Nat) (x : Parked) : Option Nat :=
  let w := f.slotWord el x.set
  if w.toNat = x.on ∧ (decode w).isSome then some (fieldOp w).toNat else none

/-- A generator whose stop a set stands for (R148): note 5, its firing in arg. -/
def Element.loopOf (e : Element) (s : MSet) : Option LoopGen := e.loops.find? fun g => decide (g.pend.id = s.arg.toNat)

/-- A stopped generator goes on, with what it still has to emit (R148). -/
def loopOn (f : Fabric) (el : Nat) (g : LoopGen) (todo : List Nat) : Fabric :=
  (f.modEl el fun e => { e with loops := e.loops.map fun x => if x = g then { g with pend := { g.pend with phase := 0 }, todo := todo } else x }).post
    (.loopGeneratorEmit el)

/-- RESUME of a parked set (R24, R91, R148, R403, R404, R406). -/
def resumeParked (f : Fabric) (el : Nat) (x : Parked) (val : DWord) : Fabric :=
  let f' := f.modEl el fun e => { e with parked := e.parked.erase x }
  if x.set.note = 5 then (match (f.el el).loopOf x.set with | some g => loopOn f' el g g.todo | none => f')
  else if x.cause = .hcall then f'.modEl el fun e => e.toReady { x.set with note := 8, arg := val }
  else resumeSet f el x (match f.parkedOp el x with
    | some op => if op = 0xF0 then 2 else if x.cause = .arith then 3 else x.set.note
    | none => 0)

/-- Does DISCARD complete a parked set without effect (R231, R285, R300): is its trap one of a memory, relation or edge form? A trap of
its tag action, or of an anchor it lacks, drops it (R134, R137). -/
def Fabric.discardEnds (f : Fabric) (el : Nat) (x : Parked) : Bool :=
  let c := f.ctxOf el x.set
  (f.parkedOp el x).isSome && inRanges c.op [(0x90, 0xA4), (0xA8, 0xBF), (0xC8, 0xD5), (0xD8, 0xDA)]
    && [Cause.align, .page, .access, .writeOnce, .format, .illegal, .data].contains x.cause
    && !(c.exchanges && (f.anchorOf el).isNone) && (c.actStop c.t).isNone

/-- DISCARD of a parked set: it is dropped, or completed without effect (note 10). A stopped generator ends with its count (R148); a BARW withdraws its arrival (R255). -/
def discardParked (f : Fabric) (el : Nat) (x : Parked) : Fabric :=
  let f' := f.modEl el fun e => { e with parked := e.parked.erase x }
  if x.set.note = 5 then (match (f.el el).loopOf x.set with | some g => loopOn f' el g [] | none => f')
  else if x.set.note = 1 ∧ f.parkedOp el x = some 0xC2 then
    let n := fld x.info 5 0
    f'.modEl el fun e => { e with arrived := setFld e.arrived n n 0, arrivedBy := tdel e.arrivedBy n }
  else if f.discardEnds el x then resumeSet f el x 10
  else wakeDone f' el

/-- An answer applied. -/
def applyAnswer (f : Fabric) (el : Nat) (resume : Bool) (val : DWord) : Answered → Fabric
  | .set x => if resume then resumeParked f el x val else discardParked f el x
  | .access p a =>
    let p := { p with accs := p.accs.erase a }
    let f := f.putPend el p
    if resume then resumeAccess f el p a else discardAccess f el p a
  | .token x =>
    let f := f.modEl el fun e => { e with parkedToks := e.parkedToks.erase x }
    if !resume then f
    else if x.cause = .spillFull then f.insertAgain el ⟨x.tok, x.stamp⟩ x.port
    else f.accept el ⟨x.tok, x.stamp⟩ x.port
  | .miss x =>
    let f := f.modBlk (blockOf el) fun b => { b with misses := b.misses.erase (el, x.tok.ctx) }
    if resume then f.post (.configMissServe el x.tok.ctx) else f.modEl el fun e => e.takeHeld x.tok.ctx
  | .port o =>
    let f := f.modEl el fun e => { e with offered := e.offered.erase o }
    if resume then f else ({ f with agenda := f.agenda.erase (.tokenArrive el o.port o.tok) } : Fabric).leaveQueue el o.tok

/-- HANDLER_ANSWER_APPLY (R396, R404): the answer acts on what the record names, and its form emits 1; 0 where there is none. -/
def answerApply (f : Fabric) (el id : Nat) : Fabric :=
  onPend f el id fun p =>
    let r := p.trapRec
    let done := fun (f : Fabric) (n : Nat) => complete f el p [p.raw p.d (w64 n), p.ordOut p.e]
    match f.named r with
    | none => done f 0
    | some x => done (applyAnswer f r.el (p.op = 0xF1) p.b x) 1

/-- HANDLER_ANSWER_APPLY (R404). -/
def execHandlerAnswerApply (el id : Nat) (s : State) : Host.Outcome State Fault Refusal := fabStep s fun f => answerApply f el id

end Sys2Proof.Machine
end

