-- ==== Sys2Proof/Machine/LodeEv.lean ====
section
/-! DEFINITION. The Lode's passes (R246-R254, R281, R447): LODE_WAVE, BARRIER_RELEASE, POD_WAVE, FIXQ_PASS, REPORT_FRAME and
DECLARE_FRAME. A pass is one step; what it finds at its taps is found at once. -/

namespace Sys2Proof.Machine

/-- The register of line n at its root, in the steward block of die 0. -/
def Fabric.rootLine (f : Fabric) (n : Nat) : Word := BitVec.ofNat 32 (f.bk 0 (0x40 + n)).toNat
/-- The elements whose taps are enrolled on line n, in its partition. -/
def Fabric.taps (f : Fabric) (n : Nat) : List Nat :=
  (f.els.filter fun x => x.2.enrolled n && decide (f.partOf x.1 = linePart (f.rootLine n))).map (·.1)

/-! ## Barriers (R247, R248) -/

/-- What a release does to a set parked at an element: a registered arrival gets Φ; a set that waits for the phase to end
issues again; one parked on LODE keeps it for its answer (R255). -/
def releaseSet (n : Nat) (phi : BitVec 16) (e : Element) (p : Parked) : Element :=
  if p.reason = .lode ∧ p.on = n then
    let s := if p.set.note = 1 then { p.set with note := 6, arg := phi.setWidth 64 } else p.set
    { e with parked := e.parked.erase p, ready := insertSet s e.ready }
  else if p.reason = .trap ∧ p.cause = .lode ∧ p.info = w32 n ∧ p.set.note = 1 then
    { e with parked := e.parked.map fun x => if x = p then { x with set := { x.set with note := 9, arg := phi.setWidth 64 } } else x }
  else e

/-- The release at one element. -/
def Element.released (e : Element) (n : Nat) (phi : BitVec 16) : Element :=
  let e := e.parked.foldl (releaseSet n phi) e
  if e.enrolled n then { e with arrived := setFld e.arrived n n 0, arrivedBy := tdel e.arrivedBy n } else e

/-- BARRIER_RELEASE (R247): where every enrolled tap has an arrival, Φ advances and the release reaches every element. -/
def barrierPass (f : Fabric) (n : Nat) : Fabric :=
  let w := f.rootLine n
  let ts := f.taps n
  if lineV w && decide (lineMode w = 0) && ts.any (fun el => bit (f.el el).arrived n) && ts.all fun el => bit (f.el el).arrived n then
    let phi := (f.root n).phi + 1
    let f := f.modRoot n fun r => { r with phi := phi, lastBusy := false, lastCount := phi }
    { f with els := f.els.map fun x => if f.partOf x.1 = linePart w then (x.1, x.2.released n phi) else x }
  else f

/-! ## Waves (R249, R250) -/

/-- Does a wave of line n find activity: something on its way in the partition, a request under way, a token sent since the last
sample, or an enrolled tap that is not quiet? -/
def Fabric.waveDirty (f : Fabric) (n : Nat) : Bool :=
  let w := f.rootLine n
  let P := lineCtx w
  let T := fun el => decide (f.partOf el = linePart w)
  f.agenda.any (evActive P T) || f.diesActive P T || f.els.any fun x =>
    T x.1 && (f.elSent x.1 P (f.root n).sampledAt || x.2.pend.any (fun p => P p.set.ctx && f.pendCounts x.1 p)
      || (x.2.enrolled n && f.elActive x.1 P none))

/-- Is a set waiting for a declaration on line n? -/
def waitsDecl (n : Nat) (p : Parked) : Bool := p.reason == .lode && decide (p.on = n) && decide (p.set.note = 1)

/-- Do sets wait for a declaration on line n anywhere in its partition? -/
def Fabric.declWanted (f : Fabric) (n : Nat) : Bool :=
  (f.root n).asked || f.els.any fun x => decide (f.partOf x.1 = linePart (f.rootLine n)) && x.2.parked.any (waitsDecl n)

/-- A declaration answers the sets that wait at an element: a QWAIT with the number of waves since it began to wait, which `count` gives
(R252), a FIXQ, whose pass then runs (R281). -/
def declareAt (n : Nat) (count : Nat → Nat) (f : Fabric) (el : Nat) : Fabric :=
  ((f.el el).parked.filter (waitsDecl n)).foldl (fun f p =>
    if fieldOp (Image.instr ((f.el el).imageOf p.set.ctx) p.set.slot) = 0xC4 then
      f.modEl el fun e =>
        { e with parked := e.parked.erase p, ready := insertSet { p.set with note := 6, arg := w64 (count p.set.arg.toNat) } e.ready }
    else
      (f.modEl el fun e => { e with parked := e.parked.map fun x => if x = p then { x with set := { x.set with note := 7 } } else x }).post
        (.fixqPass el p.set.stamp)) f

/-- A declaration on a line (R250). A wave that is to report the result of a FIXQ's pass still runs (R447). -/
def Fabric.declare (f : Fabric) (n : Nat) (count : Nat → Nat) : Fabric :=
  let f := f.modRoot n fun r =>
    { r with decl := r.decl + 1, clean := 0, podClean := 0, podSums := none, podWaves := 0, running := r.pass.isSome, asked := false,
             lastBusy := false, lastClean := true, lastCount := r.decl + 1, firsts := [] }
  ((f.els.filter fun x => decide (f.partOf x.1 = linePart (f.rootLine n))).map (·.1)).foldl (declareAt n count) f

/-- The next wave follows while a set waits (R250). -/
def Fabric.nextWave (f : Fabric) (n : Nat) : Fabric :=
  if f.declWanted n then (f.modRoot n fun r => { r with lastBusy := true }).post (.lodeWave n)
  else f.modRoot n fun r => { r with running := false, clean := 0, lastBusy := false }

/-- A wave on one package: its count, its clean count and what its release carries. -/
def Fabric.waveDone (f : Fabric) (n : Nat) (clean : Bool) : Fabric :=
  f.modRoot n fun r =>
    { r with waves := r.waves + 1, sampledAt := f.clock, clean := (if clean then r.clean + 1 else 0), lastClean := clean, lastCount := r.decl }

/-! ## Pods (R251, R447) -/

/-- A report's flit (log 14). -/
def reportFlit (r : Report) : BitVec 256 :=
  BitVec.ofNat 256 (r.sent.toNat + r.recv.toNat * 2 ^ 64 + r.line * 2 ^ 128 + r.clean.toNat * 2 ^ 136
    + r.pass.isSome.toNat * 2 ^ 137 + (r.pass.getD false).toNat * 2 ^ 138)
/-- A declaration's flits: its number, and above it what else its frame holds, in flits of 256 bits. -/
def declareFlits (line num : Nat) : List (BitVec 256) :=
  let more := num / 2 ^ 98
  BitVec.ofNat 256 (num % 2 ^ 98 + line * 2 ^ 128) :: (List.range (if more = 0 then 0 else Nat.log2 more / 256 + 1)).map fun i => BitVec.ofNat 256 (more / 2 ^ (256 * i))
/-- The number that a declaration's flits hold. -/
def flitsDeclare (fl : List (BitVec 256)) : Nat :=
  fld (fl.getD 0 0) 97 0 + 2 ^ 98 * (fl.tail.zipIdx.map fun x => x.1.toNat * 2 ^ (256 * x.2)).sum

/-- The number of a DECLARE for a package (R252; DESIGN CHOICE, log 14): the pod waves that the declaration took, then how many reports of
the package came since the last one, then for the last 248 of these, the latest first, one more than the pod waves that had run when it
came. -/
def declareNum (waves : Nat) (came : List Nat) : Nat :=
  waves % 2 ^ 64 + came.length % 2 ^ 32 * 2 ^ 66 + 2 ^ 98 * ((came.reverse.take 248).zipIdx.map fun x => (x.1 + 1) % 2 ^ 32 * 2 ^ (32 * x.2)).sum

/-- The pod waves that a declaration took for a set that began to wait after k reports of its package: those from the one that took the
package's next report (R252; DESIGN CHOICE, log 15). -/
def declareCount (num k : Nat) : Nat :=
  let len := num / 2 ^ 66 % 2 ^ 32
  let at' := fun i : Nat => num / 2 ^ (98 + 32 * i) % 2 ^ 32
  if len ≤ k then 1 else max 1 (num % 2 ^ 64 + 1 - (if at' (len - 1 - k) = 0 then at' 247 else at' (len - 1 - k)))

/-- The flit that carries the result of a FIXQ's pass to the packages that take part (R281; DESIGN CHOICE, log 14). -/
def passFlit (line : Nat) (v : Bool) : BitVec 256 := BitVec.ofNat 256 (2 ^ 64 + v.toNat * 2 ^ 65 + line * 2 ^ 128)
/-- The report of a flit that a package sent. -/
def flitReport (pkg : Nat) (x : BitVec 256) : Report :=
  ⟨fld x 133 128, pkg, bit x 136, w64 (fld x 63 0), w64 (fld x 127 64), if bit x 137 then some (bit x 138) else none⟩

/-- A frame of a line's root leaves for a package. -/
def Fabric.sendLine (f : Fabric) (n d cls : Nat) (flits : List (BitVec 256)) : Fabric :=
  match f.peerPort (linePart (f.rootLine n)) d with
  | some p => f.sendFrame p d (linePart (f.rootLine n)) cls flits
  | none => f

/-- The pod root of a line: the lowest package number that takes part (R251). -/
def Fabric.podRoot (f : Fabric) (n : Nat) : Nat := (f.root n).members.foldl min f.pkg

/-- This package's report of its last wave. -/
def Fabric.ownReport (f : Fabric) (n : Nat) (clean : Bool) (pass : Option Bool) : Report :=
  ⟨n, f.pkg, clean, (f.root n).sent, (f.root n).recv, pass⟩

/-- A FIXQ's set goes on with its result. -/
def fixqDone (f : Fabric) (el : Nat) (p : Parked) (v : Bool) : Fabric :=
  f.modEl el fun e =>
    { e with parked := e.parked.erase p, ready := insertSet { p.set with note := 6, arg := w64 v.toNat } e.ready }

/-- The sets at an element whose pass on line c awaits the result of every package (R281). -/
def Element.passSets (e : Element) (c : Nat) : List Parked :=
  e.parked.filter fun p => p.reason == .lode && decide (p.set.note = 11)
    && decide (fld (Image.lit (e.imageOf p.set.ctx) (p.set.slot % 16)) 13 8 = c)

/-- The result of the passes of every package on line c reaches the FIXQs that wait for it (R281). -/
def Fabric.passDone (f : Fabric) (c : Nat) (v : Bool) : Fabric :=
  ((f.els.filter fun x => decide (f.partOf x.1 = linePart (f.rootLine c))).map (·.1)).foldl (fun f el =>
    ((f.el el).passSets c).foldl (fun f p => fixqDone f el p v) f) f

/-- At the pod root, once every package's report holds its pass result, all of them learn the AND (R281). -/
def Fabric.tellPass (f : Fabric) (n : Nat) (reps : List Report) : Fabric :=
  if reps.all (·.pass.isSome) then
    let v := reps.all (·.pass == some true)
    let f := f.modRoot n fun x => { x with pass := none, reports := x.reports.map fun y => (y.1, { y.2 with pass := none }) }
    ((f.root n).members.foldl (fun f d => f.sendLine n d 6 [passFlit n v]) f).passDone n v
  else f

/-- The latest reports of the packages that take part, this one's first. -/
def Fabric.podReports (f : Fabric) (n : Nat) : List (Option Report) := (f.pkg :: (f.root n).members).map fun d => tfind (f.root n).reports d

/-- At the pod root: the result of a FIXQ's pass is told once every package has reported its own (R281). -/
def Fabric.tryPass (f : Fabric) (n : Nat) : Fabric :=
  if (f.podReports n).all (·.isSome) then f.tellPass n ((f.podReports n).filterMap id) else f

/-- LODE_WAVE (R250, R251): a QUIET line declares at the second of two clean waves; a PODQUIET line reports to its pod root. The wave of a
FIXQ's pass reports its result alone where no set waits for a declaration on its line (R281). -/
def lodeWaveStep (f : Fabric) (n : Nat) : Fabric :=
  let w := f.rootLine n
  if !(f.root n).running || !lineV w || decide (lineMode w = 0) then f
  else
    let clean := !f.waveDirty n
    let f := f.waveDone n clean
    if lineMode w = 1 then
      if 2 ≤ (f.root n).clean then (let waves := (f.root n).waves; f.declare n fun k => waves - k) else f.nextWave n
    else
      let r := f.ownReport n clean (f.root n).pass
      if f.podRoot n = f.pkg then
        let old := (tfind (f.root n).reports f.pkg).bind (·.pass)
        let f := f.modRoot n fun x => { x with reports := tset x.reports f.pkg { r with pass := r.pass <|> old }, pass := none }
        if f.declWanted n then f.post (.podWave n) else (f.tryPass n).nextWave n
      else ((f.sendLine n (f.podRoot n) 5 [reportFlit r]).modRoot n fun x => { x with pass := none, podWaves := x.podWaves + 1 }).nextWave n

/-- POD_WAVE (R251): the latest report of every package that takes part. A DECLARE frame tells its package when its reports came, from
which each of its sets finds the pod waves since it began to wait (R252; DESIGN CHOICE, log 15). -/
def podWaveStep (f : Fabric) (n : Nat) : Fabric :=
  let r := f.root n
  let reps := f.podReports n
  if !r.running || decide (lineMode (f.rootLine n) ≠ 2) then f
  else if reps.any (·.isNone) then f.nextWave n
  else
    let rs := reps.filterMap id
    let sent := rs.foldl (fun x y => x + y.sent) (0 : DWord)
    let recv := rs.foldl (fun x y => x + y.recv) (0 : DWord)
    let ok := rs.all (·.clean) && decide (sent = recv)
    let k := if !ok then 0 else if decide (1 ≤ r.podClean) && decide (r.podSums = some (sent, recv)) then r.podClean + 1 else 1
    let f := (f.tellPass n rs).modRoot n fun x => { x with podWaves := x.podWaves + 1, podClean := k, podSums := some (sent, recv) }
    if 2 ≤ k then
      let num := (f.root n).podWaves
      (r.members.foldl (fun f d => f.sendLine n d 6 (declareFlits n (declareNum num (tget [] r.firsts d)))) f).declare n fun k => num - k
    else f.nextWave n

/-- REPORT_FRAME (R447): the latest report of a package; a pod root's waves run while reports come. One that carries the result of a
FIXQ's pass asks for no wave (R281). -/
def reportIn (f : Fabric) (r : Report) : Fabric :=
  let n := r.line
  let old := (tfind (f.root n).reports r.pkg).bind (·.pass)
  let f := f.modRoot n fun x => { x with
    reports := tset x.reports r.pkg { r with pass := r.pass <|> old }
    firsts := tset x.firsts r.pkg (tget [] x.firsts r.pkg ++ [x.podWaves]) }
  if decide (lineMode (f.rootLine n) = 2) && lineV (f.rootLine n) && decide (f.podRoot n = f.pkg) then
    if r.pass.isSome then f.tryPass n else (f.startWaves n).modRoot n fun x => { x with asked := true }
  else f

/-- DECLARE_FRAME (R447): as a local release, or the result of a FIXQ's pass. -/
def declareIn (f : Fabric) (n num : Nat) : Fabric :=
  if lineV (f.rootLine n) && decide (lineMode (f.rootLine n) = 2) then
    if num / 2 ^ 64 % 2 = 1 then f.passDone n (decide (num / 2 ^ 65 % 2 = 1))
    else
      let g := f.declare n (declareCount num)
      if (f.root n).pass.isSome then g
      else { g with agenda := g.agenda.filter fun e => match e with | .lodeWave m => decide (m ≠ n) | _ => true }
  else f

/-! ## FIXQ's pass (R281) -/

/-- Does an element hold a REL window of a relation of stratum s with CHANGED other than zero? -/
def Fabric.relChanged (f : Fabric) (el s : Nat) : Bool :=
  (List.range 8).any fun j =>
    let w := tget (0 : Word) (f.el el).wins j
    let h0 := (f.el el).mem.word (winBase w)
    decide (winRole w = 4) && bit h0 30
      && (match f.rel (f.partOf el) (fld h0 63 56) with | some r => decide (r.strat = s) | none => false)
      && decide ((f.el el).mem.word (winBase w + 24) ≠ 0)

/-- The AND of a pass on line c for a stratum. -/
def Fabric.changePass (f : Fabric) (c s : Nat) : Bool := (f.taps c).all fun el => !f.relChanged el s

/-- FIXQ_PASS (R281): on PODQUIET lines the package's next pod report carries the result, and the set waits for that of every
package. -/
def fixqPassStep (f : Fabric) (el stamp : Nat) : Fabric :=
  match (f.el el).parked.find? fun p => p.reason == .lode && decide (p.set.note = 7) && decide (p.set.stamp = stamp) with
  | none => f
  | some p =>
    let ctl := Image.lit ((f.el el).imageOf p.set.ctx) (p.set.slot % 16)
    let c := fld ctl 13 8
    let b := f.changePass c (fld ctl 19 16)
    if lineMode (f.rootLine c) ≠ 2 then fixqDone f el p b
    else
      let f := f.modEl el fun e => { e with parked := e.parked.map fun x => if x = p then { x with set := { x.set with note := 11 } } else x }
      (f.startWaves c).modRoot c fun r => { r with pass := some (b && r.pass.getD true) }

/-- LODE_WAVE (R250). -/
def execLodeWave (n : Nat) (s : State) : Host.Outcome State Fault Refusal := fabStep s fun f => lodeWaveStep f n
/-- BARRIER_RELEASE (R247). -/
def execBarrierRelease (n : Nat) (s : State) : Host.Outcome State Fault Refusal := fabStep s fun f => barrierPass f n
/-- POD_WAVE (R251). -/
def execPodWave (n : Nat) (s : State) : Host.Outcome State Fault Refusal := fabStep s fun f => podWaveStep f n
/-- FIXQ_PASS (R281). -/
def execFixqPass (el id : Nat) (s : State) : Host.Outcome State Fault Refusal := fabStep s fun f => fixqPassStep f el id
/-- REPORT_FRAME (R447). -/
def execReportFrame (r : Report) (s : State) : Host.Outcome State Fault Refusal := fabStep s fun f => reportIn f r
/-- DECLARE_FRAME (R447). -/
def execDeclareFrame (line num : Nat) (s : State) : Host.Outcome State Fault Refusal := fabStep s fun f => declareIn f line num

end Sys2Proof.Machine
end

