-- ==== Sys2Proof/Machine/LinkEv.lean ====
section
/-! DEFINITION. The Volwin links (R420-R425): VOLWIN_BLOCK_RECEIVE, VOLWIN_RETRY_TIMEOUT, VOLWIN_MESSAGE and LANE_REPAIR. The model's
own traffic crosses a link as the event it becomes at the far side (log 17); blocks and messages that come as frames of bits
are read here, at either end. -/

namespace Sys2Proof.Machine

/-! ## Bits of flits -/

/-- Flits cut into messages by their headers, idle flits passed over (R421, R423); what is left begins a message that is not
whole yet. -/
def splitMsgs : Nat → List (BitVec 256) → List (List (BitVec 256)) × List (BitVec 256)
  | 0, fl => ([], fl)
  | _ + 1, [] => ([], [])
  | n + 1, x :: r =>
    if fld x 255 253 = 7 then splitMsgs n r
    else if r.length < fld x 252 248 then ([], x :: r)
    else
      let y := splitMsgs n (r.drop (fld x 252 248))
      ((x :: r.take (fld x 252 248)) :: y.1, y.2)

/-- The token of a message (R17, R423): the header over bits 255:224 is cleared. -/
def flitsTok (fl : List (BitVec 256)) : Tok :=
  let x := fl.getD 0 0
  let p := fld x 223 160 + ((List.range 4).map fun i => (fl.getD (i + 1) 0).toNat * 2 ^ (64 + 256 * i)).sum
  (readRecord ([w64 (fld x 63 0), w64 (fld x 159 96), 0, w64 (fld x 95 64)] ++ (List.range 16).map fun i => w64 (p / 2 ^ (64 * i)))).tok

/-- The flits that a token takes (R17). -/
def tokFlits (t : Tok) : Nat :=
  let p := if t.eos ≠ 0 then 0 else if t.vec then t.len * codeWidth t.fmt else 64
  1 + (p - 64 + 255) / 256

/-- The operation of a memory request (R425). -/
def flitsOp (fl : List (BitVec 256)) : Option ReqOp :=
  let x := fl.getD 0 0
  match fld x 247 240 with
  | 0 => some .load
  | 1 => some .store
  | 2 => some (.atomic (BitVec.ofNat 8 (fld x 103 96)) ((Fmt.ofCode (fld (fl.getD 1 0) 67 64)).getD .n64))
  | 3 => some .feset
  | 4 => some .feclr
  | 5 => some .pref
  | 6 => some .store
  | 7 => some .load
  | _ => none

/-- The request of a message, for an issuer with a key (R423, R425). The order id names the firing and the lane. -/
def flitsReq (fl : List (BitVec 256)) (el kind : Nat) (op : ReqOp) : Req :=
  let x := fl.getD 0 0
  { el := el, id := fld x 135 120 / 64, lane := fld x 135 120 % 64, ctx := fld x 223 216, part := fld x 239 236, priv := fld x 235 234,
    ukind := kind, op := op, bytes := 2 ^ fld x 138 136, addr := fld x 56 0, data := w64 (fld (fl.getD 1 0) 63 0),
    cmp := w64 (fld (fl.getD 2 0) 63 0), oid := fld x 135 120, pred := if fld x 119 104 = 0xFFFF then none else some (fld x 119 104),
    eng := false, fe := false }

/-- A request of more than 8 bytes as the words it reads or writes (R8), their lanes 64 apart, or 65,536 for a peer's. -/
def wordReqs (fl : List (BitVec 256)) (q : Req) : List Req :=
  if q.bytes ≤ 8 then [q]
  else (List.range (q.bytes / 8)).map fun i =>
    { q with lane := q.lane + (if q.el < 131072 then 64 else 65536) * i, bytes := 8, addr := q.addr + 8 * i, data := w64 (fld (fl.getD (1 + i / 4) 0) (64 * (i % 4) + 63) (64 * (i % 4))) }

/-- A Geode operation's request (R380-R390; log 14). -/
def flitsGeode (fl : List (BitVec 256)) (pkg : Nat) : GReq :=
  let x := fl.getD 0 0
  let y := fl.getD 1 0
  let z := fl.getD 2 0
  let op : GOp := match fld z 47 40 with | 0 => .claim | 1 => .fulfil | 2 => .abandon | 3 => .clinv | _ => .clqry
  let eid := w64 (fld y 191 128)
  { pkg := pkg, el := fld x 159 144, id := fld x 135 120 / 64, ctx := fld z 63 48, part := fld x 239 236, priv := fld x 235 234, op := op,
    dig := w64 (fld y 63 0), ver := w32 (fld y 127 96), fn := w32 (fld y 95 64), eid := if op = .clinv then 0 else eid,
    addr := w64 (fld y 255 192), len := w32 (fld z 31 0), cls := BitVec.ofNat 4 (fld z 35 32),
    set := if op = .fulfil ∨ op = .abandon then fld eid 48 36 else 0, pod := bit z 36 }

/-! ## Modules (R420-R422) -/

/-- The claims that wait at a slice for requests whose issuer's link to it died raise DATA, their waiters gone (R391, R422). -/
def linkWaiters (f : Fabric) (sd : Nat) : Fabric :=
  (f.die sd).ways.foldl (fun f x =>
    let gone := fun w : Waiter => !(decide (w.pkg = f.pkg) && isFatik w.el && decide (fatikStack w.el = sd))
    let ws := x.2.waiters.filter gone
    if ws.isEmpty then f
    else
      let f := (f.putWay sd x.1 { x.2 with waiters := x.2.waiters.filter fun w => !gone w }).modDie sd fun d =>
        { d with waitersUsed := d.waitersUsed - ws.length }
      ws.foldl (fun f w => f.geodeTrap ⟨w.pkg, w.el, w.id, w.ctx, w.part, 0, .claim, 0, 0, 0, 0, 0, 0, 0, 0, false⟩ .data Pend.slotW) f) f

/-- The requests outstanding over a link that died end (R422): those under or awaiting a walk, at a channel port, deferred, parked as
writes, on their way between these or back, held by a Fatik element as commands, and the aperture stores of the sequencer. Those that
still travel to the base die find it dead as they come, and a copy's pieces as they go on. -/
def linkDown (f : Fabric) (sd : Nat) : Fabric :=
  let d := f.die sd
  let gone := fun q : Req => crosses sd q
  let chan := fun e : Ev => match e with | .channelRequest s _ q => if s = sd ∧ gone q then some q else none | _ => none
  let back := fun e : Ev => match e with
    | .channelReadReturn s a => decide (s = sd) && d.reads.any fun q => gone q && decide (reqKey q = (a.el, a.id, a.lane))
    | _ => false
  let late := fun x : Req × Cause × Word => decide (x.2.1 = .stalled) && decide (x.1.bytes ≠ 64) && gone x.1
  let cmds := (List.range 4).flatMap fun n => ((f.el (fatikKey sd n)).cmds.map (·.1)).filter gone
  let qs := (d.walks.flatMap (·.reqs) ++ d.walkQ ++ d.queued.map (·.2.2) ++ d.deferred.map (·.2) ++ d.reads ++ d.apAcks.map (·.1.q)).filter gone
    ++ (d.park.filter late).map (·.1) ++ f.agenda.filterMap chan
  let f := { f with agenda := f.agenda.filter fun e => (chan e).isNone && !back e }
  let f := f.modDie sd fun d => { d with
    walks := d.walks.map fun w => { w with reqs := w.reqs.filter fun q => !gone q }
    walkQ := d.walkQ.filter fun q => !gone q
    queued := d.queued.filter fun x => !gone x.2.2
    deferred := d.deferred.filter fun x => !gone x.2
    reads := d.reads.filter fun q => !gone q
    apAcks := d.apAcks.filter fun x => !gone x.1.q
    park := d.park.filter fun x => !late x }
  let f := ((d.park.filter late).map (·.1)).foldl (fun f q => f.unmigrate q) f
  linkWaiters (cmds.foldl (fun f q => f.faultAt none q .data (f.slotInfo q)) (qs.foldl (fun f q => f.loseReq q) f)) sd

/-- A module leaves service (R422): the unacknowledged blocks of both its ends are sent again on the lowest one left, or the link is
dead. -/
def modOut (f : Fabric) (sd md : Nat) : Fabric :=
  let m := f.vmod sd md
  let f := (f.setBd sd 0x220 (setFld (f.bd sd 0x220) (32 + md) (32 + md) 0)).setMod sd md { VModule.reset with repairs := m.repairs }
  match (List.range 10).find? fun k => f.modUp sd k with
  | some k => ((m.base.unacked ++ m.die.unacked).foldl (fun f b => f.sendBlock sd k b.toDie b.flits) f).countRetry sd
      (m.base.unacked.length + m.die.unacked.length)
  | none => linkDown f sd

/-- An acknowledgment at an end: its blocks up to it are forgotten (R421), and as many of those behind the first 64 are sent (R422). -/
def VEnd.acked (e : VEnd) (ack : Nat) : VEnd × List VBlock :=
  let keep := e.unacked.filter fun b => !decide ((ack + 4096 - fld b.trailer 55 44) % 4096 < 2048)
  let n := e.unacked.length - keep.length
  ({ e with unacked := keep, resends := if n = 0 then e.resends else 0 }, (keep.take 64).drop (64 - n))

/-- VOLWIN_BLOCK_RECEIVE (R421, R422): a bad block, and every later one until it comes again, is discarded. An end that takes a block
with a message sends one back, whose trailer acknowledges it. -/
def blockIn (f : Fabric) (sd md : Nat) (b : VBlock) : Fabric :=
  let m := f.vmod sd md
  let e := m.taker b.toDie
  if !f.modUp sd md then f
  else if b.flits.length ≠ 16 ∨ (flitsCrc b.flits).toNat ≠ fld b.trailer 31 0 then
    if 16 ≤ e.fails + 1 then modOut f sd md else f.setMod sd md (m.setTaker b.toDie { e with fails := e.fails + 1 })
  else
    let x := e.acked (fld b.trailer 43 32)
    let e := x.1
    let f := f.postAll (x.2.map fun b => .volwinBlockReceive sd md b)
    if fld b.trailer 55 44 ≠ e.rx then f.setMod sd md (m.setTaker b.toDie e)
    else
      let x := splitMsgs (e.rest.length + 17) (e.rest ++ b.flits)
      let f := (f.setMod sd md (m.setTaker b.toDie { e with rx := (e.rx + 1) % 4096, fails := 0, rest := x.2 })).postAll
        (x.1.map fun fl => .volwinMessage sd md b.toDie fl)
      if b.flits = idleFlits then f else f.sendBlock sd md (!b.toDie) idleFlits

/-- VOLWIN_RETRY_TIMEOUT (R422): the unacknowledged blocks that an end has sent are sent again; a block that fails 16 times takes its
module out. -/
def retryBlocks (f : Fabric) (sd md : Nat) : Fabric :=
  let m := f.vmod sd md
  let again := fun e : VEnd => e.unacked.take 64
  let more := fun e : VEnd => if e.unacked.isEmpty then e else { e with resends := e.resends + 1 }
  let m := { m with base := more m.base, die := more m.die }
  let bs := again m.base ++ again m.die
  if !f.modUp sd md || bs.isEmpty then f
  else if 16 ≤ max m.base.resends m.die.resends then modOut f sd md
  else ((f.setMod sd md m).countRetry sd bs.length).postAll (bs.map fun b => .volwinBlockReceive sd md b)

/-- LANE_REPAIR (R422): a redundant lane takes over; with none left the module leaves service. -/
def repairLane (f : Fabric) (sd md : Nat) : Fabric :=
  let m := f.vmod sd md
  if !f.modUp sd md then f
  else if m.repairs ≤ 1 then modOut (f.setMod sd md { m with repairs := 0 }) sd md
  else f.setMod sd md { m with repairs := m.repairs - 1 }

/-! ## Messages (R423-R425) -/

/-- Is a message malformed: a reserved class or operation, or a FLITS value that disagrees with its content? The content of a command is
its first flit; that of a register access has a second with the value that a write carries; the flits of answers, of Geode operations
and of class 4 are the model's own (log 14). -/
def msgBad (fl : List (BitVec 256)) : Bool :=
  let x := fl.getD 0 0
  let opc := fld x 247 240
  let n := fl.length
  decide (n ≠ fld x 252 248 + 1) ||
    (match fld x 255 253 with
    | 0 => decide (n ≠ tokFlits (flitsTok fl))
    | 1 => decide (n ≠ tokFlits (flitsTok fl))
    | 2 =>
      decide (fld x 138 136 = 7) ||
      (if opc = 1 then decide (n ≠ 1 + max 1 (2 ^ fld x 138 136 / 32))
      else if opc = 2 then decide (n < 2) || decide (3 < n)
      else if opc = 6 then decide (n ≠ 2)
      else if opc = 8 then decide (n ≠ 3)
      else if opc = 10 then decide (2 < n)
      else if opc ≤ 9 then decide (n ≠ 1)
      else true)
    | 3 => if opc = 0 then decide (n < 2) else if opc = 2 then decide (n ≠ 2) else decide (n ≠ 1) || decide (4 < opc)
    | 4 => if opc = 0 then decide (n ≠ 2) else decide (n ≠ 1) || decide (1 < opc)
    | _ => true)

/-- The compute die that a stack's link lands on (R420). -/
def landingDie (sd : Nat) : Nat := [0, 1, 2, 3, 7, 11, 15, 14, 13, 12, 8, 4].getD (sd / 2) 0

/-- A malformed message is counted (R423): in BADMSG at the base die, in EL.BADTOK of the landing die's edge element (log 17). -/
def badMsg (f : Fabric) (sd : Nat) (toDie : Bool) : Fabric :=
  if toDie then f.modEl (4096 * landingDie sd) fun e => { e with badtok := satAdd e.badtok 1 }
  else f.setBd sd 0x220 (setFld (f.bd sd 0x220) 15 0 (min (fld (f.bd sd 0x220) 15 0 + 1) 0xFFFF))

/-- The request of a firing's lane that is on its way to a base die, or stands there. -/
def Fabric.findReq (f : Fabric) (el id lane : Nat) : Option Req :=
  let ev := fun e : Ev => match e with | .translationRequest _ q => some q | .channelRequest _ _ q => some q | _ => none
  (f.agenda.filterMap ev ++ f.dies.flatMap fun x => x.2.walks.flatMap (·.reqs) ++ x.2.walkQ ++ x.2.queued.map (·.2.2)).find? fun q =>
    decide (reqKey q = (el, id, lane))

/-- That request is there no longer. -/
def Fabric.dropReq (f : Fabric) (q : Req) : Fabric :=
  let ev := fun e : Ev => match e with | .translationRequest _ r => decide (r = q) | .channelRequest _ _ r => decide (r = q) | _ => false
  { f with
    agenda := f.agenda.filter fun e => !ev e
    dies := f.dies.map fun x => (x.1, { x.2 with
      walks := x.2.walks.map fun w => { w with reqs := w.reqs.filter (· ≠ q) }, walkQ := x.2.walkQ.filter (· ≠ q)
      queued := x.2.queued.filter fun y => y.2.2 ≠ q }) }

/-- The one answer that a firing awaits is deferred: its answer place frees (R197, R340). -/
def Fabric.deferAnswer (f : Fabric) (el id : Nat) : Fabric :=
  match (f.el el).pendOf id with
  | some p => if p.phase = 0 ∧ p.accs = [] ∧ p.left = 1 then wakeDone (f.putPend el { p with phase := 2000 }) el else f
  | none => f

/-- An answer that crosses the link (R214, R365, R366, R425): a value or completion; a fault answer of an access parked at the base die; a
retry, which makes the access wait under QUEUE; a deferral, which gives its answer place back (R197). -/
def answerIn (f : Fabric) (sd : Nat) (fl : List (BitVec 256)) (el : Nat) : Fabric :=
  let x := fl.getD 0 0
  let id := fld x 135 120 / 64
  let lane := fld x 135 120 % 64
  let ans := fun v : DWord => f.post (.memoryAnswer ⟨el, id, lane, v, true, bit x 221, BitVec.ofNat 2 (fld x 223 222)⟩)
  match fld x 247 240 with
  | 0 => ans (w64 (fld (fl.getD 1 0) 63 0))
  | 1 => ans 0
  | 2 =>
    match (f.die sd).park.find? fun p => decide (p.1.el = el) && decide (p.1.id = id) && decide (p.1.lane = lane) with
    | some (q, c, info) => f.post (.faultAnswer q c info)
    | none => f
  | 3 =>
    match f.findReq el id lane with
    | some q => (f.dropReq q).post (.retryAnswer q)
    | none => f
  | _ => f.deferAnswer el id

/-- The event of a Geode request at its slice in this package. -/
def geodeEvent (f : Fabric) (el : Nat) (fl : List (BitVec 256)) (pkg : Nat) : Ev :=
  let g := { flitsGeode fl pkg with el := el }
  if g.op = .clinv then .clinvSetStep ((f.sequencer g.part).getD 0) g
  else if g.op = .fulfil ∨ g.op = .abandon then .geodeSliceOperation (fld g.eid 53 49) g
  else
    let h := f.geodeHome g.part (if g.pod then fld (fl.getD 2 0) 79 64 + 1 else 1) (g.dig, g.ver, g.fn)
    .geodeSliceOperation h.1 { g with set := h.2 }

/-- A request that came as a message is known until its answer has left: n answers of 8 bytes end it. -/
def Fabric.takeRaw (f : Fabric) (sd md : Nat) (fl : List (BitVec 256)) (el part n : Nat) (data : Bool) : Fabric :=
  { f with raws := f.raws ++ [⟨el, fld (fl.getD 0 0) 135 120, sd, fld (fl.getD 0 0) 143 139, part, md, n, n, data, [], false, 0, false⟩] }

/-- Does the answer of a memory request carry data? -/
def ReqOp.answers : ReqOp → Bool
  | .load | .atomic _ _ => true
  | _ => false

/-- The memory requests of a message (R425): its words, each outstanding at the base die (R433). -/
def Fabric.takeWords (f : Fabric) (sd md : Nat) (fl : List (BitVec 256)) (q : Req) : Fabric × List Req :=
  let qs := wordReqs fl q
  (f.takeRaw sd md fl q.el q.part qs.length (ReqOp.answers q.op), qs)

/-- A request of a link's message (R425), at the base die or, `toDie`, on its way from a Fatik element to the compute die. The register of
a CSR access stands in its address (DESIGN CHOICE, log 14): unit kind over bits 29:28, unit over bits 27:12, number over bits 11:0; an
engine command's element is the one of its base die that bits 1:0 give, or bits 6:2 its stack on the way out. -/
def requestIn (f : Fabric) (sd md : Nat) (toDie : Bool) (fl : List (BitVec 256)) : Fabric :=
  let x := fl.getD 0 0
  let el := if toDie then fatikKey sd (fld x 159 144 % 4) else fld x 159 144
  let opc := fld x 247 240
  let q := flitsReq fl el (if toDie then 1 else fld x 233 232) ((flitsOp fl).getD .load)
  let f' := f.takeRaw sd md fl el q.part 1
  if opc ≤ 5 then
    let y := f.takeWords sd md fl q
    if toDie then y.2.foldl (fun f q => f.sendReq q) y.1
    else (y.1.modDie sd fun d => { d with outst := d.outst ++ y.2.map fun q => (q.el, q.oid) }).postAll (y.2.map fun q => .translationRequest sd q)
  else if opc = 6 then (f' false).post (.apertureStore { q with bytes := 8 })
  else if opc = 7 then (f' true).post (.apertureLoad { q with bytes := 8 })
  else if opc = 8 then (f' true).post (geodeEvent f el fl f.pkg)
  else if opc = 9 then
    let there := if toDie then q.addr / 4 % 32 else sd
    (f' true).post (.engineCommand there (q.addr % 4) q [w64 (fld x 63 0), w64 (fld x 127 64), w64 (fld x 191 128), w64 (fld x 223 192)])
  else
    let unit := if toDie then fld x 29 28 else 2
    let key := if toDie then fld x 27 12 else sd
    if fl.length = 2 then (f' false).post (csrEvent ⟨unit, key, q.addr % 4096, q.data, q.part, q.priv, some (el, q.id)⟩)
    else (f' true).answerReq q (f.csrRead unit key (q.addr % 4096))

/-- VOLWIN_MESSAGE (R423, R424): discarded if malformed, else passed to its class. Its end takes the credit that it brings, and owes that of
its flits. -/
def messageIn (f : Fabric) (sd md : Nat) (toDie : Bool) (fl : List (BitVec 256)) : Fabric :=
  let x := fl.getD 0 0
  let fk := fun e : Nat => fatikKey sd (e % 4)
  let tok := fun (f : Fabric) (p : Port) => f.post (.tokenArrive (if toDie then fld x 63 48 else fk (fld x 63 48)) p (flitsTok fl))
  if msgBad fl then badMsg f sd toDie
  else if f.linkDead sd then f
  else
    let m := f.vmod sd md
    let e := m.taker toDie
    let f := f.setMod sd md (m.setTaker toDie { e with cred := tset e.cred (fld x 231 229) (tget 0 e.cred (fld x 231 229) + fld x 228 224) })
    let f := f.oweCredit sd md toDie (fld x 255 253) fl.length
    match fld x 255 253 with
    | 0 => tok f .packet
    | 1 => tok f .signal
    | 2 => requestIn f sd md toDie fl
    | 3 => answerIn f sd fl (if toDie then fld x 159 144 else fk (fld x 159 144))
    | _ =>
      if fld x 247 240 = 1 then f.post (.applyAck ((f.sequencer (f.partOfStack sd)).getD sd) (fld x 63 0))
      else
        let q := { flitsReq fl (fld x 159 144) 0 .store with bytes := 8 }
        f.post (.tableApply sd ⟨fld x 63 0, fld x 103 64, q.data, q⟩)

/-- VOLWIN_BLOCK_RECEIVE (R421). -/
def execVolwinBlockReceive (sd md : Nat) (b : VBlock) (s : State) : Host.Outcome State Fault Refusal := fabStep s fun f => blockIn f sd md b
/-- VOLWIN_RETRY_TIMEOUT (R422). -/
def execVolwinRetryTimeout (sd md : Nat) (s : State) : Host.Outcome State Fault Refusal := fabStep s fun f => retryBlocks f sd md
/-- VOLWIN_MESSAGE (R423). -/
def execVolwinMessage (sd md : Nat) (toDie : Bool) (fl : List (BitVec 256)) (s : State) : Host.Outcome State Fault Refusal :=
  fabStep s fun f => messageIn f sd md toDie fl
/-- LANE_REPAIR (R422). -/
def execLaneRepair (sd md : Nat) (s : State) : Host.Outcome State Fault Refusal := fabStep s fun f => repairLane f sd md

end Sys2Proof.Machine
end

