-- ==== Sys2Proof/Machine/ScaleoutEv.lean ====
section
/-! DEFINITION. Scale-out ports and the host (R444-R447, R368, R391): SCALEOUT_FRAME_RECEIVE, SCALEOUT_RESEND_TIMEOUT,
SCALEOUT_PORT_DEAD and HOST_BAR_ACCESS. -/

namespace Sys2Proof.Machine

/-! ## Tokens of a pod (R251) -/

/-- A token of an enrolled context counts as received on the PODQUIET lines of its partition. -/
def countRecv (f : Fabric) (part ctx : Nat) : Fabric :=
  ((List.range 64).filter fun n =>
      let w := f.rootLine n
      lineV w && decide (lineMode w = 2) && decide (linePart w = part) && lineCtx w ctx).foldl
    (fun f n => f.modRoot n fun r => { r with recv := r.recv + 1 }) f

/-! ## Answers (R368, R391) -/

/-- The request that an answer's element and order id name. -/
def Fabric.peerReq (f : Fabric) (eid oid : Nat) : Option (Nat × Req) :=
  f.peers.find? fun p => decide (p.2.el % 65536 = eid) && decide (p.2.oid % 65536 = oid)

/-- A request to a peer is answered. -/
def Fabric.dropPeer (f : Fabric) (x : Nat × Req) : Fabric := { f with peers := f.peers.erase x }

/-- The firing of a claim form that a request belongs to. -/
def Fabric.claimPend (f : Fabric) (q : Req) : Option Pend :=
  ((f.el q.el).pendOf q.id).bind fun p => if 0xE1 ≤ p.op ∧ p.op ≤ 0xE5 then some p else none

/-- The package that a request went to. -/
def peerOf (q : Req) : Nat := q.addr / 2 ^ 46 - 1024

/-- An answer that a peer sent (log 14): values and completions, faults, retries and deferrals. A claim held as a waiter is answered
again; a word of an eviction record is its base die's; a store held back by a full word of its firing waits with it (R197). DATA that no
rule gives an information word carries the slot (R393), which the peer does not know. -/
def peerAnswer (f : Fabric) (fl : List (BitVec 256)) : Fabric :=
  let x := fl.getD 0 0
  let y := fl.getD 1 0
  let opc := fld x 247 240
  match f.peerReq (fld x 159 144) (fld x 135 120) with
  | none => f
  | some e =>
    let q := e.2
    let lost := (Cause.ofCode (fld y 7 0)).getD .data
    let info := fun p : Word => if fld y 95 64 = 0xFFFFFFFF then p else w32 (fld y 95 64)
    if ctlKey < q.el then
      if opc = 3 then f.sendFrame e.1 (peerOf q) q.part 2 (reqFlits 0 0 q)
      else (f.dropPeer e).reportAnswered (q.el - ctlKey - 1) (decide (opc ≤ 1) && !bit x 221)
    else
      match f.claimPend q with
      | some p =>
        if opc = 2 then
          parkStep (f.dropPeer e) q.el p (if p.op = 0xE4 then peerOf q + 1 else 0) lost (if lost = .claim then w32 (fld y 95 64) else p.slotW)
        else
          let g := claimAnswered f q.el p (w64 (fld y 63 0)) (w64 (fld y 127 64))
          if ((g.el q.el).pendOf q.id).any fun z => decide (z.phase = 2100) then g else g.dropPeer e
      | none =>
        match opc with
        | 2 => (f.dropPeer e).post (.faultAnswer q lost (info (f.slotInfo q)))
        | 3 =>
          if bit x 221 then parkAccess (f.dropPeer e) q.el q.id ⟨q.lane, .wave, .stalled, 0, true, some q⟩
          else (f.dropPeer e).post (.retryAnswer q)
        | 4 => f.deferAnswer q.el q.id
        | _ =>
          (f.dropPeer e).post (.memoryAnswer ⟨q.el, q.id, q.lane, if opc = 0 then w64 (fld y 63 0) else 0, true, bit x 221, BitVec.ofNat 2 (fld x 223 222)⟩)

/-! ## Requests of a peer (R368, R391) -/

/-- A claim request of a peer: the port's access table, then NPKG; a context-end notice goes to every slice. -/
def peerGeode (f : Fabric) (port spkg part : Nat) (fl : List (BitVec 256)) : Fabric :=
  let z := fl.getD 2 0
  let g := flitsGeode fl spkg
  let npkg := ((f.blksOf part).head?.map fun b => fld (f.bk b 6) 25 16).getD 0
  if fld z 47 40 = 5 then f.postAll ((f.stacksOf part).map fun sd => .contextEndNotice sd spkg part (fld z 63 48))
  else if !f.portAllows port part g.priv 3 3 then f.geodeTrap g .access Pend.slotW
  else if npkg ≠ fld z 79 64 ∨ (f.stacksOf part).length = 0 then f.geodeTrap g .data Pend.slotW
  else f.post (geodeEvent f g.el fl spkg)

/-- A message of a frame. -/
def frameMsg (port : Nat) (fr : ScaleFrame) (f : Fabric) (fl : List (BitVec 256)) : Fabric :=
  let x := fl.getD 0 0
  let t := flitsTok fl
  if msgBad fl && decide (fr.cls ≤ 4) then f
  else match fr.cls with
    | 0 => (countRecv f fr.part t.ctx).post (.tokenArrive (fld x 63 48) .packet t)
    | 1 => (countRecv f fr.part t.ctx).post (.tokenArrive (fld x 63 48) .signal t)
    | 2 =>
      if fld x 247 240 = 8 then peerGeode f port fr.spkg fr.part fl
      else
        let q := { flitsReq fl (peerKey fr.spkg (fld x 159 144)) 3 ((flitsOp fl).getD .load) with
          part := fr.part, id := fr.part, lane := fld x 135 120, pred := none }
        if fld x 247 240 ≤ 5 then
          let y := f.takeWords 0 0 fl q
          y.1.postAll (y.2.map fun q => .peerAccess port q)
        else f.faultAt none q .access (w32 q.addr)
    | 3 => peerAnswer f fl
    | _ => f

/-- The EtherType of a transport frame (R445). -/
def etherType : BitVec 16 := 0x88B5
/-- The address of a port (R445). -/
def portAddr (pkg port : Nat) : BitVec 48 := BitVec.ofNat 48 (0x020000000000 + 16 * pkg + port)
/-- A frame's transport header (R445). -/
def frameHeader (fr : ScaleFrame) : BitVec 128 :=
  BitVec.ofNat 128 (fr.dpkg % 1024 * 2 ^ 118 + fr.spkg % 1024 * 2 ^ 108 + fr.part % 16 * 2 ^ 104 + fr.cls % 8 * 2 ^ 101
    + (fr.flits.length - 1) % 32 * 2 ^ 96 + fr.seq.toNat * 2 ^ 80 + fr.ack.toNat * 2 ^ 64)
/-- The frame of a transport header and the flits behind it, as many as NFLIT says; none where they are too few. -/
def headerFrame (h : BitVec 128) (fl : List (BitVec 256)) : Option ScaleFrame :=
  let n := fld h 100 96 + 1
  if fl.length < n then none
  else some ⟨fld h 127 118, fld h 117 108, fld h 107 104, fld h 103 101, BitVec.ofNat 16 (fld h 95 80), BitVec.ofNat 16 (fld h 79 64), fl.take n⟩

/-- An acknowledgment leaves alone, in a frame of class 7, which no sequence number counts (R445). -/
def Fabric.sendAck (f : Fabric) (port pkg : Nat) : Fabric := f.modPair port pkg fun o => { o with told := o.rx - 1 }

/-- SCALEOUT_FRAME_RECEIVE (R445, R446): acknowledged frames of the port pair are forgotten; a frame in sequence is taken and acknowledged
at once (DESIGN CHOICE, log 14), any other discarded. -/
def frameIn (f : Fabric) (port : Nat) (fr : ScaleFrame) : Fabric :=
  if (f.portAt port).dead || decide (fr.dpkg ≠ f.pkg) || fr.flits.isEmpty || decide (32 < fr.flits.length) then f
  else
    let o := f.pairAt port fr.spkg
    let keep := o.unacked.filter fun x => !decide ((fr.ack - x.seq).toNat < 32768)
    let f := f.modPair port fr.spkg fun o => { o with unacked := keep, resends := if keep.length < o.unacked.length then 0 else o.resends }
    if fr.cls = 7 ∨ fr.seq ≠ o.rx then f
    else
      let f := (f.modPair port fr.spkg fun o => { o with rx := o.rx + 1 }).sendAck port fr.spkg
      match fr.cls with
      | 5 => f.post (.reportFrame (flitReport fr.spkg (fr.flits.getD 0 0)))
      | 6 => f.post (.declareFrame (fld (fr.flits.getD 0 0) 133 128) (flitsDeclare fr.flits))
      | _ => (splitMsgs (fr.flits.length + 1) fr.flits).1.foldl (frameMsg port fr) f

/-- SCALEOUT_RESEND_TIMEOUT (R446): the frames of every pair of the port are sent again; after 64 resends of one the port is dead. -/
def frameResend (f : Fabric) (port : Nat) : Fabric :=
  let o := f.portAt port
  if o.dead then f
  else
    let f := f.modPort port fun o =>
      { o with pairs := o.pairs.map fun x => (x.1, if x.2.unacked.isEmpty then x.2 else { x.2 with resends := min 64 (x.2.resends + 1), told := x.2.rx - 1 }) }
    if (f.portAt port).pairs.any fun x => decide (64 ≤ x.2.resends) then f.post (.scaleoutPortDead port) else f

/-- The end of a request that a dead port carried (R368, R388, R391). -/
def losePeer (f : Fabric) (q : Req) : Fabric :=
  if ctlKey < q.el then f.reportAnswered (q.el - ctlKey - 1) false
  else match f.claimPend q with
    | some p => parkStep f q.el p (if p.op = 0xE4 then peerOf q + 1 else 0) .data p.slotW
    | none => f.deadAnswer q

/-- SCALEOUT_PORT_DEAD (R446): unacknowledged tokens count as received (R251), and the port's requests end. -/
def portDies (f : Fabric) (port : Nat) : Fabric :=
  let o := f.portAt port
  if o.dead then f
  else
    let f := f.modPort port fun o => { o with dead := true, pairs := o.pairs.map fun x => (x.1, { x.2 with unacked := [] }) }
    let lost := (o.pairs.flatMap (·.2.unacked)).filter fun x => decide (x.cls ≤ 1)
    let toks := lost.flatMap fun x => (splitMsgs (x.flits.length + 1) x.flits).1.map fun fl => (x.part, (flitsTok fl).ctx)
    let f := toks.foldl (fun f x => countRecv f x.1 x.2) f
    let mine := f.peers.filter fun x => decide (x.1 = port)
    let f := { f with peers := f.peers.filter fun x => decide (x.1 ≠ port) }
    mine.foldl (fun f x => losePeer f x.2) f

/-! ## The host (R444) -/

/-- A host's read at offset o of BAR0 (R324, R325): the launch status register's bytes at 0x1_0000, and zero in the packet aperture. -/
def hostRead0 (f : Fabric) (part o n : Nat) : Fabric :=
  let v := if o / 8 = 0x2000 then (f.launchStatus part).toNat / 2 ^ (8 * (o % 8)) % 2 ^ (8 * n) else 0
  f.modLaunch part fun l => { l with readout := w64 v }

/-- HOST_BAR_ACCESS (R444): nothing answers at a disabled function; else offset o of BAR2 as a SYS master of unit kind 2; the host bridge's table comes first. A read with address
bit 46 set is one of BAR0 (log 45). The page-table and signer apertures are not the host's (R359, R452). -/
def hostAccess (f : Fabric) (q : Req) : Fabric :=
  let o := q.addr % 2 ^ 46
  let bar0 := q.addr.testBit 46
  let posted := decide (q.op = .store) && !bar0
  let q := { q with el := hostKey, id := q.part, lane := posted.toNat, ctx := 0, priv := 1, ukind := 2, addr := o, oid := 0 }
  let q := { q with pred := none, eng := false, fe := false }
  let f := if posted && f.booted q.part then f.modLaunch q.part fun l => { l with posted := l.posted + 1 } else f
  if !f.booted q.part then f
  else if bar0 then (if q.op = .load then hostRead0 f q.part o q.bytes else f)
  else if !f.hostAllows q.part 1 2 (ReqOp.needs q.op) then f.refuse q
  else if o / 2 ^ 40 = 0x3F then f.post (.stripeAccess q)
  else if o / 2 ^ 40 = 0x3E ∨ o / 2 ^ 40 = 0x3D then f.faultAt none q .access (w32 o)
  else match f.home q.part o with
    | some sd => f.post (.translationRequest sd q)
    | none => f.faultAt none q .page (pageInfo 0 o)

/-- SCALEOUT_FRAME_RECEIVE (R446). -/
def execScaleoutFrameReceive (port : Nat) (fr : ScaleFrame) (s : State) : Host.Outcome State Fault Refusal := fabStep s fun f => frameIn f port fr
/-- SCALEOUT_RESEND_TIMEOUT (R446). -/
def execScaleoutResendTimeout (port : Nat) (s : State) : Host.Outcome State Fault Refusal := fabStep s fun f => frameResend f port
/-- SCALEOUT_PORT_DEAD (R446). -/
def execScaleoutPortDead (port : Nat) (s : State) : Host.Outcome State Fault Refusal := fabStep s fun f => portDies f port
/-- HOST_BAR_ACCESS (R444). -/
def execHostBarAccess (q : Req) (s : State) : Host.Outcome State Fault Refusal := fabStep s fun f => hostAccess f q

end Sys2Proof.Machine
end

