-- ==== Sys2Proof/Machine/Keccak.lean ====
section
/-! DEFINITION. SHAKE256 of FIPS 202, which the spec names and does not give (R411, R451): PRESUMED from that standard (log 9). -/

namespace Sys2Proof.Machine

/-- Lane x of row y of the state of 25 lanes. -/
def lane25 (a : List DWord) (x y : Nat) : DWord := a.getD (x % 5 + 5 * (y % 5)) 0
/-- A state from its lanes. -/
def state25 (g : Nat → Nat → DWord) : List DWord := (List.range 25).map fun i => g (i % 5) (i / 5)
/-- How far ρ rotates each lane. -/
def rhoOffsets : List Nat := [0, 1, 62, 28, 27, 36, 44, 6, 55, 20, 3, 10, 43, 25, 39, 41, 45, 15, 21, 8, 18, 2, 61, 56, 14]
/-- The round constants of ι. -/
def roundConstants : List DWord :=
  [0x0000000000000001, 0x0000000000008082, 0x800000000000808A, 0x8000000080008000, 0x000000000000808B, 0x0000000080000001,
   0x8000000080008081, 0x8000000000008009, 0x000000000000008A, 0x0000000000000088, 0x0000000080008009, 0x000000008000000A,
   0x000000008000808B, 0x800000000000008B, 0x8000000000008089, 0x8000000000008003, 0x8000000000008002, 0x8000000000000080,
   0x000000000000800A, 0x800000008000000A, 0x8000000080008081, 0x8000000000008080, 0x0000000080000001, 0x8000000080008008]

/-- θ. -/
def theta (a : List DWord) : List DWord :=
  let c := (List.range 5).map fun x => (List.range 5).foldl (fun v y => v ^^^ lane25 a x y) 0
  let d := (List.range 5).map fun x => c.getD ((x + 4) % 5) 0 ^^^ (c.getD ((x + 1) % 5) 0).rotateLeft 1
  state25 fun x y => lane25 a x y ^^^ d.getD x 0
/-- ρ and π. -/
def rhoPi (a : List DWord) : List DWord := state25 fun x y => (lane25 a (x + 3 * y) x).rotateLeft (rhoOffsets.getD ((x + 3 * y) % 5 + 5 * x) 0)
/-- χ, and ι with its constant. -/
def chiIota (rc : DWord) (a : List DWord) : List DWord :=
  state25 fun x y => lane25 a x y ^^^ (~~~(lane25 a (x + 1) y) &&& lane25 a (x + 2) y) ^^^ (if x = 0 ∧ y = 0 then rc else 0)
/-- Keccak-f[1600]. -/
def keccakF (a : List DWord) : List DWord := roundConstants.foldl (fun a rc => chiIota rc (rhoPi (theta a))) a

/-- Bytes as a number, the least significant first. -/
def leBytes (bs : List Byte) : Nat := bs.foldr (fun b n => b.toNat + 256 * n) 0
/-- Bytes of a number, the least significant first. -/
def toBytes (n k : Nat) : List Byte := (List.range k).map fun i => BitVec.ofNat 8 (n / 2 ^ (8 * i))

/-- A message padded to whole blocks of 136 bytes. -/
def shakePad (m : List Byte) : List Byte :=
  let k := 136 - m.length % 136
  m ++ (if k = 1 then [0x9F] else 0x1F :: List.replicate (k - 2) 0 ++ [0x80])

/-- n blocks absorbed. -/
def absorb : Nat → List Byte → List DWord → List DWord
  | 0, _, a => a
  | n + 1, m, a =>
    absorb n (m.drop 136) (keccakF (state25 fun x y =>
      if x + 5 * y < 17 then lane25 a x y ^^^ BitVec.ofNat 64 (leBytes ((m.drop (8 * (x + 5 * y))).take 8)) else lane25 a x y))

/-- The output of n blocks. -/
def squeeze : Nat → List DWord → List Byte
  | 0, _ => []
  | n + 1, a => (a.take 17).flatMap (fun w => toBytes w.toNat 8) ++ squeeze n (keccakF a)

/-- SHAKE256 with n bytes of output. -/
def shake (m : List Byte) (n : Nat) : List Byte :=
  let p := shakePad m
  (squeeze ((n + 135) / 136) (absorb (p.length / 136) p (List.replicate 25 0))).take n

/-- SHAKE256 with 512 bits of output, byte i in bits 8i + 7 to 8i (R411, R451). -/
def shake256 (m : List Byte) : BitVec 512 := BitVec.ofNat 512 (leBytes (shake m 64))

end Sys2Proof.Machine
end

