-- ==== Sys2Proof/Machine/Slh.lean ====
section
/-! DEFINITION. SLH-DSA of FIPS 205 with SHAKE, which the spec names and does not give (R411, R451, R453): PRESUMED from that standard,
with an empty context string (log 9). n is 32 bytes and the Winternitz parameter 16 in both sets. -/

namespace Sys2Proof.Machine

/-- A parameter set: the layers, the height of a tree of a layer, the height and number of the FORS trees. -/
structure SlhParams where
  d : Nat
  hp : Nat
  a : Nat
  k : Nat
  deriving DecidableEq, Repr

/-- SLH-DSA-SHAKE-256s: the signature of an image (R451). -/
def slh256s : SlhParams := ⟨8, 8, 14, 22⟩
/-- SLH-DSA-SHAKE-256f: the signature of a report (R411). -/
def slh256f : SlhParams := ⟨17, 4, 9, 35⟩
/-- Chains of a WOTS+ key. -/
abbrev wotsLen : Nat := 67
/-- Bytes of a signature. -/
def SlhParams.sigLen (x : SlhParams) : Nat := 32 * (1 + x.k * (1 + x.a) + x.d * x.hp + x.d * wotsLen)

/-- Bytes of a number, the most significant first. -/
def beBytes (n k : Nat) : List Byte := (toBytes n k).reverse
/-- Bytes as a number, the most significant first. -/
def beNat (bs : List Byte) : Nat := leBytes bs.reverse
/-- Digits of b bits, the first from the most significant bits of a byte string. -/
def base2b (x : List Byte) (b n : Nat) : List Nat := (List.range n).map fun i => beNat x / 2 ^ (8 * x.length - b * (i + 1)) % 2 ^ b

/-- An address: layer, tree, type, and the three words that the type gives a meaning. -/
structure Adrs where
  layer : Nat
  tree : Nat
  type : Nat
  w1 : Nat
  w2 : Nat
  w3 : Nat
  deriving DecidableEq, Repr

/-- Its 32 bytes. -/
def Adrs.bytes (x : Adrs) : List Byte := beBytes x.layer 4 ++ beBytes x.tree 12 ++ beBytes x.type 4 ++ beBytes x.w1 4 ++ beBytes x.w2 4 ++ beBytes x.w3 4
/-- An address of another type in the same tree. -/
def Adrs.as (x : Adrs) (type w1 w2 w3 : Nat) : Adrs := ⟨x.layer, x.tree, type, w1, w2, w3⟩

/-- F, H, the T functions and PRF: a seed, an address and a message. -/
def slhHash (seed : List Byte) (x : Adrs) (m : List Byte) : List Byte := shake (seed ++ x.bytes ++ m) 32

/-! ## WOTS+ -/

/-- n steps of a chain from step i. -/
def chain (seed : List Byte) (x : Adrs) : Nat → Nat → List Byte → List Byte
  | 0, _, v => v
  | n + 1, i, v => chain seed x n (i + 1) (slhHash seed { x with w3 := i } v)

/-- The secret value of chain i of key pair kp. -/
def wotsSecret (sk seed : List Byte) (x : Adrs) (kp i : Nat) : List Byte := slhHash seed (x.as 5 kp i 0) sk
/-- The digits of a message of 32 bytes, and of its checksum. -/
def wotsDigits (m : List Byte) : List Nat :=
  let ds := base2b m 4 64
  ds ++ base2b (beBytes ((ds.map fun v => 15 - v).sum * 16) 2) 4 3
/-- A public key from the ends of its chains. -/
def wotsRoot (seed : List Byte) (x : Adrs) (kp : Nat) (ends : List (List Byte)) : List Byte := slhHash seed (x.as 1 kp 0 0) ends.flatten
/-- The public key of key pair kp. -/
def wotsPk (sk seed : List Byte) (x : Adrs) (kp : Nat) : List Byte :=
  wotsRoot seed x kp ((List.range wotsLen).map fun i => chain seed (x.as 0 kp i 0) 15 0 (wotsSecret sk seed x kp i))
/-- A signature. -/
def wotsSign (sk seed : List Byte) (x : Adrs) (kp : Nat) (m : List Byte) : List (List Byte) :=
  (wotsDigits m).zipIdx.map fun v => chain seed (x.as 0 kp v.2 0) v.1 0 (wotsSecret sk seed x kp v.2)
/-- The public key that a signature leads to. -/
def wotsFromSig (seed : List Byte) (x : Adrs) (kp : Nat) (sig : List (List Byte)) (m : List Byte) : List Byte :=
  wotsRoot seed x kp ((wotsDigits m).zipIdx.map fun v => chain seed (x.as 0 kp v.2 0) (15 - v.1) v.1 (sig.getD v.2 []))

/-! ## Trees -/

/-- Node i at height z of a tree with given leaves: nodes of type t, whose first word is w. -/
def treeNode (seed : List Byte) (x : Adrs) (t w : Nat) (leaf : Nat → List Byte) : Nat → Nat → List Byte
  | 0, i => leaf i
  | z + 1, i => slhHash seed (x.as t w (z + 1) i) (treeNode seed x t w leaf z (2 * i) ++ treeNode seed x t w leaf z (2 * i + 1))

/-- The sibling nodes on the way from leaf i to a root at height h. -/
def authPath (seed : List Byte) (x : Adrs) (t w : Nat) (leaf : Nat → List Byte) (h i : Nat) : List (List Byte) :=
  (List.range h).map fun j => treeNode seed x t w leaf j (i / 2 ^ j ^^^ 1)

/-- The node that a leaf i and its siblings from height z up lead to. -/
def climb (seed : List Byte) (x : Adrs) (t w : Nat) : List (List Byte) → Nat → Nat → List Byte → List Byte
  | [], _, _, v => v
  | s :: r, z, i, v => climb seed x t w r (z + 1) (i / 2) (slhHash seed (x.as t w (z + 1) (i / 2)) (if i % 2 = 0 then v ++ s else s ++ v))

/-! ## The hypertree and FORS -/

/-- The layers of a signature above the first: tree and leaf of each, from those of the FORS key. -/
def htPlaces (p : SlhParams) (tree leaf : Nat) : List (Adrs × Nat) :=
  (List.range p.d).map fun j =>
    if j = 0 then (⟨0, tree, 0, 0, 0, 0⟩, leaf) else (⟨j, tree / 2 ^ (p.hp * j), 0, 0, 0, 0⟩, tree / 2 ^ (p.hp * (j - 1)) % 2 ^ p.hp)

/-- A hypertree signature of m. -/
def htSign (p : SlhParams) (sk seed : List Byte) : List (Adrs × Nat) → List Byte → List (List Byte)
  | [], _ => []
  | (x, i) :: r, m =>
    let sig := wotsSign sk seed x i m
    let auth := authPath seed x 2 0 (wotsPk sk seed x) p.hp i
    sig ++ auth ++ htSign p sk seed r (climb seed x 2 0 auth 0 i (wotsFromSig seed x i sig m))

/-- The root that a hypertree signature leads to. -/
def htFromSig (p : SlhParams) (seed : List Byte) : List (Adrs × Nat) → List (List Byte) → List Byte → List Byte
  | [], _, m => m
  | (x, i) :: r, sig, m =>
    htFromSig p seed r (sig.drop (wotsLen + p.hp)) (climb seed x 2 0 ((sig.drop wotsLen).take p.hp) 0 i (wotsFromSig seed x i (sig.take wotsLen) m))

/-- The secret value of a FORS leaf of key pair kp. -/
def forsSecret (sk seed : List Byte) (x : Adrs) (kp i : Nat) : List Byte := slhHash seed (x.as 6 kp 0 i) sk
/-- A FORS leaf. -/
def forsLeaf (sk seed : List Byte) (x : Adrs) (kp i : Nat) : List Byte := slhHash seed (x.as 3 kp 0 i) (forsSecret sk seed x kp i)
/-- A FORS signature of k digits: for each its secret value and its siblings. A tree's leaves count on from those before it. -/
def forsSign (p : SlhParams) (sk seed : List Byte) (x : Adrs) (kp : Nat) (ds : List Nat) : List (List Byte) :=
  ds.zipIdx.flatMap fun v =>
    forsSecret sk seed x kp (v.2 * 2 ^ p.a + v.1) :: authPath seed x 3 kp (forsLeaf sk seed x kp) p.a (v.2 * 2 ^ p.a + v.1)
/-- The FORS public key that a signature leads to. -/
def forsFromSig (p : SlhParams) (seed : List Byte) (x : Adrs) (kp : Nat) (sig : List (List Byte)) (ds : List Nat) : List Byte :=
  slhHash seed (x.as 4 kp 0 0) (ds.zipIdx.flatMap fun v =>
    let s := (sig.drop ((p.a + 1) * v.2)).take (p.a + 1)
    let i := v.2 * 2 ^ p.a + v.1
    climb seed x 3 kp s.tail 0 i (slhHash seed (x.as 3 kp 0 i) (s.headD [])))

/-! ## Keys, signatures and their check -/

/-- PK.root of a key. -/
def slhRoot (p : SlhParams) (sk seed : List Byte) : List Byte :=
  let x : Adrs := ⟨p.d - 1, 0, 0, 0, 0, 0⟩
  treeNode seed x 2 0 (wotsPk sk seed x) p.hp 0

/-- A message as it is signed: no context string. -/
def slhMessage (m : List Byte) : List Byte := 0 :: 0 :: m

/-- The FORS digits, tree and leaf that a randomizer and a message select. -/
def slhSelect (p : SlhParams) (r seed root m : List Byte) : List Nat × Nat × Nat :=
  let n1 := (p.k * p.a + 7) / 8
  let n2 := (p.hp * (p.d - 1) + 7) / 8
  let n3 := (p.hp + 7) / 8
  let g := shake (r ++ seed ++ root ++ m) (n1 + n2 + n3)
  (base2b (g.take n1) p.a p.k, beNat ((g.drop n1).take n2) % 2 ^ (p.hp * (p.d - 1)), beNat (g.drop (n1 + n2)) % 2 ^ p.hp)

/-- The deterministic signature of a message. -/
def slhSign (p : SlhParams) (sk prf seed : List Byte) (msg : List Byte) : List Byte :=
  let m := slhMessage msg
  let root := slhRoot p sk seed
  let r := shake (prf ++ seed ++ m) 32
  let x := slhSelect p r seed root m
  let ad : Adrs := ⟨0, x.2.1, 3, x.2.2, 0, 0⟩
  let fs := forsSign p sk seed ad x.2.2 x.1
  r ++ fs.flatten ++ (htSign p sk seed (htPlaces p x.2.1 x.2.2) (forsFromSig p seed ad x.2.2 fs x.1)).flatten

/-- A byte string in pieces of 32 bytes. -/
def pieces32 (bs : List Byte) : List (List Byte) := (List.range (bs.length / 32)).map fun i => (bs.drop (32 * i)).take 32

/-- Does a signature verify? -/
def slhVerify (p : SlhParams) (seed root msg sig : List Byte) : Bool :=
  if sig.length ≠ p.sigLen then false
  else
    let m := slhMessage msg
    let s := pieces32 sig
    let x := slhSelect p (s.headD []) seed root m
    let ad : Adrs := ⟨0, x.2.1, 3, x.2.2, 0, 0⟩
    let nf := p.k * (p.a + 1)
    let pk := forsFromSig p seed ad x.2.2 ((s.drop 1).take nf) x.1
    decide (htFromSig p seed (htPlaces p x.2.1 x.2.2) (s.drop (1 + nf)) pk = root)

/-- A third of the device secret, in its bytes: SK.seed, SK.prf, PK.seed (R453). -/
def secretThird (secret : BitVec 768) (i : Nat) : List Byte := toBytes (secret.toNat / 2 ^ (256 * i)) 32
/-- The attestation public key: PK.seed, then PK.root; byte i in bits 8i + 7 to 8i (R453). -/
def slhKeyGen (secret : BitVec 768) : BitVec 512 :=
  BitVec.ofNat 512 (leBytes (secretThird secret 2 ++ slhRoot slh256f (secretThird secret 0) (secretThird secret 2)))
/-- The signature of a report (R411). -/
def reportSig (secret : BitVec 768) (msg : List Byte) : List Byte :=
  slhSign slh256f (secretThird secret 0) (secretThird secret 1) (secretThird secret 2) msg
/-- Does the signature of an image verify under the public key in its header (R451)? -/
def imageSigOk (key msg sig : List Byte) : Bool := slhVerify slh256s (key.take 32) (key.drop 32) msg sig

end Sys2Proof.Machine
end

