-- ==== Sys2Proof/Machine/BootEv.lean ====
section
/-! DEFINITION. The module around the fabric (R411, R441, R442, R449-R453): the boot ROM sequencer's states TEST to HANDOVER, the
signer's SIGNER_CHECK, SIGNER_CLEAR and ATTEST_REPORT_SIGNED, and RAIL_OUT_OF_TOLERANCE, THERMAL_TRIP, SUPPLY_DROOP and
POWER_DOWN. -/

namespace Sys2Proof.Machine

/-! ## Images (R451) -/

/-- Bytes of the signature that ends an image. -/
abbrev sigBytes : Nat := 29792
/-- An image's body length, and its length in all. -/
def bodyLen (m : Memory) (a : Nat) : Nat := m.readN (a + 8) 8
def imageLen (m : Memory) (a : Nat) : Nat := 0x80 + bodyLen m a + sigBytes
/-- The bytes that are signed and measured: byte 0 to the end of the body. -/
def signedBytes (m : Memory) (a : Nat) : List Byte := m.bytes a (0x80 + bodyLen m a)
/-- The measurement of an image. -/
def measure (m : Memory) (a : Nat) : BitVec 512 := shake256 (signedBytes m a)
/-- Are magic and kind right? -/
def headerOk (m : Memory) (a kind : Nat) : Bool := decide (m.readN a 2 = 0x5B1F) && decide ((m.read (a + 2)).toNat = kind)
/-- The check of an image (R451): 0, or the FAIL code of the first condition that does not hold. Kind 3 has no key hash. -/
def imageCheck (m : Memory) (a kind : Nat) (hash : BitVec 512) (least : Word) : Nat :=
  let key := m.bytes (a + 0x40) 64
  if !headerOk m a kind then 3
  else if kind ≠ 3 ∧ shake256 key ≠ hash then 4
  else if m.readN (a + 4) 4 < least.toNat then 6
  else if !imageSigOk key (signedBytes m a) (m.bytes (a + 0x80 + bodyLen m a) sigBytes) then 5
  else 0

/-- Bytes of the flash copied to a place of a stack. -/
def copyFlash (flash m : Memory) (src dst n : Nat) : Memory :=
  (flash.filter fun c => decide (src ≤ c.1) && decide (c.1 < src + n)).foldl (fun (m : Memory) c => m.write (dst + (c.1 - src)) c.2) (m.clear dst n)

/-- Bytes of the flash copied to a place of a stack, whose parity stripes follow (R431). -/
def Fabric.loadFlash (f : Fabric) (sd : Nat) (flash : Memory) (src dst n : Nat) : Fabric := f.setMem sd (copyFlash flash (f.die sd).mem src dst n)

/-! ## The management interface (R443, R449, R453) -/

/-- The sequencer's register at I2C offset 0x00 (R449). -/
def State.seqReg (s : State) : Word := BitVec.ofNat 32 (s.mod.seqState.toNat * 2 ^ 24 + s.mod.seqFail.toNat * 2 ^ 16 + s.mod.seqStacks.toNat)
/-- A byte that the management interface reads: the sequencer's register, the serial number, the attestation public key, the least
significant byte of each at the lowest offset, as R8 orders memory (DEDUCED, log 18); zero elsewhere. -/
def State.i2c (s : State) (o : Nat) : Byte :=
  let of := fun (v base : Nat) => BitVec.ofNat 8 (v / 2 ^ (8 * (o - base)))
  if o < 4 then of s.seqReg.toNat 0
  else if 0x10 ≤ o ∧ o ≤ 0x17 then of Config.serial.toNat 0x10
  else if 0x40 ≤ o ∧ o ≤ 0x7F then of s.mod.pubKey.toNat 0x40
  else 0

/-! ## The sequencer (R449, R450) -/

/-- The sequencer enters a state. -/
def State.enter (s : State) (code : Nat) : State := { s with mod := { s.mod with seqState := BitVec.ofNat 8 code } }
/-- A failed check leads to FAILED, which keeps its code. -/
def State.failed (s : State) (code : Nat) : State := { s with mod := { s.mod with seqState := 0x0F, seqFail := BitVec.ofNat 8 code } }
/-- The event of the next state follows. -/
def State.then' (s : State) (e : Ev) : State := { s with fab := s.fab.post e }
/-- The lowest stack in service. -/
def Fabric.bootStack (f : Fabric) : Option Nat := (List.range 24).find? fun sd => !f.linkDead sd

/-- TEST: the stacks whose link trained and whose Lode wires toggled. A pair passes when both do. -/
def bootTest (s : State) (good : BitVec 24) : State :=
  if s.mod.seqState ≠ 0 then s
  else
    let pairs := BitVec.ofNat 16 (((List.range 12).map fun i => if bit good (2 * i) && bit good (2 * i + 1) then 2 ^ i else 0).sum)
    let bad := (List.range 24).filter fun sd => !bit good sd
    let f := bad.foldl (fun (f : Fabric) sd => f.setBd sd 0x220 (setFld (f.bd sd 0x220) 41 32 0)) s.fab
    let s : State := { fab := f, mod := { s.mod with pwrgood := true, resetHigh := true, rails := 0x1FF, seqStacks := pairs, seqFail := 0 } }
    if f.bootStack.isNone then s.failed 1
    else if s.mod.bootsel = 1 then s.enter 1
    else (s.enter 1).then' .fwload

/-- FWLOAD: the firmware image, from flash offset 0 to the start of the lowest stack in service; a flash that cannot be read fails. -/
def bootFwload (s : State) : State :=
  if s.mod.seqState ≠ 1 then s
  else match s.fab.bootStack with
    | none => s.failed 1
    | some sd =>
      if s.mod.flashBad then s.failed 2
      else ({ s with fab := s.fab.loadFlash sd s.mod.flash 0 0 (imageLen s.mod.flash 0) }.enter 2).then' .fwcheck

/-- FWCHECK: the image is checked and measured, and the attestation key pair is generated (R453). -/
def bootFwcheck (s : State) : State :=
  if s.mod.seqState ≠ 2 then s
  else
    let m := (s.fab.die (s.fab.bootStack.getD 0)).mem
    let s := { s with mod := { s.mod with pubKey := slhKeyGen s.mod.secret } }
    let code := imageCheck m 0 1 s.mod.fwHash s.mod.fwMin
    if code ≠ 0 then s.failed code
    else ({ s with mod := { s.mod with measFw := measure m 0 } }.enter 3).then' .fwapply

/-- FWAPPLY: the firmware's settings of the base-die registers, its Fatik images among them (log 9). -/
def bootFwapply (s : State) : State :=
  if s.mod.seqState ≠ 3 then s
  else
    let m := (s.fab.die (s.fab.bootStack.getD 0)).mem
    let ws := Config.fwWrites (m.bytes 0x80 (bodyLen m 0))
    let f := s.fab.postAll ((ws.filter fun w => decide (w.1 < 24)).map fun w => csrEvent ⟨2, w.1, w.2.1, w.2.2, 0, 2, none⟩)
    ({ s with fab := f }.enter 4).then' .bdload

/-- The register write that an event brings to its register. -/
def evWrite : Ev → Option CsrWr
  | .regionWrite w => some w
  | .windowWrite w => some w
  | .aflagsWrite w => some w
  | .srstateWrite w => some w
  | .lodeenWrite w => some w
  | .lodeLineWrite w => some w
  | .stagesWrite w => some w
  | .ptrootWrite w => some w
  | .guardWrite w => some w
  | .ratecfgWrite w => some w
  | .fatikImageWrite w => some w
  | .csrRegisterWrite w => some w
  | _ => none

/-- Is a firmware setting still on its way: a register write that no firing asked for, a guarded region to be zeroed, or a Fatik image to be
loaded? -/
def isSetting : Ev → Bool
  | .fatikImageLoad _ _ => true
  | .guardZeroDone _ _ => true
  | e => (evWrite e).any (·.asker.isNone)

/-- BDLOAD: the Bedrock image, which follows the firmware image in flash, checked and measured. It waits for the firmware's settings
to be made and its images to be loaded; one that was refused fails the boot, and so does a flash that cannot be read. -/
def bootBdload (s : State) : State :=
  if s.mod.seqState ≠ 4 then s
  else if s.fab.agenda.any isSetting then s.then' .bdload
  else if (List.range 24).any fun sd => decide (fld (s.fab.bd sd 0x22C) 7 4 ≠ 0) then s.failed 7
  else if s.mod.flashBad then s.failed 2
  else
    let sd := s.fab.bootStack.getD 0
    let a := imageLen s.mod.flash 0
    let f := s.fab.loadFlash sd s.mod.flash a a (imageLen s.mod.flash a)
    let m := (f.die sd).mem
    let s := { s with fab := f }
    let code := imageCheck m a 2 s.mod.bdHash s.mod.bdMin
    if code ≠ 0 then s.failed code
    else ({ s with mod := { s.mod with measBd := measure m a } }.enter 5).then' .bdstart

/-- One entry of Bedrock's load table (R162): an image into a slot of block 0 of die 0, pinned; its load report where refused. -/
def bootEntry (body : Nat) (m : Memory) (f : Fabric) (i : Nat) : Except Word Fabric :=
  let img : Image := m.words (body + fld (m.word (body + 8 + 16 * i)) 56 0) 48
  let w := m.word (body + 16 + 16 * i)
  let el := fld w 15 0
  let report := if blockOf el ≠ 0 then loadReport 0x0E none none none else loadCheck f el img 2
  if report ≠ 0 then .error report else .ok (f.install el (fld w 17 16) img true)

/-- BDSTART: Bedrock's images are loaded at HYP. -/
def bootBdstart (s : State) : State :=
  if s.mod.seqState ≠ 5 then s
  else
    let m := (s.fab.die (s.fab.bootStack.getD 0)).mem
    let body := imageLen s.mod.flash 0 + 0x80
    match (List.range (fld (m.word body) 15 0)).foldlM (bootEntry body m) s.fab with
    | .error _ => s.failed 7
    | .ok f => ({ s with fab := f }.enter 6).then' .handover

/-- HANDOVER: Bedrock's start token for C0 s00 side A of element (0,0,0); STACKS in bits 15:0 and the in-service dies, all of
them (log 18), in bits 31:16. -/
def bootHandover (s : State) : State :=
  if s.mod.seqState ≠ 6 then s
  else
    let ctx := ((tfind (s.fab.el 0).slots 0).map (·.ctx)).getD 0
    let t : Tok := ⟨mkHdr 0 0 0 false 7 1 0 false false false false, 1, w64 (ctx * 2 ^ 56), [w64 (0xFFFF0000 + s.mod.seqStacks.toNat)]⟩
    (s.enter 7).then' (.tokenArrive 0 .packet t)

/-! ## The signer (R411, R452) -/

/-- Work that comes to the signer before HANDOVER waits for it, in its order of arrival. -/
def State.waits (s : State) (e : Ev) : State := { s with fab := s.fab.holdBack e }

/-- SIGNER_CHECK: a partition image at a stack address is checked and measured. The signer takes its work after HANDOVER. -/
def signerCheck (s : State) (part : Nat) (img : BitVec 42) : State :=
  if s.mod.seqState ≠ 7 then s.waits (.signerCheck part img)
  else
    let a := fld img 36 0
    let m := (s.fab.die (fld img 41 37)).mem
    let bad := decide (24 ≤ fld img 41 37) || decide (a % 65536 ≠ 0)
    let code := if bad then 3 else
      let c := imageCheck m a 3 0 s.mod.partMin
      if c = 3 then 3 else if (m.read (a + 3)).toNat ≠ part then 9 else c
    let meas := measure m a
    if code = 0 then
      { fab := { s.fab with sigStat := 0x4000000000000000, sigMeas := meas }, mod := { s.mod with measPart := tset s.mod.measPart part meas } }
    else { s with fab := { s.fab with sigStat := w64 code, sigMeas := if code = 3 then s.fab.sigMeas else meas } }

/-- SIGNER_CLEAR: the partition has no measurement. -/
def signerClear (s : State) (part : Nat) : State :=
  if s.mod.seqState ≠ 7 then s.waits (.signerClear part)
  else { fab := { s.fab with sigStat := 0x4000000000000000 }, mod := { s.mod with measPart := tdel s.mod.measPart part } }

/-- A report's body as the signer completes it (R411), over the buffer's bytes. -/
def reportBody (s : State) (el ctx a : Nat) (e : Element) : Element :=
  let part := s.fab.partOf el
  let e := e.putN a (0x5B1A + 0x0001 * 2 ^ 16 + part * 2 ^ 32 + ctx * 2 ^ 48) 8
  let e := (e.putN (a + 8) Config.serial.toNat 8).putN (a + 0x10) 0 0x30
  let e := (e.putN (a + 0x80) s.mod.measFw.toNat 64).putN (a + 0xC0) s.mod.measBd.toNat 64
  let e := e.putN (a + 0x100) (tget 0 s.mod.measPart part).toNat 64
  (e.putN (a + 0x140) (shake256 (toBytes s.mod.pubKey.toNat 64)).toNat 64).putN (a + 0x180) 0 0x80

/-- A place at the signer frees: ATTEST firings that wait for one are told (R411, R339). -/
def Fabric.signerFrees (f : Fabric) : Fabric :=
  f.postAll ((f.els.filter fun x => x.2.parked.any fun y => y.reason == .queue).map fun x => .signalRelease x.1)

/-- ATTEST_REPORT_SIGNED (R411): the body is completed and signed whole, and the signature written. A place at the signer frees, of a
report too whose firing KILL has withdrawn. -/
def reportSigned (s : State) (el id : Nat) : State :=
  if s.mod.seqState ≠ 7 then s.waits (.attestReportSigned el id)
  else match (s.fab.el el).pendOf id with
    | none => { s with fab := s.fab.signerFrees }
    | some p =>
      let a := p.a.toNat
      let e := reportBody s el p.set.ctx a (s.fab.el el)
      let msg := e.mem.bytes a 0x200
      let sig := reportSig s.mod.secret msg
      let e := (List.range 49856).foldl (fun (e : Element) i => e.putByte (a + 0x200 + i) (sig.getD i 0)) e
      { s with fab := (complete (s.fab.setEl el e) el p [p.raw p.d (w64 reportBytes), p.ordOut p.e]).signerFrees }

/-! ## Power and heat (R441, R442) -/

/-- Is an event one of the sequencer's states? -/
def isBoot : Ev → Bool
  | .test _ => true | .fwload => true | .fwcheck => true | .fwapply => true | .bdload => true | .bdstart => true | .handover => true
  | _ => false

/-- RAIL_OUT_OF_TOLERANCE (R441): PWRGOOD falls and the sequencer is back in RESET. -/
def railOut (s : State) (rail : Nat) : State :=
  { fab := { s.fab with agenda := s.fab.agenda.filter fun e => !isBoot e },
    mod := { s.mod with
      rails := if rail < 9 then setFld s.mod.rails rail rail 0 else s.mod.rails
      pwrgood := false, seqState := 0, seqFail := 0, seqStacks := 0 } }

/-- THERMAL_TRIP (R442): every clock stops and every link drops; fabric and base-die state is lost. Host memory is the host's. -/
def tripped (s : State) : State :=
  { fab := { Fabric.reset with
      pkg := s.fab.pkg, lpc := s.fab.lpc, hostMem := s.fab.hostMem
      dies := (List.range 24).map fun sd => (sd, { BaseDie.reset with regs := [(0x220, 0)] })
      ports := (List.range 16).map fun n => (n, { OutPort.reset with dead := true }) },
    mod := { s.mod with thermtrip := true } }

/-- SUPPLY_DROOP (R442): issue is withheld for one cycle; the event after it lets the block issue again. -/
def droop (f : Fabric) (bk : Nat) : Fabric :=
  if (f.blk bk).withheld then f.modBlk bk fun b => { b with withheld := false }
  else (f.modBlk bk fun b => { b with withheld := true }).post (.supplyDroop bk)

/-- POWER_DOWN (R431, R441, R442): every dirty parity line is written back, then the rails fall, VDD_CORE first. What the fabric held is
gone; the stacks' bytes stand as they were written back (log 18). It is the first half of the power cycle that ends a thermal trip; TEST
begins the second. -/
def powerOff (s : State) : State :=
  let f := s.fab.dies.foldl (fun f x => f.flushParity x.1) s.fab
  let keep := f.dies.map fun x => (x.1, { BaseDie.reset with mem := x.2.mem, errs := x.2.errs })
  { fab := { Fabric.reset with pkg := s.fab.pkg, lpc := s.fab.lpc, hostMem := s.fab.hostMem, dies := keep },
    mod := { s.mod with rails := 0, pwrgood := false, thermtrip := false, seqState := 0, seqFail := 0, seqStacks := 0 } }

/-- TEST (R450). -/
def execTest (good : BitVec 24) (s : State) : Host.Outcome State Fault Refusal := .next (bootTest s good)
/-- FWLOAD (R450). -/
def execFwload (s : State) : Host.Outcome State Fault Refusal := .next (bootFwload s)
/-- FWCHECK (R451). -/
def execFwcheck (s : State) : Host.Outcome State Fault Refusal := .next (bootFwcheck s)
/-- FWAPPLY (R450). -/
def execFwapply (s : State) : Host.Outcome State Fault Refusal := .next (bootFwapply s)
/-- BDLOAD (R450). -/
def execBdload (s : State) : Host.Outcome State Fault Refusal := .next (bootBdload s)
/-- BDSTART (R450). -/
def execBdstart (s : State) : Host.Outcome State Fault Refusal := .next (bootBdstart s)
/-- HANDOVER (R450). -/
def execHandover (s : State) : Host.Outcome State Fault Refusal := .next (bootHandover s)
/-- SIGNER_CHECK (R452). -/
def execSignerCheck (part : Nat) (img : BitVec 42) (s : State) : Host.Outcome State Fault Refusal := .next (signerCheck s part img)
/-- SIGNER_CLEAR (R452). -/
def execSignerClear (part : Nat) (s : State) : Host.Outcome State Fault Refusal := .next (signerClear s part)
/-- ATTEST_REPORT_SIGNED (R411). -/
def execAttestReportSigned (el id : Nat) (s : State) : Host.Outcome State Fault Refusal := .next (reportSigned s el id)
/-- RAIL_OUT_OF_TOLERANCE (R441). -/
def execRailOutOfTolerance (rail : Nat) (s : State) : Host.Outcome State Fault Refusal := .next (railOut s rail)
/-- THERMAL_TRIP (R442). -/
def execThermalTrip (s : State) : Host.Outcome State Fault Refusal := .next (tripped s)
/-- SUPPLY_DROOP (R442). -/
def execSupplyDroop (bk : Nat) (s : State) : Host.Outcome State Fault Refusal := fabStep s fun f => droop f bk
/-- POWER_DOWN (R431). -/
def execPowerDown (s : State) : Host.Outcome State Fault Refusal := .next (powerOff s)

end Sys2Proof.Machine
end

