-- ==== Sys2Proof/Machine/Dispatch.lean ====
section
/-! DEFINITION. Dispatch: the one meaning of each constructor of Instr. -/

namespace Sys2Proof.Machine

/-- The meaning of an instruction or event. -/
def exec (i : Instr) (s : State) : Host.Outcome State Fault Refusal :=
  match i with
  | .add a b d e t => Sys2Proof.Machine.execAdd a b d e t s
  | .sub a b d e t => Sys2Proof.Machine.execSub a b d e t s
  | .mul a b d e t => Sys2Proof.Machine.execMul a b d e t s
  | .mulh a b d e t => Sys2Proof.Machine.execMulh a b d e t s
  | .mad a b d e t => Sys2Proof.Machine.execMad a b d e t s
  | .div a b d e t => Sys2Proof.Machine.execDiv a b d e t s
  | .rem a b d e t => Sys2Proof.Machine.execRem a b d e t s
  | .neg a b d e t => Sys2Proof.Machine.execNeg a b d e t s
  | .abs a b d e t => Sys2Proof.Machine.execAbs a b d e t s
  | .min a b d e t => Sys2Proof.Machine.execMin a b d e t s
  | .max a b d e t => Sys2Proof.Machine.execMax a b d e t s
  | .and a b d e t => Sys2Proof.Machine.execAnd a b d e t s
  | .or a b d e t => Sys2Proof.Machine.execOr a b d e t s
  | .xor a b d e t => Sys2Proof.Machine.execXor a b d e t s
  | .not a b d e t => Sys2Proof.Machine.execNot a b d e t s
  | .shl a b d e t => Sys2Proof.Machine.execShl a b d e t s
  | .shr a b d e t => Sys2Proof.Machine.execShr a b d e t s
  | .sar a b d e t => Sys2Proof.Machine.execSar a b d e t s
  | .rot a b d e t => Sys2Proof.Machine.execRot a b d e t s
  | .clz a b d e t => Sys2Proof.Machine.execClz a b d e t s
  | .popc a b d e t => Sys2Proof.Machine.execPopc a b d e t s
  | .brev a b d e t => Sys2Proof.Machine.execBrev a b d e t s
  | .bfx a b d e t => Sys2Proof.Machine.execBfx a b d e t s
  | .bfi a b d e t => Sys2Proof.Machine.execBfi a b d e t s
  | .cmp a b d e t => Sys2Proof.Machine.execCmp a b d e t s
  | .sel a b d e t => Sys2Proof.Machine.execSel a b d e t s
  | .addSat a b d e t => Sys2Proof.Machine.execAddSat a b d e t s
  | .subSat a b d e t => Sys2Proof.Machine.execSubSat a b d e t s
  | .mulSat a b d e t => Sys2Proof.Machine.execMulSat a b d e t s
  | .madSat a b d e t => Sys2Proof.Machine.execMadSat a b d e t s
  | .negSat a b d e t => Sys2Proof.Machine.execNegSat a b d e t s
  | .absSat a b d e t => Sys2Proof.Machine.execAbsSat a b d e t s
  | .shlSat a b d e t => Sys2Proof.Machine.execShlSat a b d e t s
  | .fadd a b d e t => Sys2Proof.Machine.execFadd a b d e t s
  | .fsub a b d e t => Sys2Proof.Machine.execFsub a b d e t s
  | .fmul a b d e t => Sys2Proof.Machine.execFmul a b d e t s
  | .ffma a b d e t => Sys2Proof.Machine.execFfma a b d e t s
  | .fmin a b d e t => Sys2Proof.Machine.execFmin a b d e t s
  | .fmax a b d e t => Sys2Proof.Machine.execFmax a b d e t s
  | .fabs a b d e t => Sys2Proof.Machine.execFabs a b d e t s
  | .fneg a b d e t => Sys2Proof.Machine.execFneg a b d e t s
  | .fcmp a b d e t => Sys2Proof.Machine.execFcmp a b d e t s
  | .fdiv a b d e t => Sys2Proof.Machine.execFdiv a b d e t s
  | .fsqrt a b d e t => Sys2Proof.Machine.execFsqrt a b d e t s
  | .frcp a b d e t => Sys2Proof.Machine.execFrcp a b d e t s
  | .frsq a b d e t => Sys2Proof.Machine.execFrsq a b d e t s
  | .fexp2 a b d e t => Sys2Proof.Machine.execFexp2 a b d e t s
  | .flog2 a b d e t => Sys2Proof.Machine.execFlog2 a b d e t s
  | .ftanh a b d e t => Sys2Proof.Machine.execFtanh a b d e t s
  | .fsigm a b d e t => Sys2Proof.Machine.execFsigm a b d e t s
  | .fclass a b d e t => Sys2Proof.Machine.execFclass a b d e t s
  | .cvt a b d e t => Sys2Proof.Machine.execCvt a b d e t s
  | .cvtSat a b d e t => Sys2Proof.Machine.execCvtSat a b d e t s
  | .cvtS a b d e t => Sys2Proof.Machine.execCvtS a b d e t s
  | .cvtN a b d e t => Sys2Proof.Machine.execCvtN a b d e t s
  | .quant a b d e t => Sys2Proof.Machine.execQuant a b d e t s
  | .quantS a b d e t => Sys2Proof.Machine.execQuantS a b d e t s
  | .quantN a b d e t => Sys2Proof.Machine.execQuantN a b d e t s
  | .mxpack a b d e t => Sys2Proof.Machine.execMxpack a b d e t s
  | .mxpackS a b d e t => Sys2Proof.Machine.execMxpackS a b d e t s
  | .mxpackN a b d e t => Sys2Proof.Machine.execMxpackN a b d e t s
  | .mxunpk a d e t => Sys2Proof.Machine.execMxunpk a d e t s
  | .keyx a b d e t => Sys2Proof.Machine.execKeyx a b d e t s
  | .vsum a b d e t => Sys2Proof.Machine.execVsum a b d e t s
  | .vmax a b d e t => Sys2Proof.Machine.execVmax a b d e t s
  | .vmin a b d e t => Sys2Proof.Machine.execVmin a b d e t s
  | .vscan a b d e t => Sys2Proof.Machine.execVscan a b d e t s
  | .vperm a b d e t => Sys2Proof.Machine.execVperm a b d e t s
  | .vsplat a b d e t => Sys2Proof.Machine.execVsplat a b d e t s
  | .vpack a b d e t => Sys2Proof.Machine.execVpack a b d e t s
  | .vunpk a b d e t => Sys2Proof.Machine.execVunpk a b d e t s
  | .vmask a b d e t => Sys2Proof.Machine.execVmask a b d e t s
  | .vcount a b d e t => Sys2Proof.Machine.execVcount a b d e t s
  | .sw a b d e t => Sys2Proof.Machine.execSw a b d e t s
  | .mrg d e t => Sys2Proof.Machine.execMrg d e t s
  | .gate a b d e t => Sys2Proof.Machine.execGate a b d e t s
  | .fan a b d e t => Sys2Proof.Machine.execFan a b d e t s
  | .mov a b d e t => Sys2Proof.Machine.execMov a b d e t s
  | .sink a b t => Sys2Proof.Machine.execSink a b t s
  | .exit a b t => Sys2Proof.Machine.execExit a b t s
  | .csw a b d e t => Sys2Proof.Machine.execCsw a b d e t s
  | .trig a b d e t => Sys2Proof.Machine.execTrig a b d e t s
  | .delay a b d e t => Sys2Proof.Machine.execDelay a b d e t s
  | .enter a b d e => Sys2Proof.Machine.execEnter a b d e s
  | .leave a b d e => Sys2Proof.Machine.execLeave a b d e s
  | .spawn a b d e => Sys2Proof.Machine.execSpawn a b d e s
  | .retn a b d e => Sys2Proof.Machine.execRetn a b d e s
  | .tget a b d e => Sys2Proof.Machine.execTget a b d e s
  | .tset a b d e => Sys2Proof.Machine.execTset a b d e s
  | .renm a b d e => Sys2Proof.Machine.execRenm a b d e s
  | .loop a b d e t => Sys2Proof.Machine.execLoop a b d e t s
  | .sloop a b d e t => Sys2Proof.Machine.execSloop a b d e t s
  | .stree a b d e t => Sys2Proof.Machine.execStree a b d e t s
  | .eos a b d e t => Sys2Proof.Machine.execEos a b d e t s
  | .zip d e t => Sys2Proof.Machine.execZip d e t s
  | .mxmode a b d e t => Sys2Proof.Machine.execMxmode a b d e t s
  | .wload a b d e t => Sys2Proof.Machine.execWload a b d e t s
  | .mma a b d e t => Sys2Proof.Machine.execMma a b d e t s
  | .accrd a b d e t => Sys2Proof.Machine.execAccrd a b d e t s
  | .accz a b d e t => Sys2Proof.Machine.execAccz a b d e t s
  | .scale a b d e t => Sys2Proof.Machine.execScale a b d e t s
  | .burst a b d e t => Sys2Proof.Machine.execBurst a b d e t s
  | .mxexit a b d e t => Sys2Proof.Machine.execMxexit a b d e t s
  | .hist a b d e t => Sys2Proof.Machine.execHist a b d e t s
  | .hscan a b d e t => Sys2Proof.Machine.execHscan a b d e t s
  | .rsel a b d e t => Sys2Proof.Machine.execRsel a b d e t s
  | .mergek d e t => Sys2Proof.Machine.execMergek d e t s
  | .topk a b d e t => Sys2Proof.Machine.execTopk a b d e t s
  | .ld a b d e t => Sys2Proof.Machine.execLd a b d e t s
  | .st a b d e t => Sys2Proof.Machine.execSt a b d e t s
  | .ldx a b d e t => Sys2Proof.Machine.execLdx a b d e t s
  | .stx a b d e t => Sys2Proof.Machine.execStx a b d e t s
  | .agset a b d e t => Sys2Proof.Machine.execAgset a b d e t s
  | .lda a b d e t => Sys2Proof.Machine.execLda a b d e t s
  | .sta a b d e t => Sys2Proof.Machine.execSta a b d e t s
  | .pref a b d e t => Sys2Proof.Machine.execPref a b d e t s
  | .iwrite a b d e t => Sys2Proof.Machine.execIwrite a b d e t s
  | .iread a b d e t => Sys2Proof.Machine.execIread a b d e t s
  | .feset a b d e t => Sys2Proof.Machine.execFeset a b d e t s
  | .feclr a b d e t => Sys2Proof.Machine.execFeclr a b d e t s
  | .gld a b d e t => Sys2Proof.Machine.execGld a b d e t s
  | .gst a b d e t => Sys2Proof.Machine.execGst a b d e t s
  | .sld a b d e t => Sys2Proof.Machine.execSld a b d e t s
  | .sst a b d e t => Sys2Proof.Machine.execSst a b d e t s
  | .igath a b d e t => Sys2Proof.Machine.execIgath a b d e t s
  | .iscat a b d e t => Sys2Proof.Machine.execIscat a b d e t s
  | .cpy a b d e t => Sys2Proof.Machine.execCpy a b d e t s
  | .igathOrd a b d e t => Sys2Proof.Machine.execIgathOrd a b d e t s
  | .iscatOrd a b d e t => Sys2Proof.Machine.execIscatOrd a b d e t s
  | .aadd a b d e t => Sys2Proof.Machine.execAadd a b d e t s
  | .amin a b d e t => Sys2Proof.Machine.execAmin a b d e t s
  | .amax a b d e t => Sys2Proof.Machine.execAmax a b d e t s
  | .aand a b d e t => Sys2Proof.Machine.execAand a b d e t s
  | .aor a b d e t => Sys2Proof.Machine.execAor a b d e t s
  | .axor a b d e t => Sys2Proof.Machine.execAxor a b d e t s
  | .axchg a b d e t => Sys2Proof.Machine.execAxchg a b d e t s
  | .acas a b d e t => Sys2Proof.Machine.execAcas a b d e t s
  | .aaddAcq a b d e t => Sys2Proof.Machine.execAaddAcq a b d e t s
  | .aminAcq a b d e t => Sys2Proof.Machine.execAminAcq a b d e t s
  | .amaxAcq a b d e t => Sys2Proof.Machine.execAmaxAcq a b d e t s
  | .aandAcq a b d e t => Sys2Proof.Machine.execAandAcq a b d e t s
  | .aorAcq a b d e t => Sys2Proof.Machine.execAorAcq a b d e t s
  | .axorAcq a b d e t => Sys2Proof.Machine.execAxorAcq a b d e t s
  | .axchgAcq a b d e t => Sys2Proof.Machine.execAxchgAcq a b d e t s
  | .acasAcq a b d e t => Sys2Proof.Machine.execAcasAcq a b d e t s
  | .aaddRel a b d e t => Sys2Proof.Machine.execAaddRel a b d e t s
  | .aminRel a b d e t => Sys2Proof.Machine.execAminRel a b d e t s
  | .amaxRel a b d e t => Sys2Proof.Machine.execAmaxRel a b d e t s
  | .aandRel a b d e t => Sys2Proof.Machine.execAandRel a b d e t s
  | .aorRel a b d e t => Sys2Proof.Machine.execAorRel a b d e t s
  | .axorRel a b d e t => Sys2Proof.Machine.execAxorRel a b d e t s
  | .axchgRel a b d e t => Sys2Proof.Machine.execAxchgRel a b d e t s
  | .acasRel a b d e t => Sys2Proof.Machine.execAcasRel a b d e t s
  | .fence a b d e t => Sys2Proof.Machine.execFence a b d e t s
  | .ordj a b d e t => Sys2Proof.Machine.execOrdj a b d e t s
  | .barw a b d e t => Sys2Proof.Machine.execBarw a b d e t s
  | .bara a b d e t => Sys2Proof.Machine.execBara a b d e t s
  | .qwait a b d e t => Sys2Proof.Machine.execQwait a b d e t s
  | .lodeq a b d e t => Sys2Proof.Machine.execLodeq a b d e t s
  | .rbind a b d e t => Sys2Proof.Machine.execRbind a b d e t s
  | .rule a b d e t => Sys2Proof.Machine.execRule a b d e t s
  | .tins a b d e t => Sys2Proof.Machine.execTins a b d e t s
  | .tprobe a b d e t => Sys2Proof.Machine.execTprobe a b d e t s
  | .tprobeD a b d e t => Sys2Proof.Machine.execTprobeD a b d e t s
  | .tprobeAll a b d e t => Sys2Proof.Machine.execTprobeAll a b d e t s
  | .tnot a b d e t => Sys2Proof.Machine.execTnot a b d e t s
  | .round a b d e t => Sys2Proof.Machine.execRound a b d e t s
  | .fixq a b d e t => Sys2Proof.Machine.execFixq a b d e t s
  | .rclose a b d e t => Sys2Proof.Machine.execRclose a b d e t s
  | .tdel a b d e t => Sys2Proof.Machine.execTdel a b d e t s
  | .tredr a b d e t => Sys2Proof.Machine.execTredr a b d e t s
  | .tgrad a b d e t => Sys2Proof.Machine.execTgrad a b d e t s
  | .twit a b d e t => Sys2Proof.Machine.execTwit a b d e t s
  | .eprog a b d e t => Sys2Proof.Machine.execEprog a b d e t s
  | .edens a b d e t => Sys2Proof.Machine.execEdens a b d e t s
  | .emode a b d e t => Sys2Proof.Machine.execEmode a b d e t s
  | .name a b d e t => Sys2Proof.Machine.execName a b d e t s
  | .claim a b d e t => Sys2Proof.Machine.execClaim a b d e t s
  | .fulfil a b d e t => Sys2Proof.Machine.execFulfil a b d e t s
  | .abandon a b d e t => Sys2Proof.Machine.execAbandon a b d e t s
  | .clinv a b d e t => Sys2Proof.Machine.execClinv a b d e t s
  | .clqry a b d e t => Sys2Proof.Machine.execClqry a b d e t s
  | .task a b d e t => Sys2Proof.Machine.execTask a b d e t s
  | .tile a b d e t => Sys2Proof.Machine.execTile a b d e t s
  | .stageq a b d e t => Sys2Proof.Machine.execStageq a b d e t s
  | .trap a b d e t => Sys2Proof.Machine.execTrap a b d e t s
  | .resume a b d e t => Sys2Proof.Machine.execResume a b d e t s
  | .discard a b d e t => Sys2Proof.Machine.execDiscard a b d e t s
  | .kill a b d e t => Sys2Proof.Machine.execKill a b d e t s
  | .csrr a b d e t => Sys2Proof.Machine.execCsrr a b d e t s
  | .csrw a b d e t => Sys2Proof.Machine.execCsrw a b d e t s
  | .hcall a b d e t => Sys2Proof.Machine.execHcall a b d e t s
  | .cfgld a b d e t => Sys2Proof.Machine.execCfgld a b d e t s
  | .save a b d e t => Sys2Proof.Machine.execSave a b d e t s
  | .restore a b d e t => Sys2Proof.Machine.execRestore a b d e t s
  | .cfgfl a b d e t => Sys2Proof.Machine.execCfgfl a b d e t s
  | .pgmig a b d e t => Sys2Proof.Machine.execPgmig a b d e t s
  | .scrub a b d e t => Sys2Proof.Machine.execScrub a b d e t s
  | .retire a b d e t => Sys2Proof.Machine.execRetire a b d e t s
  | .attest a b d e t => Sys2Proof.Machine.execAttest a b d e t s
  | .tokenArrive el p t => Sys2Proof.Machine.execTokenArrive el p t s
  | .frameProbeEnd el => Sys2Proof.Machine.execFrameProbeEnd el s
  | .configMissServe el ctx => Sys2Proof.Machine.execConfigMissServe el ctx s
  | .missReplay el ctx => Sys2Proof.Machine.execMissReplay el ctx s
  | .cfgldEntry el id => Sys2Proof.Machine.execCfgldEntry el id s
  | .contextEvict el ctx => Sys2Proof.Machine.execContextEvict el ctx s
  | .signalRelease el => Sys2Proof.Machine.execSignalRelease el s
  | .deferRelease el => Sys2Proof.Machine.execDeferRelease el s
  | .memoryAnswer a => Sys2Proof.Machine.execMemoryAnswer a s
  | .faultAnswer q c info => Sys2Proof.Machine.execFaultAnswer q c info s
  | .retryAnswer q => Sys2Proof.Machine.execRetryAnswer q s
  | .levelCreditRequest bk el id ctx lvl => Sys2Proof.Machine.execLevelCreditRequest bk el id ctx lvl s
  | .poolRequest bk el id ctx wid => Sys2Proof.Machine.execPoolRequest bk el id ctx wid s
  | .levelCreditReturn w ctx lvl => Sys2Proof.Machine.execLevelCreditReturn w ctx lvl s
  | .poolReturn w ctx num => Sys2Proof.Machine.execPoolReturn w ctx num s
  | .grantArrive el id num => Sys2Proof.Machine.execGrantArrive el id num s
  | .cswRequest bk el id => Sys2Proof.Machine.execCswRequest bk el id s
  | .regionWave bk => Sys2Proof.Machine.execRegionWave bk s
  | .loopGeneratorEmit el => Sys2Proof.Machine.execLoopGeneratorEmit el s
  | .delayDue el => Sys2Proof.Machine.execDelayDue el s
  | .scaleTokenArrive el t => Sys2Proof.Machine.execScaleTokenArrive el t s
  | .groupLanding el => Sys2Proof.Machine.execGroupLanding el s
  | .warmupDone el => Sys2Proof.Machine.execWarmupDone el s
  | .burstTimeout el => Sys2Proof.Machine.execBurstTimeout el s
  | .slabCool el => Sys2Proof.Machine.execSlabCool el s
  | .routeSetup el route => Sys2Proof.Machine.execRouteSetup el route s
  | .routeAccess dst win q => Sys2Proof.Machine.execRouteAccess dst win q s
  | .stripeAccess q => Sys2Proof.Machine.execStripeAccess q s
  | .rmwComplete el => Sys2Proof.Machine.execRmwComplete el s
  | .waveRelease bk => Sys2Proof.Machine.execWaveRelease bk s
  | .indirectStreamCommand el id => Sys2Proof.Machine.execIndirectStreamCommand el id s
  | .indirectLaneComplete el id lane => Sys2Proof.Machine.execIndirectLaneComplete el id lane s
  | .copyPieceComplete el id piece => Sys2Proof.Machine.execCopyPieceComplete el id piece s
  | .lodeWave n => Sys2Proof.Machine.execLodeWave n s
  | .barrierRelease n => Sys2Proof.Machine.execBarrierRelease n s
  | .podWave n => Sys2Proof.Machine.execPodWave n s
  | .fixqPass el id => Sys2Proof.Machine.execFixqPass el id s
  | .relationScanVisit el id => Sys2Proof.Machine.execRelationScanVisit el id s
  | .relationSweepStep el win => Sys2Proof.Machine.execRelationSweepStep el win s
  | .tupleInsertAtHome el id => Sys2Proof.Machine.execTupleInsertAtHome el id s
  | .tupleDeleteAtHome el id => Sys2Proof.Machine.execTupleDeleteAtHome el id s
  | .probeAtHome el id => Sys2Proof.Machine.execProbeAtHome el id s
  | .roundAtMember el id mem => Sys2Proof.Machine.execRoundAtMember el id mem s
  | .closeAtMember el id mem => Sys2Proof.Machine.execCloseAtMember el id mem s
  | .rbindMember el id mem => Sys2Proof.Machine.execRbindMember el id mem s
  | .gradientStep el id => Sys2Proof.Machine.execGradientStep el id s
  | .pushSourceVisit el id mem => Sys2Proof.Machine.execPushSourceVisit el id mem s
  | .pullVertexVisit el id mem => Sys2Proof.Machine.execPullVertexVisit el id mem s
  | .edgeContributionCombine el id c => Sys2Proof.Machine.execEdgeContributionCombine el id c s
  | .edensCount el id mem => Sys2Proof.Machine.execEdensCount el id mem s
  | .hostPacketWrite part off bs => Sys2Proof.Machine.execHostPacketWrite part off bs s
  | .bridgeForward part stage => Sys2Proof.Machine.execBridgeForward part stage s
  | .queueAccept q => Sys2Proof.Machine.execQueueAccept q s
  | .stageFire bk => Sys2Proof.Machine.execStageFire bk s
  | .stageEntrySend el t => Sys2Proof.Machine.execStageEntrySend el t s
  | .successorForward q => Sys2Proof.Machine.execSuccessorForward q s
  | .saveWrite el id => Sys2Proof.Machine.execSaveWrite el id s
  | .translationRequest sd q => Sys2Proof.Machine.execTranslationRequest sd q s
  | .pageWalkLevel sd => Sys2Proof.Machine.execPageWalkLevel sd s
  | .apertureStore q => Sys2Proof.Machine.execApertureStore q s
  | .tableApply sd st => Sys2Proof.Machine.execTableApply sd st s
  | .applyAck sd num => Sys2Proof.Machine.execApplyAck sd num s
  | .apertureLoad q => Sys2Proof.Machine.execApertureLoad q s
  | .peerAccess port q => Sys2Proof.Machine.execPeerAccess port q s
  | .geodeSliceOperation sd g => Sys2Proof.Machine.execGeodeSliceOperation sd g s
  | .clinvSetStep sd g => Sys2Proof.Machine.execClinvSetStep sd g s
  | .contextEndNotice sd pkg part ctx => Sys2Proof.Machine.execContextEndNotice sd pkg part ctx s
  | .trapRecordDeliver el => Sys2Proof.Machine.execTrapRecordDeliver el s
  | .handlerAnswerApply el id => Sys2Proof.Machine.execHandlerAnswerApply el id s
  | .volwinBlockReceive sd md b => Sys2Proof.Machine.execVolwinBlockReceive sd md b s
  | .volwinRetryTimeout sd md => Sys2Proof.Machine.execVolwinRetryTimeout sd md s
  | .volwinMessage sd md toDie fl => Sys2Proof.Machine.execVolwinMessage sd md toDie fl s
  | .channelRequest sd f q => Sys2Proof.Machine.execChannelRequest sd f q s
  | .predecessorMark sd el oid => Sys2Proof.Machine.execPredecessorMark sd el oid s
  | .channelReadReturn sd a => Sys2Proof.Machine.execChannelReadReturn sd a s
  | .refreshDue sd ch => Sys2Proof.Machine.execRefreshDue sd ch s
  | .rateStepDown sd ch => Sys2Proof.Machine.execRateStepDown sd ch s
  | .rateStepUp sd ch => Sys2Proof.Machine.execRateStepUp sd ch s
  | .rateSwitchEnd sd ch => Sys2Proof.Machine.execRateSwitchEnd sd ch s
  | .patrolStep sd => Sys2Proof.Machine.execPatrolStep sd s
  | .channelRetirement sd ch el id => Sys2Proof.Machine.execChannelRetirement sd ch el id s
  | .rebuildStep sd => Sys2Proof.Machine.execRebuildStep sd s
  | .guardZeroDone sd n => Sys2Proof.Machine.execGuardZeroDone sd n s
  | .engineCommand sd n q pl => Sys2Proof.Machine.execEngineCommand sd n q pl s
  | .fatikImageLoad sd n => Sys2Proof.Machine.execFatikImageLoad sd n s
  | .scaleoutFrameReceive port f => Sys2Proof.Machine.execScaleoutFrameReceive port f s
  | .scaleoutResendTimeout port => Sys2Proof.Machine.execScaleoutResendTimeout port s
  | .scaleoutPortDead port => Sys2Proof.Machine.execScaleoutPortDead port s
  | .reportFrame r => Sys2Proof.Machine.execReportFrame r s
  | .declareFrame line num => Sys2Proof.Machine.execDeclareFrame line num s
  | .hostBarAccess q => Sys2Proof.Machine.execHostBarAccess q s
  | .railOutOfTolerance rail => Sys2Proof.Machine.execRailOutOfTolerance rail s
  | .thermalTrip => Sys2Proof.Machine.execThermalTrip s
  | .supplyDroop bk => Sys2Proof.Machine.execSupplyDroop bk s
  | .test good => Sys2Proof.Machine.execTest good s
  | .fwload => Sys2Proof.Machine.execFwload s
  | .fwcheck => Sys2Proof.Machine.execFwcheck s
  | .fwapply => Sys2Proof.Machine.execFwapply s
  | .bdload => Sys2Proof.Machine.execBdload s
  | .bdstart => Sys2Proof.Machine.execBdstart s
  | .handover => Sys2Proof.Machine.execHandover s
  | .signerCheck part img => Sys2Proof.Machine.execSignerCheck part img s
  | .signerClear part => Sys2Proof.Machine.execSignerClear part s
  | .attestReportSigned el id => Sys2Proof.Machine.execAttestReportSigned el id s
  | .regionWrite w => Sys2Proof.Machine.execRegionWrite w s
  | .windowWrite w => Sys2Proof.Machine.execWindowWrite w s
  | .aflagsWrite w => Sys2Proof.Machine.execAflagsWrite w s
  | .srstateWrite w => Sys2Proof.Machine.execSrstateWrite w s
  | .lodeenWrite w => Sys2Proof.Machine.execLodeenWrite w s
  | .lodeLineWrite w => Sys2Proof.Machine.execLodeLineWrite w s
  | .stagesWrite w => Sys2Proof.Machine.execStagesWrite w s
  | .ptrootWrite w => Sys2Proof.Machine.execPtrootWrite w s
  | .guardWrite w => Sys2Proof.Machine.execGuardWrite w s
  | .ratecfgWrite w => Sys2Proof.Machine.execRatecfgWrite w s
  | .fatikImageWrite w => Sys2Proof.Machine.execFatikImageWrite w s
  | .csrRegisterWrite w => Sys2Proof.Machine.execCsrRegisterWrite w s
  | .powerDown => Sys2Proof.Machine.execPowerDown s
  | .laneRepair sd md => Sys2Proof.Machine.execLaneRepair sd md s
  | .copyCommand el id => Sys2Proof.Machine.execCopyCommand el id s

end Sys2Proof.Machine
end

