-- ==== Sys2Proof/Machine/Events.lean ====
section
/-! DEFINITION. Events: what a pending event does when its turn comes, by the same meanings that exec calls. -/

namespace Sys2Proof.Machine

/-- The meaning of a pending event: exec of the instruction it is (shown in Laws). -/
def runEvent (e : Ev) (s : State) : Host.Outcome State Fault Refusal :=
  match e with
  | .tokenArrive el p t => Sys2Proof.Machine.execTokenArrive el p t s
  | .frameProbeEnd el => Sys2Proof.Machine.execFrameProbeEnd el s
  | .configMissServe el ctx => Sys2Proof.Machine.execConfigMissServe el ctx s
  | .missReplay el ctx => Sys2Proof.Machine.execMissReplay el ctx s
  | .cfgldEntry el id => Sys2Proof.Machine.execCfgldEntry el id s
  | .contextEvict el ctx => Sys2Proof.Machine.execContextEvict el ctx s
  | .signalRelease el => Sys2Proof.Machine.execSignalRelease el s
  | .deferRelease el => Sys2Proof.Machine.execDeferRelease el s
  | .memoryAnswer a => Sys2Proof.Machine.execMemoryAnswer a s
  | .faultAnswer q c info => Sys2Proof.Machine.execFaultAnswer q c info s
  | .retryAnswer q => Sys2Proof.Machine.execRetryAnswer q s
  | .levelCreditRequest bk el id ctx lvl => Sys2Proof.Machine.execLevelCreditRequest bk el id ctx lvl s
  | .poolRequest bk el id ctx wid => Sys2Proof.Machine.execPoolRequest bk el id ctx wid s
  | .levelCreditReturn w ctx lvl => Sys2Proof.Machine.execLevelCreditReturn w ctx lvl s
  | .poolReturn w ctx num => Sys2Proof.Machine.execPoolReturn w ctx num s
  | .grantArrive el id num => Sys2Proof.Machine.execGrantArrive el id num s
  | .cswRequest bk el id => Sys2Proof.Machine.execCswRequest bk el id s
  | .regionWave bk => Sys2Proof.Machine.execRegionWave bk s
  | .loopGeneratorEmit el => Sys2Proof.Machine.execLoopGeneratorEmit el s
  | .delayDue el => Sys2Proof.Machine.execDelayDue el s
  | .scaleTokenArrive el t => Sys2Proof.Machine.execScaleTokenArrive el t s
  | .groupLanding el => Sys2Proof.Machine.execGroupLanding el s
  | .warmupDone el => Sys2Proof.Machine.execWarmupDone el s
  | .burstTimeout el => Sys2Proof.Machine.execBurstTimeout el s
  | .slabCool el => Sys2Proof.Machine.execSlabCool el s
  | .routeSetup el route => Sys2Proof.Machine.execRouteSetup el route s
  | .routeAccess dst win q => Sys2Proof.Machine.execRouteAccess dst win q s
  | .stripeAccess q => Sys2Proof.Machine.execStripeAccess q s
  | .rmwComplete el => Sys2Proof.Machine.execRmwComplete el s
  | .waveRelease bk => Sys2Proof.Machine.execWaveRelease bk s
  | .indirectStreamCommand el id => Sys2Proof.Machine.execIndirectStreamCommand el id s
  | .indirectLaneComplete el id lane => Sys2Proof.Machine.execIndirectLaneComplete el id lane s
  | .copyPieceComplete el id piece => Sys2Proof.Machine.execCopyPieceComplete el id piece s
  | .lodeWave n => Sys2Proof.Machine.execLodeWave n s
  | .barrierRelease n => Sys2Proof.Machine.execBarrierRelease n s
  | .podWave n => Sys2Proof.Machine.execPodWave n s
  | .fixqPass el id => Sys2Proof.Machine.execFixqPass el id s
  | .relationScanVisit el id => Sys2Proof.Machine.execRelationScanVisit el id s
  | .relationSweepStep el win => Sys2Proof.Machine.execRelationSweepStep el win s
  | .tupleInsertAtHome el id => Sys2Proof.Machine.execTupleInsertAtHome el id s
  | .tupleDeleteAtHome el id => Sys2Proof.Machine.execTupleDeleteAtHome el id s
  | .probeAtHome el id => Sys2Proof.Machine.execProbeAtHome el id s
  | .roundAtMember el id mem => Sys2Proof.Machine.execRoundAtMember el id mem s
  | .closeAtMember el id mem => Sys2Proof.Machine.execCloseAtMember el id mem s
  | .rbindMember el id mem => Sys2Proof.Machine.execRbindMember el id mem s
  | .gradientStep el id => Sys2Proof.Machine.execGradientStep el id s
  | .pushSourceVisit el id mem => Sys2Proof.Machine.execPushSourceVisit el id mem s
  | .pullVertexVisit el id mem => Sys2Proof.Machine.execPullVertexVisit el id mem s
  | .edgeContributionCombine el id c => Sys2Proof.Machine.execEdgeContributionCombine el id c s
  | .edensCount el id mem => Sys2Proof.Machine.execEdensCount el id mem s
  | .hostPacketWrite part off bs => Sys2Proof.Machine.execHostPacketWrite part off bs s
  | .bridgeForward part stage => Sys2Proof.Machine.execBridgeForward part stage s
  | .queueAccept q => Sys2Proof.Machine.execQueueAccept q s
  | .stageFire bk => Sys2Proof.Machine.execStageFire bk s
  | .stageEntrySend el t => Sys2Proof.Machine.execStageEntrySend el t s
  | .successorForward q => Sys2Proof.Machine.execSuccessorForward q s
  | .saveWrite el id => Sys2Proof.Machine.execSaveWrite el id s
  | .translationRequest sd q => Sys2Proof.Machine.execTranslationRequest sd q s
  | .pageWalkLevel sd => Sys2Proof.Machine.execPageWalkLevel sd s
  | .apertureStore q => Sys2Proof.Machine.execApertureStore q s
  | .tableApply sd st => Sys2Proof.Machine.execTableApply sd st s
  | .applyAck sd num => Sys2Proof.Machine.execApplyAck sd num s
  | .apertureLoad q => Sys2Proof.Machine.execApertureLoad q s
  | .peerAccess port q => Sys2Proof.Machine.execPeerAccess port q s
  | .geodeSliceOperation sd g => Sys2Proof.Machine.execGeodeSliceOperation sd g s
  | .clinvSetStep sd g => Sys2Proof.Machine.execClinvSetStep sd g s
  | .contextEndNotice sd pkg part ctx => Sys2Proof.Machine.execContextEndNotice sd pkg part ctx s
  | .trapRecordDeliver el => Sys2Proof.Machine.execTrapRecordDeliver el s
  | .handlerAnswerApply el id => Sys2Proof.Machine.execHandlerAnswerApply el id s
  | .volwinBlockReceive sd md b => Sys2Proof.Machine.execVolwinBlockReceive sd md b s
  | .volwinRetryTimeout sd md => Sys2Proof.Machine.execVolwinRetryTimeout sd md s
  | .volwinMessage sd md toDie fl => Sys2Proof.Machine.execVolwinMessage sd md toDie fl s
  | .channelRequest sd f q => Sys2Proof.Machine.execChannelRequest sd f q s
  | .predecessorMark sd el oid => Sys2Proof.Machine.execPredecessorMark sd el oid s
  | .channelReadReturn sd a => Sys2Proof.Machine.execChannelReadReturn sd a s
  | .refreshDue sd ch => Sys2Proof.Machine.execRefreshDue sd ch s
  | .rateStepDown sd ch => Sys2Proof.Machine.execRateStepDown sd ch s
  | .rateStepUp sd ch => Sys2Proof.Machine.execRateStepUp sd ch s
  | .rateSwitchEnd sd ch => Sys2Proof.Machine.execRateSwitchEnd sd ch s
  | .patrolStep sd => Sys2Proof.Machine.execPatrolStep sd s
  | .channelRetirement sd ch el id => Sys2Proof.Machine.execChannelRetirement sd ch el id s
  | .rebuildStep sd => Sys2Proof.Machine.execRebuildStep sd s
  | .guardZeroDone sd n => Sys2Proof.Machine.execGuardZeroDone sd n s
  | .engineCommand sd n q pl => Sys2Proof.Machine.execEngineCommand sd n q pl s
  | .fatikImageLoad sd n => Sys2Proof.Machine.execFatikImageLoad sd n s
  | .scaleoutFrameReceive port f => Sys2Proof.Machine.execScaleoutFrameReceive port f s
  | .scaleoutResendTimeout port => Sys2Proof.Machine.execScaleoutResendTimeout port s
  | .scaleoutPortDead port => Sys2Proof.Machine.execScaleoutPortDead port s
  | .reportFrame r => Sys2Proof.Machine.execReportFrame r s
  | .declareFrame line num => Sys2Proof.Machine.execDeclareFrame line num s
  | .hostBarAccess q => Sys2Proof.Machine.execHostBarAccess q s
  | .railOutOfTolerance rail => Sys2Proof.Machine.execRailOutOfTolerance rail s
  | .thermalTrip => Sys2Proof.Machine.execThermalTrip s
  | .supplyDroop bk => Sys2Proof.Machine.execSupplyDroop bk s
  | .test good => Sys2Proof.Machine.execTest good s
  | .fwload => Sys2Proof.Machine.execFwload s
  | .fwcheck => Sys2Proof.Machine.execFwcheck s
  | .fwapply => Sys2Proof.Machine.execFwapply s
  | .bdload => Sys2Proof.Machine.execBdload s
  | .bdstart => Sys2Proof.Machine.execBdstart s
  | .handover => Sys2Proof.Machine.execHandover s
  | .signerCheck part img => Sys2Proof.Machine.execSignerCheck part img s
  | .signerClear part => Sys2Proof.Machine.execSignerClear part s
  | .attestReportSigned el id => Sys2Proof.Machine.execAttestReportSigned el id s
  | .regionWrite w => Sys2Proof.Machine.execRegionWrite w s
  | .windowWrite w => Sys2Proof.Machine.execWindowWrite w s
  | .aflagsWrite w => Sys2Proof.Machine.execAflagsWrite w s
  | .srstateWrite w => Sys2Proof.Machine.execSrstateWrite w s
  | .lodeenWrite w => Sys2Proof.Machine.execLodeenWrite w s
  | .lodeLineWrite w => Sys2Proof.Machine.execLodeLineWrite w s
  | .stagesWrite w => Sys2Proof.Machine.execStagesWrite w s
  | .ptrootWrite w => Sys2Proof.Machine.execPtrootWrite w s
  | .guardWrite w => Sys2Proof.Machine.execGuardWrite w s
  | .ratecfgWrite w => Sys2Proof.Machine.execRatecfgWrite w s
  | .fatikImageWrite w => Sys2Proof.Machine.execFatikImageWrite w s
  | .csrRegisterWrite w => Sys2Proof.Machine.execCsrRegisterWrite w s
  | .powerDown => Sys2Proof.Machine.execPowerDown s
  | .laneRepair sd md => Sys2Proof.Machine.execLaneRepair sd md s
  | .copyCommand el id => Sys2Proof.Machine.execCopyCommand el id s

end Sys2Proof.Machine
end

