-- ==== Sys2Proof/Machine/Issue.lean ====
section
/-! DEFINITION. What moves next and what it is: the choice of the turn (log 1), events that keep their order, the ready set
an element issues (R24, R36), the word it fetches, words that name no form (R54, R68), and a word placed from outside
(log 8). -/

namespace Sys2Proof.Machine

/-- The entries D0 to D15 that a firing's emits go to: its selects, and FAN's set bits (R143). -/
def FCtx.emitEntries (c : FCtx) : List Nat :=
  [c.d, c.e].filter (· ≤ 0x0F) ++ (if c.op = 0x63 then (List.range 16).filter fun j => bit (c.vb 0) j else [])

/-- Does a select name an address generator? -/
def isGenDest (n : Nat) : Bool := decide (0x10 ≤ n) && decide (n ≤ 0x13)
/-- Does an issued firing still owe a write to a generator? -/
def Pend.owesGen (p : Pend) : Bool := decide (p.phase ≠ 1000) && (isGenDest p.d || isGenDest p.e || p.outs.any fun o => isGenDest o.dst)
/-- Does a firing act on a generator? -/
def FCtx.usesGen (c : FCtx) : Bool := inRanges c.op [(0x94, 0x96)] || isGenDest c.d || isGenDest c.e

/-- May a ready set issue? One of a USER or SYS context does not while its block is bound to no region (R134); while the element's
output queue of 8 tokens is full, only one whose emits all leave on the signal channel, or to no entry D0 to D15, does (R340). What acts on a generator follows the writes to generators of the firings before it (R218): the set is
held until they have left (DEDUCED, log 23). -/
def mayIssue (f : Fabric) (el : Nat) (s : MSet) : Bool :=
  let e := f.el el
  let img := e.imageOf s.ctx
  (isFatik el || decide (Image.priv img = 2) || bit (f.bk (blockOf el) 0) 31)
    && (!(f.ctxOf el s).usesGen || !e.pend.any Pend.owesGen)
    && (decide (e.outq.length < 8) || (f.ctxOf el s).emitEntries.all fun j => bit (img.dest j) 3)

/-- The ready set that an element issues now (R24): the one of the lowest stamp of those that may, unless a token under probe has an
earlier stamp (R36), a Fatik element is halted (R439), or the block withholds issue (R442). A block that SAVE has stopped issues no new set:
it drains those that an answer has sent on (R348). -/
def pickSet (f : Fabric) (el : Nat) : Option MSet :=
  let e := f.el el
  let stopped := !isFatik el && (f.blk (blockOf el)).stopped
  if e.halted || (!isFatik el && (f.blk (blockOf el)).withheld) then none
  else (e.ready.find? fun s => (!stopped || s.answered) && mayIssue f el s).filter fun x => e.probes.all fun p => decide (x.stamp < p.1.stamp)

/-- May an element issue now? -/
def canIssue (f : Fabric) (el : Nat) : Bool := (pickSet f el).isSome

/-- A token that an element sent to itself arrives in the cycle after its issue, so no token sent later comes before it (R21). One that
found no place at its port is behind the others again, and holds none of them back. -/
def afterLoopback (i x : Ev) : Bool :=
  match i, x with
  | .tokenArrive a p _, .tokenArrive b .loopback _ => decide (a = b) && p != .loopback
  | _, _ => false

/-- The place of the first event of the agenda that another may not overtake. -/
def firstSame (i : Ev) (ag : List Ev) : Nat := ag.findIdx fun x => sameOrder i x || afterLoopback i x

/-- The place of the event that moves where the k-th is asked for: an event moves only after those that it may not overtake. -/
def firstFree (ag : List Ev) : Nat → Nat → Nat
  | 0, k => k
  | n + 1, k =>
    match ag[k]? with
    | none => k
    | some i => let j := firstSame i ag; if j < k then firstFree ag n j else k

/-- The elements that can issue. -/
def issuers (f : Fabric) : List Nat := (f.els.filter fun p => canIssue f p.1).map (·.1)

/-- The turn in force: the schedule's head; without one, the agenda's head and the elements that can issue take turns. -/
def nextTurn (f : Fabric) : Option Turn :=
  match f.sched with
  | t :: _ => some t
  | [] =>
    let is := issuers f
    let ev := if f.agenda.isEmpty then none else some (Turn.event 0)
    let iss := if is.isEmpty then none else some (Turn.issue (is.getD (f.clock / 2 % is.length) 0))
    if f.clock % 2 = 0 then ev <|> iss else iss <|> ev

/-- The schedule advances and the step counter counts. -/
def tick (f : Fabric) : Fabric := { f with sched := f.sched.tail, clock := f.clock + 1 }

/-- The k-th pending event, or the one before it that it may not overtake, taken off the agenda. -/
def takeEvent (f : Fabric) (k : Nat) : Option (Ev × Fabric) :=
  let j := firstFree f.agenda k k
  match f.agenda[j]? with
  | none => none
  | some x => some (x, { f with agenda := f.agenda.eraseIdx j })

/-- The lowest-stamped ready set of an element, taken for issue (R24). -/
def takeSet (f : Fabric) (el : Nat) : Option (MSet × Fabric) :=
  (pickSet f el).map fun x => (x, { f.modEl el fun e => { e with ready := e.ready.erase x } with cur := el, fire := x })

/-- The word of a set's slot in the resident image of its context. -/
def fetchWord (f : Fabric) (el : Nat) (x : MSet) : Option Word :=
  ((f.el el).residentOf x.ctx).map fun r => Image.instr r.image x.slot

/-- A word at issue that names no form. An unassigned opcode raises ILLEGAL with the word (R68); a select or tag action that its form
does not admit is a fault of check 5, and raises with the slot what R54 gives the lowest REASON that the slot has (R67). -/
def badWord (f : Fabric) (w : Word) : Fabric :=
  if assigned (fieldOp w).toNat then
    let reason := ((f.lazyFault f.cur ((f.el f.cur).imageOf f.fire.ctx) f.fire.slot).map (·.1)).getD 0x04
    takeTrap f f.cur f.fire (lazyCause reason) (w32 f.fire.slot)
  else takeTrap f f.cur f.fire .illegal w

/-- An image of context 0 at HYP that holds one word, in slot 0. -/
def oneWordImage (w : Word) : Image :=
  (List.range 48).map fun i =>
    if i = 0 then 0x0080000000000000 else if i = 4 then 0x40000000 else if i = 5 then 1 else if i = 8 then w.setWidth 64 else 0

/-- A scalar token of context 0 for slot 0 of element 0. -/
def plainTok (side : Bool) : Tok := ⟨mkHdr 0 0 0 side 0 1 0 false false false false, 1, 0, [0]⟩

/-- A word placed where the next step issues it: the image in C0 of element 0, a matched set at its slot, and the turn. What would hold
its issue back is taken away. -/
def placeWord (s : State) (w : Word) : State :=
  let f := s.fab
  let f := f.modEl 0 fun e => { e with
    slots := tset e.slots 0 ⟨0, oneWordImage w, false, 0, FailRec.empty⟩
    ready := ⟨0, 0, 0, 0, some (plainTok false), some (plainTok true), 0, 0⟩ :: e.ready
    probes := []
    outq := []
    pend := e.pend.filter fun p => !p.owesGen
    halted := false }
  let f := f.modBlk 0 fun b => { b with stopped := false, withheld := false }
  { s with fab := { f with sched := .issue 0 :: f.sched }, mod := { s.mod with thermtrip := false } }

end Sys2Proof.Machine
end

