-- ==== Sys2Proof/Machine/Step.lean ====
section
/-! DEFINITION. One step of the machine: the turn that moves (log 1), the word at issue, and the load of one instruction from
outside (log 8). -/

namespace Sys2Proof.Machine

/-- Is the turn in force that of a power cycle's POWER_DOWN, which alone moves a tripped module (R442)? -/
def powersDown (f : Fabric) : Bool :=
  match nextTurn f with
  | some (.event k) => decide (f.agenda[k]? = some .powerDown)
  | _ => false

/-- One step. A stopped clock moves nothing but a power cycle (R442); otherwise the turn in force moves: a pending event, the issue of an
element, or nothing. -/
def step (s : State) : Host.Outcome State Fault Refusal :=
  if s.mod.thermtrip && !powersDown s.fab then .fault .clockStopped
  else
    let t := nextTurn s.fab
    let f := tick s.fab
    match t with
    | some (.event k) =>
      match takeEvent f k with
      | some (e, f) => runEvent e { s with fab := f }
      | none => .next { s with fab := f }
    | some (.issue el) =>
      match takeSet f el with
      | none => .next { s with fab := f }
      | some (x, f) =>
        match fetchWord f el x with
        | none => .fault .imageMissing
        | some w =>
          match decode w with
          | some i => exec i { s with fab := f }
          | none => .next { s with fab := badWord f w }
    | none => .next { s with fab := f }

/-- The machine with an instruction placed where the next step issues it (log 8). -/
def State.withFetchWord (s : State) (nbits w : Nat) : State := placeWord s (BitVec.ofNat 32 (w % 2 ^ nbits))

end Sys2Proof.Machine
end

