-- ==== Sys2Proof/Safety.lean ====
section
/-! DEFINITION. What a safe run is, and the terms the claims use: the firing at issue, when nothing stops or holds back a
firing, and the fabric after a firing that sends its tokens at once or waits with a record. -/

namespace Sys2Proof.Machine

/-- A step from s neither faults nor is refused. -/
def SafeStep (s : State) : Prop := ∃ t, step s = .next t

/-- n steps from s are safe. -/
def SafeRun : Nat → State → Prop
  | 0, _ => True
  | n + 1, s => ∃ t, step s = .next t ∧ SafeRun n t

/-! ## A firing that goes through -/

/-- The firing of the set at issue by a word with these fields. -/
abbrev firing (s : State) (op : Nat) (a b d e : BitVec 5) (t : BitVec 4) : FCtx :=
  mkCtx s.fab s.fab.cur s.fab.fire op a.toNat b.toNat d.toNat e.toNat t.toNat

/-- A destination code that is no exit (R141) and no entry of KIND 10 (R203, R367). -/
def plainDst (c : FCtx) (n : Nat) : Bool :=
  !(decide (0x16 ≤ n) && decide (n ≤ 0x19)) && (decide (0x0F < n) || decide (destKind (c.img.dest n) ≠ 2))

/-- Nothing stops the firing before its operands are fetched (R26, R27, R54, R134, R137, R203), no arithmetic trap is enabled
(R91), its slot opens no commit entry and its tag has none (R140), and neither destination is an exit or a route. -/
def Clear (c : FCtx) : Prop :=
  c.stops = none ∧ c.elt.aftrap = 0 ∧ opensEntry c.img c.slot = false ∧ c.elt.commitOf c.ctx c.tag = none ∧ c.namesRoute = false
    ∧ plainDst c c.d = true ∧ plainDst c c.e = true

/-- A clear firing whose tag action asks its anchor for no level and no number (R137): it needs no grant. -/
def Ready (c : FCtx) : Prop := Clear c ∧ c.granted = false

/-- An answer place is free (R340). -/
def HasPlace (c : FCtx) : Prop := (c.elt.pend.filter Pend.hasPlace).length < 32

/-- The tag of a firing's tokens (R137): RENAME puts the value sent on DSTA into F0. -/
def resultTag (c : FCtx) (outs : List Out) : DWord :=
  if c.t = 6 then
    let o := match outs.find? fun o => decide (o.dst = c.d) && o.scale.isNone with
      | some o => some o
      | none => outs.head?
    c.img.setF0 c.tag ((o.map fun o => (o.lanes.getD 0 0).toNat).getD 0)
  else c.tagNow

/-- The tokens that leave the element for one output: one for an entry of KIND 01, none for any other code (R42, R43, R165). -/
def tokens (c : FCtx) (tag : DWord) (o : Out) : List Ev :=
  if o.dst ≤ 0x0F ∧ destKind (c.img.dest o.dst) = 1 then
    let e := c.img.dest o.dst
    let tgt := entryTarget c.el e
    match o.scale with
    | some v => [.scaleTokenArrive tgt ⟨fld e 9 5, v, outTag c.img c.tag tag o⟩]
    | none => [.tokenArrive tgt (if bit e 3 then .signal else if tgt = c.el then .loopback else .packet) (entryTok e (outTag c.img c.tag tag o) o)]
  else []

/-- What waits in the element's output queue for one output (R340): a token for another element's packet port that its target holds
back, or a scale token whose target's store is full. `x` is the element itself. -/
def heldOut (c : FCtx) (tag : DWord) (x : Element) (o : Out) : List (Nat × Tok) :=
  let e := c.img.dest o.dst
  let tgt := entryTarget c.el e
  if destKind e = 1 then
    match o.scale with
    | some v => if 64 ≤ (if tgt = c.el then x else c.f.el tgt).scales.length then [(tgt, scaleAsTok ⟨fld e 9 5, v, outTag c.img c.tag tag o⟩)] else []
    | none => if bit e 3 = false ∧ tgt ≠ c.el ∧ (c.f.el tgt).holdsBack .packet = true then [(tgt, entryTok e (outTag c.img c.tag tag o) o)] else []
  else []

/-- What one output does to its own element: the sent bit of R249 and the output queue of R340 for an entry, a generator's base (R200),
ACC words or HIST counters (R176) for the codes that name them. -/
def keep (c : FCtx) (tag : DWord) (e : Element) (o : Out) : Element :=
  if o.dst ≤ 0x0F then { e with sentAt := tset e.sentAt c.ctx c.f.clock, outq := e.outq ++ heldOut c tag e o }
  else if o.eos ≠ 0 ∨ o.scale.isSome then e
  else if o.dst ≤ 0x13 then
    match lowestLane o with
    | none => e
    | some v =>
      let g := tget ⟨0, 0, 0, 0⟩ e.gens (o.dst - 0x10)
      { e with gens := tset e.gens (o.dst - 0x10) ⟨setFld g.w0 18 0 v.toNat, g.w1, 0, 0⟩ }
  else if o.dst = 0x14 then { landAll e with acc := writeRun (landAll e).acc (c.img.f (outTag c.img c.tag tag o) 0) o }
  else if o.dst = 0x15 then { e with hist := writeRun e.hist (c.img.f (outTag c.img c.tag tag o) 0) o }
  else e

/-- The element with flags recorded (R90) and the issue stamped for its context (R161). -/
def noted (c : FCtx) (fl : Flags) (e : Element) : Element :=
  { e with
    aflags := e.aflags ||| fl.setWidth 32
    slots := e.slots.map fun p => if p.2.ctx = c.ctx then (p.1, { p.2 with last := c.f.clock }) else p }

/-- The element after a firing whose outputs left it, `f` the fabric with what the form itself wrote: no record remains, and sets that wait for a completion or an answer
place are examined again (R239, R340). -/
def doneEl (c : FCtx) (f : Fabric) (fl : Flags) (tag : DWord) (outs : List Out) (e : Element) : Element :=
  ((outs.foldl (keep { c with f := f } tag) (noted c fl e)).dropPend c.id).wake fun x => decide (x.reason = .fence) || decide (x.reason = .queue ∧ x.on = 1)

/-- THE FABRIC AFTER A FIRING THAT SENDS ITS TOKENS AT ONCE: `f` is the fabric with what the form itself wrote. The issuing
element alone changes, and the messages to the anchor and the tokens join the agenda. -/
def sent (c : FCtx) (f : Fabric) (fl : Flags) (tag : DWord) (outs : List Out) : Fabric :=
  { f with
    els := tset f.els c.el (doneEl c f fl tag outs (f.el c.el))
    agenda := f.agenda ++ c.anchorMsg ++ outs.flatMap (tokens c tag) }

/-- THE FABRIC AFTER A FIRING THAT WAITS with a record: the record joins those of its element under the next number, with the
result tag as far as it is known, and the messages to the anchor join the agenda. -/
def waiting (c : FCtx) (f : Fabric) (fl : Flags) (p : Pend) : Fabric :=
  let e := noted c fl (f.el c.el)
  { f with
    els := tset f.els c.el { e with pend := e.pend ++ [{ p with tag := c.tagNow, grant := c.granted, masked := false, ordered := false, placed := false }], nextId := e.nextId + 1 }
    agenda := f.agenda ++ c.anchorMsg }

/-- Instruction i completes at s as the firing c, sending its tokens at once. -/
def Sends (i : Instr) (s : State) (c : FCtx) (f : Fabric) (fl : Flags) (outs : List Out) : Prop :=
  exec i s = .next { s with fab := sent c f (fl ||| c.extFlags) (resultTag c outs) outs }

/-- Instruction i completes at s as the firing c with a record that waits. -/
def Waits (i : Instr) (s : State) (c : FCtx) (f : Fabric) (fl : Flags) (p : Pend) : Prop :=
  exec i s = .next { s with fab := waiting c f (fl ||| c.extFlags) p }

/-- The flags of several lanes. -/
def orFlags (l : List Flags) : Flags := l.foldr (· ||| ·) 0

/-- The lanes of a firing (R105): in every lane of V the value and the flags are as `L` says; any other lane passes a through
where the formats agree, holds 0 where they do not, and sets no flag. -/
def LanesAre (c : FCtx) (r : List (DWord × Flags)) (L : Nat → DWord → Flags → Prop) : Prop :=
  r.length = c.len ∧ ∀ (k : Nat) (h : k < r.length),
    if c.on k then L k r[k].1 r[k].2 else r[k] = (if c.fin = c.fout then c.va k else 0, 0)

/-- INSTRUCTION i COMPLETES AT s AS A LANE OPERATION (R105, R106): its lanes are as `L` says, the same run leaves to both
destinations under V, and the flags of the valid lanes are recorded. Nothing but the issuing element and the agenda changes. -/
def Lanewise (i : Instr) (s : State) (c : FCtx) (L : Nat → DWord → Flags → Prop) : Prop :=
  ∃ r : List (DWord × Flags), LanesAre c r L ∧ Sends i s c s.fab (orFlags (r.map (·.2))) (c.both c.valid (r.map (·.1)))

/-- The same of an operation that draws on the stochastic-rounding state (R87): `L` says how each valid lane leaves it. -/
def LanewiseSR (i : Instr) (s : State) (c : FCtx) (L : Nat → Word → DWord → Flags → Word → Prop) : Prop :=
  ∃ (r : List (DWord × Flags)) (srs : List Word), r.length = c.len ∧ srs.length = c.len + 1 ∧ srs[0]? = some c.elt.srstate
    ∧ (∀ (k : Nat) (h : k < r.length), if c.on k then L k (srs.getD k 0) r[k].1 r[k].2 (srs.getD (k + 1) 0)
        else r[k] = (if c.fin = c.fout then c.va k else 0, 0) ∧ srs.getD (k + 1) 0 = srs.getD k 0)
    ∧ Sends i s c (s.fab.modEl c.el fun e => { e with srstate := srs.getD c.len 0 }) (orFlags (r.map (·.2))) (c.both c.valid (r.map (·.1)))

end Sys2Proof.Machine
end

