-- ==== Sys2Proof/Certificates/Slice0/Obligations.lean ====
section
/-! DEFINITION. The statements for the provers, by family of the opcode table, with the shapes they share. -/

/-! ## Integer and float arithmetic -/

namespace Sys2Proof.Machine

/-- A form's rule for one lane of a firing: lane number, value and flags. -/
abbrev LaneRule := FCtx → Nat → DWord → Flags → Prop

/-- Every ready firing of a form completes as a lane operation under a rule. -/
def LaneOp (op : Nat) (mk : BitVec 5 → BitVec 5 → BitVec 5 → BitVec 5 → BitVec 4 → Instr) (L : LaneRule) : Prop :=
  ∀ (s : State) (a b d e : BitVec 5) (t : BitVec 4), Ready (firing s op a b d e t) →
    Lanewise (mk a b d e t) s (firing s op a b d e t) (L (firing s op a b d e t))

/-- The same of a form with stochastic rounding: the state before and after a lane stand around its value and flags. -/
def LaneOpSR (op : Nat) (mk : BitVec 5 → BitVec 5 → BitVec 5 → BitVec 5 → BitVec 4 → Instr)
    (L : FCtx → Nat → Word → DWord → Flags → Word → Prop) : Prop :=
  ∀ (s : State) (a b d e : BitVec 5) (t : BitVec 4), Ready (firing s op a b d e t) →
    LanewiseSR (mk a b d e t) s (firing s op a b d e t) (L (firing s op a b d e t))

/-- The low bits of an exact result are kept, and OF says that it lies outside the format (R110). -/
def WrapsTo (f : Fmt) (x : Int) (v : DWord) (fl : Flags) : Prop :=
  v.toNat < 2 ^ f.width ∧ ((v.toNat : Int) - x) % 2 ^ f.width = 0 ∧ fl = if intMin f ≤ x ∧ x ≤ intMax f then 0 else flOF

/-- A value that needs no wrap, without flags. -/
def Gives (f : Fmt) (x : Int) (v : DWord) (fl : Flags) : Prop := v.toNat < 2 ^ f.width ∧ readInt f v = x ∧ fl = 0

/-- An exact result clamped to the format's range, SAT where it was outside (R61). -/
def ClampsTo (f : Fmt) (x : Int) (v : DWord) (fl : Flags) : Prop :=
  v.toNat < 2 ^ f.width ∧ readInt f v = max (intMin f) (min (intMax f) x) ∧ fl = if intMin f ≤ x ∧ x ≤ intMax f then 0 else flSAT

/-- A word given bit by bit below the width, zero above it, without flags. -/
def BitsAre (w : Nat) (g : Nat → Bool) (v : DWord) (fl : Flags) : Prop := fl = 0 ∧ ∀ i : Nat, v.getLsbD i = (decide (i < w) && g i)

/-- Bit i of lane k of a, b and K15. -/
def FCtx.abit (c : FCtx) (k i : Nat) : Bool := (c.va k).getLsbD i
def FCtx.bbit (c : FCtx) (k i : Nat) : Bool := (c.vb k).getLsbD i
/-- The shift amount: b unsigned (R112). -/
def FCtx.shift (c : FCtx) (k : Nat) : Nat := (c.vb k).toNat

end Sys2Proof.Machine

open Sys2Proof Sys2Proof.Machine

/-- R109, R110: ADD, SUB, MUL and MAD form their exact result and keep its low bits, with OF where it is out of range; NEG and ABS as well; MIN
and MAX give the lesser and the greater value without flags. Readings of the model's own: log 20. -/
def Obligations.IntegerFormsWrap : Prop :=
  LaneOp 0x00 Instr.add (fun c k => WrapsTo c.ifmt (c.ia k + c.ib k))
    ∧ LaneOp 0x01 Instr.sub (fun c k => WrapsTo c.ifmt (c.ia k - c.ib k))
    ∧ LaneOp 0x02 Instr.mul (fun c k => WrapsTo c.ifmt (c.ia k * c.ib k))
    ∧ LaneOp 0x04 Instr.mad (fun c k => WrapsTo c.ifmt (c.ia k * c.ib k + c.ic k))
    ∧ LaneOp 0x07 Instr.neg (fun c k => WrapsTo c.ifmt (0 - c.ia k))
    ∧ LaneOp 0x08 Instr.abs (fun c k => WrapsTo c.ifmt (if c.ia k < 0 then -c.ia k else c.ia k))
    ∧ LaneOp 0x09 Instr.min (fun c k => Gives c.ifmt (if c.ia k ≤ c.ib k then c.ia k else c.ib k))
    ∧ LaneOp 0x0A Instr.max (fun c k => Gives c.ifmt (if c.ia k ≤ c.ib k then c.ib k else c.ia k))

/-- R109, R111: DIV truncates towards zero, REM gives a - b × DIV(a, b); a zero divisor sets DZ and gives the bound of a's sign, or a for REM;
DIV of the least number by -1 wraps with OF. MULH gives the high half of the product. -/
def Obligations.IntegerDivision : Prop :=
  LaneOp 0x05 Instr.div (fun c k v fl =>
      (c.ib k = 0 → v.toNat < 2 ^ c.w ∧ fl = flDZ ∧ readInt c.ifmt v = if c.ia k < 0 then intMin c.ifmt else intMax c.ifmt)
        ∧ (c.ib k ≠ 0 → WrapsTo c.ifmt ((c.ia k).tdiv (c.ib k)) v fl))
    ∧ LaneOp 0x06 Instr.rem (fun c k v fl =>
        (c.ib k = 0 → v.toNat < 2 ^ c.w ∧ fl = flDZ ∧ readInt c.ifmt v = c.ia k)
          ∧ (c.ib k ≠ 0 → Gives c.ifmt (c.ia k - c.ib k * (c.ia k).tdiv (c.ib k)) v fl))
    ∧ LaneOp 0x03 Instr.mulh (fun c k v fl =>
        v.toNat < 2 ^ c.w ∧ ((v.toNat : Int) - c.ia k * c.ib k / 2 ^ c.w) % 2 ^ c.w = 0 ∧ fl = 0)

/-- R109, R112, R113, R114: the bitwise forms, the shifts and the rotation, bit by bit; CLZ and POPC count leading zeros and ones, BREV
reverses, BFX extracts the field at p of width n with its sign in a signed format, BFI replaces it, CMP gives 1, 2 or 4; none sets a flag. -/
def Obligations.IntegerBitForms : Prop :=
  (
  LaneOp 0x0B Instr.and (fun c k => BitsAre c.w fun i => c.abit k i && c.bbit k i)
    ∧ LaneOp 0x0C Instr.or (fun c k => BitsAre c.w fun i => c.abit k i || c.bbit k i)
    ∧ LaneOp 0x0D Instr.xor (fun c k => BitsAre c.w fun i => c.abit k i != c.bbit k i)
    ∧ LaneOp 0x0E Instr.not (fun c k => BitsAre c.w fun i => !c.abit k i)
    ∧ LaneOp 0x0F Instr.shl (fun c k => BitsAre c.w fun i => decide (c.shift k ≤ i) && c.abit k (i - c.shift k))
    ∧ LaneOp 0x10 Instr.shr (fun c k => BitsAre c.w fun i => decide (i + c.shift k < c.w) && c.abit k (i + c.shift k))
    ∧ LaneOp 0x11 Instr.sar (fun c k => BitsAre c.w fun i => c.abit k (min (i + c.shift k) (c.w - 1)))
    ∧ LaneOp 0x12 Instr.rot (fun c k => BitsAre c.w fun i => c.abit k ((i + c.w - c.shift k % c.w) % c.w)))
    ∧ (
  LaneOp 0x13 Instr.clz (fun c k v fl => fl = 0 ∧ v.toNat ≤ c.w ∧ (∀ i, i < v.toNat → c.abit k (c.w - 1 - i) = false)
      ∧ (v.toNat < c.w → c.abit k (c.w - 1 - v.toNat) = true))
    ∧ LaneOp 0x14 Instr.popc (fun c k v fl => fl = 0 ∧ v.toNat = ((List.range c.w).filter fun i => c.abit k i).length)
    ∧ LaneOp 0x15 Instr.brev (fun c k => BitsAre c.w fun i => c.abit k (c.w - 1 - i))
    ∧ LaneOp 0x16 Instr.bfx (fun c k =>
        let p := (c.vb k).toNat % 64
        let n := min 64 ((c.vb k).toNat / 256 % 128)
        BitsAre c.w fun i =>
          if i < n then decide (p + i < c.w) && c.abit k (p + i)
          else decide (0 < n) && c.ifmt.signed && decide (p + n - 1 < c.w) && c.abit k (p + n - 1))
    ∧ LaneOp 0x17 Instr.bfi (fun c k =>
        let p := (c.vc k).toNat % 64
        let n := min 64 ((c.vc k).toNat / 256 % 128)
        BitsAre c.w fun i => if p ≤ i ∧ i < p + n then c.bbit k (i - p) else c.abit k i)
    ∧ LaneOp 0x18 Instr.cmp (fun c k v fl =>
        fl = 0 ∧ v = if c.ia k < c.ib k then 1 else if c.ia k = c.ib k then 2 else 4))


/-! ## Float arithmetic and conversions -/

namespace Sys2Proof.Machine

/-- The canonical NaN of a format, with IV under a condition (R73). -/
def IsNan (p : FP) (iv : Bool) (v : DWord) (fl : Flags) : Prop := v = w64 p.nan ∧ fl = if iv then flIV else 0

/-- An infinity, a zero, without flags. -/
def IsInf (p : FP) (neg : Bool) (v : DWord) (fl : Flags) : Prop := v = p.withSign neg p.inf ∧ fl = 0
def IsZero (p : FP) (neg : Bool) (v : DWord) (fl : Flags) : Prop := v = p.withSign neg 0 ∧ fl = 0

/-- The exact rational n/d rounded once into the format in a mode (R84-R86); an exact zero takes a sign. -/
def Rounds (p : FP) (m : Round) (zneg : Bool) (n : Int) (d : Nat) (v : DWord) (fl : Flags) : Prop :=
  if n = 0 then IsZero p zneg v fl else v = (roundFin p m false false 0 ⟨n, d⟩).bits ∧ fl = (roundFin p m false false 0 ⟨n, d⟩).fl

/-- x + y by cases (R116): NaN, infinities, zeros, and the exact sum rounded. -/
def SumIs (p : FP) (m : Round) (x y : FV) (v : DWord) (fl : Flags) : Prop :=
  match x, y with
  | .nan s, y => IsNan p (s || y.isSig) v fl
  | _, .nan t => IsNan p t v fl
  | .inf s, .inf t => if s = t then IsInf p s v fl else IsNan p true v fl
  | .inf s, _ => IsInf p s v fl
  | _, .inf t => IsInf p t v fl
  | .zero s, .zero t => IsZero p (if s = t then s else decide (m = .rdn)) v fl
  | .zero _, .fin q => Rounds p m false q.n q.d v fl
  | .fin q, .zero _ => Rounds p m false q.n q.d v fl
  | .fin q, .fin r => Rounds p m (decide (m = .rdn)) (q.n * r.d + r.n * q.d) (q.d * r.d) v fl

/-- x × y by cases: the sign is the XOR of the operands' signs, and infinity × zero is invalid (R116). -/
def ProductIs (p : FP) (m : Round) (x y : FV) (v : DWord) (fl : Flags) : Prop :=
  match x, y with
  | .nan s, y => IsNan p (s || y.isSig) v fl
  | _, .nan t => IsNan p t v fl
  | .inf _, .zero _ => IsNan p true v fl
  | .zero _, .inf _ => IsNan p true v fl
  | .inf s, y => IsInf p (s != y.neg) v fl
  | x, .inf t => IsInf p (x.neg != t) v fl
  | .zero s, y => IsZero p (s != y.neg) v fl
  | x, .zero t => IsZero p (x.neg != t) v fl
  | .fin q, .fin r => Rounds p m false (q.n * r.n) (q.d * r.d) v fl

/-- The exact product of two values (R116): NaN, where IV tells of a signalling operand or of infinity × zero; else an infinity, a zero or a
number under the XOR of the signs. -/
def productOf (x y : FV) : FV :=
  match x, y with
  | .nan s, y => .nan (s || y.isSig)
  | _, .nan t => .nan t
  | .inf _, .zero _ => .nan true
  | .zero _, .inf _ => .nan true
  | .inf s, y => .inf (s != y.neg)
  | x, .inf t => .inf (x.neg != t)
  | .zero s, y => .zero (s != y.neg)
  | x, .zero t => .zero (x.neg != t)
  | .fin q, .fin r => .fin ⟨q.n * r.n, q.d * r.d⟩

/-- x ÷ y by cases: a finite non-zero number by zero is an infinity with DZ (R116). -/
def QuotientIs (p : FP) (m : Round) (x y : FV) (v : DWord) (fl : Flags) : Prop :=
  match x, y with
  | .nan s, y => IsNan p (s || y.isSig) v fl
  | _, .nan t => IsNan p t v fl
  | .inf _, .inf _ => IsNan p true v fl
  | .zero _, .zero _ => IsNan p true v fl
  | .inf s, y => IsInf p (s != y.neg) v fl
  | x, .inf t => IsZero p (x.neg != t) v fl
  | .zero s, y => IsZero p (s != y.neg) v fl
  | .fin q, .zero t => v = p.withSign (decide (q.n < 0) != t) p.inf ∧ fl = flDZ
  | .fin q, .fin r => Rounds p m false (if r.n < 0 then -(q.n * r.d) else q.n * r.d) (q.d * r.n.natAbs) v fl

/-- The special inputs of a function (R117): what it gives for NaN, a negative finite number where it is invalid, and the rest. -/
def NanRule (p : FP) (x : FV) (v : DWord) (fl : Flags) : Prop := ∀ s, x = .nan s → IsNan p s v fl

/-- A function of one operand completes as its row of the table of R117 says. -/
def FloatFun (op : Nat) (mk : BitVec 5 → BitVec 5 → BitVec 5 → BitVec 5 → BitVec 4 → Instr) (L : FP → Round → FV → DWord → Flags → Prop) : Prop :=
  LaneOp op mk fun c k v fl => c.ifmt.isFlt = true → NanRule c.pin (c.fa k) v fl ∧ L c.pin c.mode (c.fa k) v fl

/-- FMIN and FMAX of two values (R118): they never round, prefer a number to a NaN, order -0 below +0, and IV tells of a signalling NaN. -/
def PickIs (p : FP) (isMax : Bool) (x y v : DWord) (fl : Flags) : Prop :=
  fl = (if ((fread p x).isSig || (fread p y).isSig) = true then flIV else 0)
    ∧ ((fread p x).isNan = true → (fread p y).isNan = true → v = w64 p.nan)
    ∧ ((fread p x).isNan = true → (fread p y).isNan = false → v = y)
    ∧ ((fread p x).isNan = false → (fread p y).isNan = true → v = x)
    ∧ ((fread p x).isNan = false → (fread p y).isNan = false →
        v = if (if isMax then ltTotal (fread p x) (fread p y) else ltTotal (fread p y) (fread p x)) = true then y else x)

/-- NX is among the flags. -/
def Inexact (fl : Flags) : Prop := fl &&& flNX ≠ 0

/-- √(n/d) rounded once in a mode: a number y is rounded that is the root, or, where the root is no multiple of 2^-400, lies strictly between
the same two neighbouring multiples as the root; then NX is set. No number and no tie of a format of R72 lies between those multiples. -/
def RootRounds (p : FP) (m : Round) (n d : Nat) (v : DWord) (fl : Flags) : Prop :=
  ∃ (y : Q) (exact : Bool), 0 < y.d ∧ v = (roundFin p m false (!exact) 0 y).bits ∧ fl = (roundFin p m false (!exact) 0 y).fl
    ∧ if exact then 0 ≤ y.n ∧ y.n * y.n * d = n * (y.d * y.d : Nat)
      else ∃ k : Nat, k * k * d < n * 2 ^ 800 ∧ n * 2 ^ 800 < (k + 1) * (k + 1) * d
        ∧ (k * y.d : Nat) < y.n * 2 ^ 400 ∧ y.n * 2 ^ 400 < ((k + 1) * y.d : Nat)

end Sys2Proof.Machine

/-- R116, R72, R73: FADD, FSUB, FMUL and FDIV give the exact value rounded once in the mode in force, with NaN, infinities, signed zeros,
invalid operations and division by zero as IEEE 754 has them. FFMA gives the exact product and then the exact sum with c rounded once, by
the same cases: the NaN for a NaN operand and, with IV whatever c holds, for an infinity times zero. -/
def Obligations.FloatArithmetic : Prop :=
  LaneOp 0x28 Instr.fadd (fun c k v fl => c.ifmt.isFlt = true → SumIs c.pin c.mode (c.fa k) (c.fb k) v fl)
    ∧ LaneOp 0x29 Instr.fsub (fun c k v fl => c.ifmt.isFlt = true → SumIs c.pin c.mode (c.fa k) (negFV (c.fb k)) v fl)
    ∧ LaneOp 0x2A Instr.fmul (fun c k v fl => c.ifmt.isFlt = true → ProductIs c.pin c.mode (c.fa k) (c.fb k) v fl)
    ∧ LaneOp 0x31 Instr.fdiv (fun c k v fl => c.ifmt.isFlt = true → QuotientIs c.pin c.mode (c.fa k) (c.fb k) v fl)
    ∧ LaneOp 0x2B Instr.ffma (fun c k v fl => c.ifmt.isFlt = true → SumIs c.pin c.mode (productOf (c.fa k) (c.fb k)) (c.fc k) v fl)

/-- R116, R117: FSQRT and the functions FRCP to FSIGM at the special inputs of the table; FSQRT and FRSQ of a positive finite number are the
exact root rounded once, FRCP of a finite number 1 ÷ a rounded; FEXP2 of an integer is its power of two, and FLOG2 of a power of two, above
or below 1, its exponent; FEXP2 of any other finite number, FTANH and FSIGM of every finite number set NX. The other values come from the
enclosure of log 11 and are not stated. Readings of the model's own: log 11. -/
def Obligations.FloatFunctions : Prop :=
  FloatFun 0x32 Instr.fsqrt (fun p m x v fl =>
      (x = .inf true → IsNan p true v fl) ∧ (∀ q, x = .fin q → q.n < 0 → IsNan p true v fl)
        ∧ (∀ q : Q, x = .fin q → 0 < q.n → RootRounds p m q.n.natAbs q.d v fl)
        ∧ (∀ s, x = .zero s → IsZero p s v fl) ∧ (x = .inf false → IsInf p false v fl))
    ∧ FloatFun 0x33 Instr.frcp (fun p m x v fl =>
        (∀ s, x = .inf s → IsZero p s v fl) ∧ (∀ s, x = .zero s → v = p.withSign s p.inf ∧ fl = flDZ)
          ∧ (∀ q, x = .fin q → Rounds p m false (if q.n < 0 then -(q.d : Int) else q.d) q.n.natAbs v fl))
    ∧ FloatFun 0x34 Instr.frsq (fun p m x v fl =>
        (x = .inf true → IsNan p true v fl) ∧ (∀ q, x = .fin q → q.n < 0 → IsNan p true v fl)
          ∧ (∀ q : Q, x = .fin q → 0 < q.n → RootRounds p m q.d q.n.natAbs v fl)
          ∧ (∀ s, x = .zero s → v = p.withSign s p.inf ∧ fl = flDZ) ∧ (x = .inf false → IsZero p false v fl))
    ∧ FloatFun 0x35 Instr.fexp2 (fun p m x v fl =>
        (x = .inf true → IsZero p false v fl) ∧ (∀ s, x = .zero s → Rounds p m false 1 1 v fl) ∧ (x = .inf false → IsInf p false v fl)
          ∧ (∀ q : Q, x = .fin q → q.n % q.d ≠ 0 → Inexact fl)
          ∧ (∀ q : Q, x = .fin q → q.n % q.d = 0 →
              Rounds p m false (pow2 (q.n / q.d)).n (pow2 (q.n / q.d)).d v fl))
    ∧ FloatFun 0x36 Instr.flog2 (fun p m x v fl =>
        (x = .inf true → IsNan p true v fl) ∧ (∀ q, x = .fin q → q.n < 0 → IsNan p true v fl)
          ∧ (∀ s, x = .zero s → v = p.withSign true p.inf ∧ fl = flDZ) ∧ (x = .inf false → IsInf p false v fl)
          ∧ (∀ q : Q, ∀ n : Nat, x = .fin q → 0 < q.d → q.n = q.d * 2 ^ n → Rounds p m false n 1 v fl)
          ∧ (∀ q : Q, ∀ n : Nat, x = .fin q → 0 < q.d → q.n * 2 ^ n = q.d → Rounds p m false (-n) 1 v fl))
    ∧ FloatFun 0x37 Instr.ftanh (fun p m x v fl =>
        (∀ s, x = .inf s → Rounds p m false (if s then -1 else 1) 1 v fl) ∧ (∀ s, x = .zero s → IsZero p s v fl)
          ∧ (∀ q, x = .fin q → Inexact fl))
    ∧ FloatFun 0x38 Instr.fsigm (fun p m x v fl =>
        (x = .inf true → IsZero p false v fl) ∧ (∀ s, x = .zero s → Rounds p m false 1 2 v fl)
          ∧ (x = .inf false → Rounds p m false 1 1 v fl) ∧ (∀ q, x = .fin q → Inexact fl))

/-- R118, R119, R120: FMIN and FMAX never round and prefer a number to a NaN; FABS and FNEG act on the sign bit of F16, BF16 and F32; FCMP gives
1, 2, 4 or 8; FCLASS gives the class number. -/
def Obligations.FloatSelection : Prop :=
  LaneOp 0x2C Instr.fmin (fun c k => PickIs c.pin false (c.va k) (c.vb k))
    ∧ LaneOp 0x2D Instr.fmax (fun c k => PickIs c.pin true (c.va k) (c.vb k))
    ∧ LaneOp 0x2E Instr.fabs (fun c k v fl => c.ifmt.isFlt = true →
        (∀ g, c.fa k = .nan g → IsNan c.pin g v fl)
          ∧ ((c.fa k).isNan = false → fl = 0 ∧ v.toNat = (c.va k).toNat % 2 ^ (c.w - 1)))
    ∧ LaneOp 0x2F Instr.fneg (fun c k v fl => c.ifmt.isFlt = true →
        (∀ g, c.fa k = .nan g → IsNan c.pin g v fl)
          ∧ ((c.fa k).isNan = false → fl = 0 ∧ v.toNat = ((c.va k).toNat + 2 ^ (c.w - 1)) % 2 ^ c.w))
    ∧ LaneOp 0x30 Instr.fcmp (fun c k v fl => fl = (if ((c.fa k).isSig || (c.fb k).isSig) = true then flIV else 0)
        ∧ v = if (c.fa k).isNan = true ∨ (c.fb k).isNan = true then 8
              else if ltFV (c.fa k) (c.fb k) then 1 else if ltFV (c.fb k) (c.fa k) then 4 else 2)
    ∧ LaneOp 0x39 Instr.fclass (fun c k v fl => c.ifmt.isFlt = true → fl = 0 ∧
        (∀ g, c.fa k = .nan g → v = 0) ∧ (∀ s, c.fa k = .inf s → v = if s then 1 else 8) ∧ (∀ s, c.fa k = .zero s → v = if s then 4 else 5)
          ∧ (∀ q : Q, c.fa k = .fin q →
              let tiny := decide ((c.va k).toNat % 2 ^ (c.w - 1) < 2 ^ c.pin.t)
              v = if q.n < 0 then (if tiny then 3 else 2) else (if tiny then 6 else 7)))

/-! ## Conversions -/

namespace Sys2Proof.Machine

/-- The integer that a mode selects for n/d (R84); SR is not among them. -/
def nearInt (m : Round) (n : Int) (d : Nat) : Int :=
  match m with
  | .rtz => n.tdiv d
  | .rdn => n / d
  | .rup => -(-n / d)
  | _ =>
    let lo := n / d
    let r := n - lo * d
    if 2 * r < d ∨ (2 * r = d ∧ lo % 2 = 0) then lo else lo + 1

/-- The invalid value of R95. -/
def IsInvalid (fo : Fmt) (v : DWord) : Prop := v.toNat = if fo.signed then 2 ^ (fo.width - 1) else 0

/-- A value of an integer format, in its range. -/
def Holds (fo : Fmt) (x : Int) (v : DWord) : Prop := v.toNat < 2 ^ fo.width ∧ readInt fo v = x

/-- The flags of n/d rounded to r in an integer format: NX where inexact, with UF where r is then 0 (R86). -/
def InexactTo (n : Int) (d : Nat) (r : Int) : Flags := if n % d = 0 then 0 else if r = 0 then flUF ||| flNX else flNX

/-- The greatest finite value of a format with a sign, as `.SAT` gives it for an overflow and an infinity (R61, R85, R122). -/
def IsMaxFinite (p : FP) (neg : Bool) (v : DWord) (fl : Flags) : Prop := v = p.withSign neg p.maxFin ∧ fl = flSAT ||| flNX

/-- One xorshift step of R87. -/
def xorshift (x : Word) : Word :=
  let y := x ^^^ (x <<< 13)
  let z := y ^^^ (y >>> 17)
  z ^^^ (z <<< 5)

/-- SR of a finite value toward an 8-bit integer (R87): an exact one leaves the state, any other steps it once and takes the
greater magnitude where the new state lies below ⌊fraction × 2^32⌋. `lim` says what follows the rounding. -/
def StochasticInt (q : Q) (sr sr' : Word) (lim : Int → Prop) : Prop :=
  let n := q.n.natAbs
  let sgn : Nat → Int := fun j => if q.n < 0 then -(j : Int) else j
  if n % q.d = 0 then sr' = sr ∧ lim (sgn (n / q.d))
  else sr' = xorshift sr ∧ lim (sgn (n / q.d + if sr'.toNat < n % q.d * 2 ^ 32 / q.d then 1 else 0))

/-- n/d rounded to an integer in a mode, SR with its state (R84, R87); `lim` says what follows the rounding. -/
def RoundsToInt (m : Round) (sr sr' : Word) (n : Int) (d : Nat) (lim : Int → Prop) : Prop :=
  if m = .sr then StochasticInt ⟨n, d⟩ sr sr' lim else sr' = sr ∧ lim (nearInt m n d)

/-- A value times 2^k brought into an integer format or FX64 (R95, R121): rounded, or the invalid value with IV, or under `.SAT` the
bound. -/
def ToIntIs (fo : Fmt) (m : Round) (sat : Bool) (k : Nat) (x : FV) (sr : Word) (v : DWord) (fl : Flags) (sr' : Word) : Prop :=
  match x with
  | .nan _ => (fl = flIV ∧ if sat then v = 0 else IsInvalid fo v) ∧ sr' = sr
  | .inf s => (if sat then Holds fo (if s then intMin fo else intMax fo) v ∧ fl = flSAT ||| flNX else IsInvalid fo v ∧ fl = flIV) ∧ sr' = sr
  | .zero _ => (v = 0 ∧ fl = 0) ∧ sr' = sr
  | .fin q => RoundsToInt m sr sr' (q.n * 2 ^ k) q.d fun r =>
      if intMin fo ≤ r ∧ r ≤ intMax fo then Holds fo r v ∧ fl = InexactTo (q.n * 2 ^ k) q.d r
      else if sat then Holds fo (if r < intMin fo then intMin fo else intMax fo) v ∧ fl = flSAT ||| flNX
      else IsInvalid fo v ∧ fl = flIV

/-- n/d rounded once into a float format in a mode (R84-R87), without or under the `.SAT` column of R85: there an overflow gives the greatest
finite value of its sign and a negative value that an unsigned variant cannot hold gives 0, both with SAT and NX. -/
def RoundsIn (p : FP) (m : Round) (sat : Bool) (n : Int) (d : Nat) (sr : Word) (v : DWord) (fl : Flags) (sr' : Word) : Prop :=
  let r := roundFin p m false false sr ⟨n, d⟩
  if n = 0 then IsZero p false v fl ∧ sr' = sr
  else sr' = r.sr ∧
    if sat = true ∧ r.fl &&& flOF ≠ 0 then IsMaxFinite p (decide (n < 0)) v fl
    else if sat = true ∧ r.fl = flIV then v = 0 ∧ fl = flSAT ||| flNX
    else v = r.bits ∧ fl = r.fl

/-- An infinity brought into a float format (R85, R121). -/
def InfIn (p : FP) (sat s : Bool) (v : DWord) (fl : Flags) : Prop :=
  if s && !p.signed then (if sat then v = 0 ∧ fl = flSAT ||| flNX else IsNan p true v fl)
  else if sat then IsMaxFinite p s v fl
  else if p.hasInf then IsInf p s v fl else IsNan p true v fl

/-- An integer brought into another integer format (R121): its low bits, SAT where the value changes; under `.SAT` clamped. -/
def MoveIs (fo : Fmt) (sat : Bool) (x : Int) (v : DWord) (fl : Flags) : Prop :=
  if sat then ClampsTo fo x v fl
  else v.toNat < 2 ^ fo.width ∧ ((v.toNat : Int) - x) % 2 ^ fo.width = 0 ∧ fl = if readInt fo v = x then 0 else flSAT

/-- The mode a conversion rounds in: SR acts toward an 8-bit target alone, elsewhere it is RNE (R84). -/
def convMode (m : Round) (fo : Fmt) : Round := if m = .sr ∧ fo.width ≠ 8 then .rne else m

/-- CVT by the classes of its two formats (R121, R85, R95) in a mode, with the SR state around it. An FX64 number n stands for n × 2^-32. -/
def ConvIs (c : FCtx) (m : Round) (sat : Bool) (k : Nat) (sr : Word) (v : DWord) (fl : Flags) (sr' : Word) : Prop :=
  (c.ifmt = c.ofmt → c.ifmt.isMx = false → sr' = sr ∧
      (c.ifmt.isFltB = false ∨ ((c.fa k).isNan = false ∧ (sat = false ∨ ∀ s, c.fa k ≠ .inf s)) → v = c.va k ∧ fl = 0)
        ∧ (c.ifmt.isFltB = true → sat = true → ∀ s, c.fa k = .inf s → IsMaxFinite c.pout s v fl)
        ∧ (c.ifmt.isFltB = true → ∀ g, c.fa k = .nan g → IsNan c.pin g v fl))
    ∧ (c.ifmt ≠ c.ofmt → c.ifmt.isInt = true → c.ofmt.isInt = true → MoveIs c.ofmt sat (c.ia k) v fl ∧ sr' = sr)
    ∧ (c.ifmt.isInt = true → c.ofmt = .fx64 → MoveIs c.ofmt sat (c.ia k * 2 ^ 32) v fl ∧ sr' = sr)
    ∧ (c.ifmt = .fx64 → c.ofmt.isInt = true → ToIntIs c.ofmt m sat 0 (intFV (c.ia k) 32) sr v fl sr')
    ∧ (c.ifmt.isFltB = true → c.ofmt.isInt = true → ToIntIs c.ofmt m sat 0 (c.fa k) sr v fl sr')
    ∧ (c.ifmt.isFltB = true → c.ofmt = .fx64 → ToIntIs c.ofmt m sat 32 (c.fa k) sr v fl sr')
    ∧ (c.ifmt.isInt = true → c.ofmt.isFltB = true → RoundsIn c.pout m sat (c.ia k) 1 sr v fl sr')
    ∧ (c.ifmt = .fx64 → c.ofmt.isFltB = true → RoundsIn c.pout m sat (c.ia k) (2 ^ 32) sr v fl sr')
    ∧ (c.ifmt.isFltB = true → c.ofmt.isFltB = true → c.ifmt ≠ c.ofmt →
        (∀ g, c.fa k = .nan g → IsNan c.pout g v fl ∧ sr' = sr) ∧ (∀ s, c.fa k = .inf s → InfIn c.pout sat s v fl ∧ sr' = sr)
          ∧ (∀ s, c.fa k = .zero s → IsZero c.pout s v fl ∧ sr' = sr)
          ∧ (∀ q, c.fa k = .fin q → RoundsIn c.pout m sat q.n q.d sr v fl sr'))

/-- QUANT of a value, the exact product (R122): brought into I8 or N8 clamped, or into B8 under the `.SAT` column. -/
def QuantIs (c : FCtx) (m : Round) (x : FV) (sr : Word) (v : DWord) (fl : Flags) (sr' : Word) : Prop :=
  (c.ofmt = .i8 ∨ c.ofmt = .n8 → ToIntIs c.ofmt m true 0 x sr v fl sr')
    ∧ (c.ofmt = .b8 →
        match x with
        | .nan g => IsNan c.pout g v fl ∧ sr' = sr
        | .inf s => InfIn c.pout true s v fl ∧ sr' = sr
        | .zero s => IsZero c.pout s v fl ∧ sr' = sr
        | .fin q => RoundsIn c.pout m true q.n q.d sr v fl sr')

end Sys2Proof.Machine

/-- R61, R85, R87, R95, R109, R112, R121: the saturating forms clamp the exact result to the format's range and set SAT where they clamp;
SHL.SAT clamps a × 2^s for any s. CVT, CVT.SAT, CVT.N and CVT.S convert by the classes of the two formats, integers, FX64 and floats with
B8: an integer moves by its low bits, a number is rounded once in the mode, and what an integer format cannot hold is the invalid value;
under .SAT each target is clamped to its range, an overflow and an infinity to the greatest finite value of a float, with SAT and NX. CVT.N
takes RNE toward an 8-bit target; the SR state steps once for each inexact valid lane toward 8 bits. Readings of the model's own: log 20. -/
def Obligations.SaturationAndConversion : Prop :=
  (
  LaneOp 0x1A Instr.addSat (fun c k => ClampsTo c.ifmt (c.ia k + c.ib k))
    ∧ LaneOp 0x1B Instr.subSat (fun c k => ClampsTo c.ifmt (c.ia k - c.ib k))
    ∧ LaneOp 0x1C Instr.mulSat (fun c k => ClampsTo c.ifmt (c.ia k * c.ib k))
    ∧ LaneOp 0x1D Instr.madSat (fun c k => ClampsTo c.ifmt (c.ia k * c.ib k + c.ic k))
    ∧ LaneOp 0x1E Instr.negSat (fun c k => ClampsTo c.ifmt (0 - c.ia k))
    ∧ LaneOp 0x1F Instr.absSat (fun c k => ClampsTo c.ifmt (if c.ia k < 0 then -c.ia k else c.ia k))
    ∧ LaneOp 0x20 Instr.shlSat (fun c k => ClampsTo c.ifmt (c.ia k * 2 ^ c.shift k)))
    ∧ (
  LaneOpSR 0x40 Instr.cvt (fun c => ConvIs c (convMode c.cvtMode c.ofmt) false)
    ∧ LaneOpSR 0x41 Instr.cvtSat (fun c => ConvIs c (convMode c.cvtMode c.ofmt) true)
    ∧ LaneOpSR 0x43 Instr.cvtN (fun c => ConvIs c (if c.ofmt.width = 8 then .rne else convMode c.cvtMode c.ofmt) false)
    ∧ LaneOpSR 0x42 Instr.cvtS (fun c => ConvIs c (convMode .sr c.ofmt) false))

/-- R122, R61, R85, R125: QUANT and QUANT.N form the exact product, round it in their mode and clamp it into an I8 or N8 output, or into a B8
one under the .SAT column, an infinity to the bound of its sign; a NaN gives 0 and IV, or B8's NaN; QUANT.S draws on the SR state. KEYX
gives the unsigned key of the same width, without flags; unsigned comparison of keys orders the inputs by value, in every format that KEYX
accepts. Readings of the model's own: log 20. -/
def Obligations.QuantAndKeys : Prop :=
  (
  LaneOpSR 0x44 Instr.quant (fun c k => QuantIs c c.cvtMode (productOf (c.fa k) (c.fb k)))
    ∧ LaneOpSR 0x46 Instr.quantN (fun c k => QuantIs c .rne (productOf (c.fa k) (c.fb k)))
    ∧ LaneOpSR 0x45 Instr.quantS (fun c k => QuantIs c .sr (productOf (c.fa k) (c.fb k)))
    ∧ LaneOp 0x4B Instr.keyx (fun c k v fl => fl = 0
        ∧ (c.ifmt.isNat = true → v = c.va k)
        ∧ (c.ifmt.isInt = true → c.ifmt.isNat = false → v.toNat = ((c.va k).toNat + 2 ^ (c.w - 1)) % 2 ^ c.w)
        ∧ (c.ifmt.isFlt = true → v.toNat = if (c.fa k).isNan = true then 2 ^ c.w - 1
            else if (c.va k).toNat < 2 ^ (c.w - 1) then (c.va k).toNat + 2 ^ (c.w - 1) else 2 ^ c.w - 1 - (c.va k).toNat)
        ∧ (c.ifmt = .b8 → c.pin.signed = false → v = c.va k)
        ∧ (c.ifmt = .b8 → c.pin.signed = true → v.toNat = if (c.va k).toNat = 0x80 then 0xFF
            else if (c.va k).toNat < 0x80 then (c.va k).toNat + 0x7F else 0xFF - (c.va k).toNat)))
    ∧ (
  (∀ (f : Fmt) (m : Byte) (x y : DWord), f.isInt = true → readInt f x < readInt f y → (keyOf f m x).toNat < (keyOf f m y).toNat)
    ∧ (∀ (f : Fmt) (m : Byte) (x y : DWord), f.isFltB = true →
        (fread (fparams f m) x).isNan = false → (fread (fparams f m) y).isNan = false →
        ltTotal (fread (fparams f m) x) (fread (fparams f m) y) = true → (keyOf f m x).toNat < (keyOf f m y).toNat)
    ∧ (∀ (f : Fmt) (m : Byte) (x y : DWord), f.isFltB = true →
        (fread (fparams f m) x).isNan = true → (fread (fparams f m) y).isNan = false → (keyOf f m y).toNat < (keyOf f m x).toNat))

/-! ## Vectors, MX runs, steering -/

namespace Sys2Proof.Machine

/-- Every ready firing of a form that meets `P` completes with its tokens sent at once: the fabric with the form's own writes,
the flags and the outputs are as `R` says. -/
def SendOp (op : Nat) (mk : BitVec 5 → BitVec 5 → BitVec 5 → BitVec 5 → BitVec 4 → Instr) (P : FCtx → Prop)
    (R : FCtx → Fabric → Flags → List Out → Prop) : Prop :=
  ∀ (s : State) (a b d e : BitVec 5) (t : BitVec 4), Ready (firing s op a b d e t) → P (firing s op a b d e t) →
    ∃ f fl outs, R (firing s op a b d e t) f fl outs ∧ Sends (mk a b d e t) s (firing s op a b d e t) f fl outs

/-- The valid lanes of a firing. -/
def FCtx.onLanes (c : FCtx) : List Nat := c.lanes.filter c.on

/-- A value and its validity in a lane of a run. -/
def LaneIs (valid : BitVec 32) (vals : List DWord) (k : Nat) (x : Option DWord) : Prop :=
  match x with
  | some v => bit valid k = true ∧ vals[k]? = some v
  | none => bit valid k = false ∧ vals[k]? = some 0

/-- The lanes of b whose raw bits are not zero (R132, R143). -/
def IsMask (c : FCtx) (m : BitVec 32) : Prop := ∀ k : Nat, bit m k = (decide (k < c.len) && decide (c.vb k ≠ 0))

/-- The scale tokens of a run's blocks, in ascending order (R165, R81): KIND at bit 9, LEN at bit 8, the code below. -/
def FCtx.scaleRun (c : FCtx) (dst n : Nat) (kind : Bool) (codes : List Nat) : List Out :=
  codes.zipIdx.map fun p =>
    { c.run dst 0 [] with
      f0 := some (c.base + n * p.2)
      scale := some (BitVec.ofNat 16 (kind.toNat * 512 + (if n = 32 then 256 else 0) + p.1)) }

/-- ⌊log2 q⌋ of a positive number. -/
def FloorLog2 (q : Q) (l : Int) : Prop := q.lt (pow2 l) = false ∧ q.lt (pow2 (l + 1)) = true

/-- One valid lane of an ordinary block of MXPACK under X (R123): a ÷ 2^X rounded in the element format and clamped; an MXI8 code is 64 times
that value. -/
def FCtx.PacksTo (c : FCtx) (m : Round) (x : Int) (k : Nat) (sr : Word) (v : DWord) (fl : Flags) (sr' : Word) : Prop :=
  match c.fa k with
  | .fin q =>
    if c.ofmt = .mxi8 then RoundsToInt m sr sr' (q.n * (pow2 (-x)).n * 64) (q.d * (pow2 (-x)).d) fun r =>
        Holds .i8 (max (-128) (min 127 r)) v
          ∧ fl = if -128 ≤ r ∧ r ≤ 127 then InexactTo (q.n * (pow2 (-x)).n * 64) (q.d * (pow2 (-x)).d) r else flSAT ||| flNX
    else RoundsIn c.pout m true (q.n * (pow2 (-x)).n) (q.d * (pow2 (-x)).d) sr v fl sr'
  | _ => v = 0 ∧ fl = 0 ∧ sr' = sr

/-- EMAX of the output's element format: ⌊log2 G⌋ of its greatest finite value G (R123). -/
def FCtx.EmaxIs (c : FCtx) (e : Int) : Prop := if c.ofmt = .mxi8 then e = 0 else FloorLog2 (c.pout.magVal c.pout.maxFin) e

/-- The greatest magnitude among the valid lanes of a block that are not zero (R123). -/
def FCtx.GreatestOf (c : FCtx) (here : List Nat) (q : Q) : Prop :=
  (∃ i ∈ here, c.on i = true ∧ ∃ r, c.fa i = .fin r ∧ q = ⟨r.n.natAbs, r.d⟩)
    ∧ ∀ i ∈ here, ∀ r : Q, c.on i = true → c.fa i = .fin r → q.lt ⟨r.n.natAbs, r.d⟩ = false

/-- What a node of R100 gives of its two inputs: an empty one passes the other unchanged; of two values `g` says what the node gives
and which flags it raises. -/
def JoinIs (g : DWord → DWord → DWord → Flags → Prop) (x : Option DWord) (fx : Flags) (y : Option DWord) (fy : Flags)
    (r : Option DWord) (fl : Flags) : Prop :=
  match x, y with
  | none, y => r = y ∧ fl = fy
  | some u, none => r = some u ∧ fl = fx
  | some u, some v => ∃ w fw, g u v w fw ∧ r = some w ∧ fl = fw ||| fx ||| fy

/-- The node of R100 over the 2^h lanes from lane i on: its inputs are the nodes of the two halves. -/
def TreeIs (g : DWord → DWord → DWord → Flags → Prop) (leaf : Nat → Option DWord) : Nat → Nat → Option DWord → Flags → Prop
  | 0, i, r, fl => r = leaf i ∧ fl = 0
  | h + 1, i, r, fl => ∃ x fx y fy, TreeIs g leaf h i x fx ∧ TreeIs g leaf h (i + 2 ^ h) y fy ∧ JoinIs g x fx y fy r fl

/-- The sum of the n lanes from lane i on (R101), n below 2^h: the nodes of the powers of two that make up n, the largest first, added to
`acc` from left to right. -/
def PrefixIs (g : DWord → DWord → DWord → Flags → Prop) (leaf : Nat → Option DWord) :
    Nat → Nat → Nat → Option DWord → Flags → Option DWord → Flags → Prop
  | 0, _, _, acc, fa, r, fl => r = acc ∧ fl = fa
  | h + 1, i, n, acc, fa, r, fl =>
    if 2 ^ h ≤ n then ∃ x fx m fm, TreeIs g leaf h i x fx ∧ JoinIs g acc fa x fx m fm ∧ PrefixIs g leaf h (i + 2 ^ h) (n - 2 ^ h) m fm r fl
    else PrefixIs g leaf h i n acc fa r fl

/-- The leaves of a firing's tree: the valid lanes; every other lane is empty (R100). -/
def FCtx.leaf (c : FCtx) (k : Nat) : Option DWord := if k < c.len ∧ c.on k = true then some (c.va k) else none

/-- A node of VSUM: a + b rounded once in the slot's format and mode, SR taken as RNE, or wrapped (R100). -/
def FCtx.addsTo (c : FCtx) (u v w : DWord) (fw : Flags) : Prop :=
  (c.ifmt.isFlt = true → SumIs c.pin c.mode (fread c.pin u) (fread c.pin v) w fw)
    ∧ (c.ifmt.isIntX = true → WrapsTo c.ifmt (readInt c.ifmt u + readInt c.ifmt v) w fw)

/-- A node of VMAX or VMIN: the greater or the lesser input, as R118 and R109 compare (R126). -/
def FCtx.picks (c : FCtx) (isMax : Bool) (u v w : DWord) (fw : Flags) : Prop :=
  (c.ifmt.isFltB = true → PickIs c.pin isMax u v w fw)
    ∧ (c.ifmt.isIntX = true → fw = 0
        ∧ w = if (if isMax then readInt c.ifmt u < readInt c.ifmt v else readInt c.ifmt v < readInt c.ifmt u) then v else u)

/-- A scalar for both destinations, with F0 as the firing tag holds it (R106). -/
def FCtx.atF0 (c : FCtx) (valid : Bool) (v : DWord) : List Out :=
  [{ c.scalar c.d valid v with f0 := some c.base }, { c.scalar c.e valid v with f0 := some c.base }]

/-- A reduction over the tree of R100, 2^h the least power of two that is not below the run's length: the root as a scalar for both
destinations, +0 with its valid bit clear where every lane is invalid (R106, R126). -/
def Reduces (g : FCtx → DWord → DWord → DWord → Flags → Prop) (c : FCtx) (f : Fabric) (fl : Flags) (outs : List Out) : Prop :=
  f = c.f ∧ ∃ v : DWord, outs = c.atF0 (!c.onLanes.isEmpty) v
    ∧ (c.onLanes = [] → v = 0 ∧ fl = 0)
    ∧ ∀ h : Nat, c.onLanes ≠ [] → c.len ≤ 2 ^ h → h = 0 ∨ 2 ^ (h - 1) < c.len → TreeIs (g c) c.leaf h 0 (some v) fl

end Sys2Proof.Machine

/-- R100, R126, R128: VSUM reduces the valid lanes over the fixed tree, each node rounded once in a float format and wrapped in an integer
format; VMAX and VMIN take the greater and the lesser input at each node; an empty root is +0 with its valid bit clear. VSCAN gives each
valid lane k the sum of lanes 0 to k, added left to right from the nodes of the powers of two that make up k + 1, the largest first. -/
def Obligations.VectorSums : Prop :=
  SendOp 0x50 Instr.vsum (fun _ => True) (Reduces FCtx.addsTo)
    ∧ SendOp 0x51 Instr.vmax (fun _ => True) (Reduces fun c => c.picks true)
    ∧ SendOp 0x52 Instr.vmin (fun _ => True) (Reduces fun c => c.picks false)
    ∧ LaneOp 0x53 Instr.vscan (fun c k v fl => PrefixIs c.addsTo c.leaf 6 0 (k + 1) none 0 (some v) fl)

/-- R101: with every lane valid and L a power of two, lane L - 1 of VSCAN equals VSUM bit for bit. -/
def Obligations.ScanEndsInSum : Prop :=
  ∀ (c : FCtx) (h : Nat), c.len = 2 ^ h → h ≤ 5 → (∀ k, k < c.len → c.on k = true) →
    prefixNode c.sumNode (treeLevels c.sumNode (treeHeight c.len) c.leaves) (c.len - 1)
      = ((treeLevels c.sumNode (treeHeight c.len) c.leaves).getLastD []).headD none

/-- R115, R129 to R132: SEL, VPERM, VSPLAT and VMASK move lanes under validities of their own; VPACK and VUNPK do so where the slot keeps one
integer format, in which no lane changes. VSPLAT sends its run where its length is in range. -/
def Obligations.VectorMoves : Prop :=
  SendOp 0x19 Instr.sel (fun _ => True) (fun c f fl outs => f = c.f ∧ fl = 0 ∧ ∃ valid vals, outs = c.both valid vals ∧ vals.length = c.len
      ∧ ∀ k, k < c.len → k < 32 →
          bit valid k = (c.sideValid c.a k || c.sideValid c.b k)
            ∧ vals[k]? = some (if c.sideValid c.a k then c.va k else if c.sideValid c.b k then c.vb k else c.va k))
    ∧ SendOp 0x54 Instr.vperm (fun _ => True) (fun c f fl outs => f = c.f ∧ fl = 0 ∧ ∃ valid vals, outs = c.both valid vals ∧ vals.length = c.len
      ∧ ∀ k, k < c.len → k < 32 →
          LaneIs valid vals k (if c.sideValid c.b k = true ∧ (c.vb k).toNat % 32 < c.len ∧ c.sideValid c.a ((c.vb k).toNat % 32) = true
            then some (c.va ((c.vb k).toNat % 32)) else none))
    ∧ SendOp 0x55 Instr.vsplat (fun c => (∀ x, c.tok c.a = some x → x.vec = false) ∧ ∃ n : Nat, c.intVal c.b = some (n : Int) ∧ 1 ≤ n ∧ n ≤ 32
          ∧ n * c.ofmt.width ≤ 1024 ∧ c.overF0 c.base n = false)
      (fun c f fl outs => f = c.f ∧ fl = 0 ∧ ∃ n : Nat, c.intVal c.b = some (n : Int) ∧ ∃ valid : BitVec 32,
          (∀ k, k < 32 → bit valid k = (decide (k < n) && c.sideValid c.a 0))
          ∧ outs = [{ c.run c.d valid (List.replicate n (c.va 0)) with vec := true, f0 := some c.base },
              { c.run c.e valid (List.replicate n (c.va 0)) with vec := true, f0 := some c.base }])
    ∧ SendOp 0x56 Instr.vpack (fun c => c.ifmt = c.ofmt ∧ c.ifmt.isInt = true) (fun c f fl outs => fl = 0 ∧ ∃ valid vals, outs = c.both valid vals
      ∧ vals.length = c.len ∧ f = c.f.modEl c.el (fun e => { e with srstate := c.elt.srstate })
      ∧ ∀ k, k < c.len → k < 32 → LaneIs valid vals k (((c.lanes.filter fun j => c.sideValid c.a j).map c.va)[k]?))
    ∧ SendOp 0x57 Instr.vunpk (fun c => c.ifmt = c.ofmt ∧ c.ifmt.isInt = true) (fun c f fl outs => fl = 0 ∧ ∃ valid vals, outs = c.both valid vals
      ∧ vals.length = c.len ∧ f = c.f.modEl c.el (fun e => { e with srstate := c.elt.srstate })
      ∧ ∀ k, k < c.len → k < 32 → LaneIs valid vals k (if c.sideValid c.b k = true ∧ c.vb k ≠ 0
          then ((c.lanes.filter fun j => c.sideValid c.a j).map c.va)[((List.range k).filter fun j => c.sideValid c.b j && decide (c.vb j ≠ 0)).length]?
          else none))
    ∧ SendOp 0x58 Instr.vmask (fun _ => True) (fun c f fl outs => f = c.f ∧ fl = 0 ∧ ∃ m, IsMask c m ∧ outs = c.both (c.valid &&& m) c.avals)

/-- R127: VCOUNT gives the number of valid lanes of its firing, from 0 to 32, as a scalar of the output format with its valid bit set. -/
def Obligations.ValidCount : Prop :=
  SendOp 0x59 Instr.vcount (fun _ => True) (fun c f fl outs => f = c.f ∧ fl = 0
    ∧ outs = c.atF0 true (w64 ((List.range 32).countP fun k => bit c.valid k)))

/-- R123, R124, R165, R174: MXPACK sends the packed run and one scale token a block: the all-zero and the NaN block as R123 gives them, any
other under X = clamp(⌊log2 M⌋ - EMAX, -126, 127), each valid lane rounded and clamped in turn; MXUNPK multiplies each element by its
block's scale; SCALE sends a run on with its scales. Readings of the model's own: log 20. -/
def Obligations.MxRuns : Prop :=
  (∀ (op : Nat) (mk : BitVec 5 → BitVec 5 → BitVec 5 → BitVec 5 → BitVec 4 → Instr) (mode : FCtx → Round),
      op = 0x47 ∧ mk = Instr.mxpack ∧ mode = FCtx.cvtMode ∨ op = 0x48 ∧ mk = Instr.mxpackS ∧ mode = (fun _ => .sr)
        ∨ op = 0x49 ∧ mk = Instr.mxpackN ∧ mode = (fun _ => .rne) →
      SendOp op mk (fun c => ∃ n : Nat, (n = 16 ∨ n = 32) ∧ c.intVal c.b = some (n : Int) ∧ c.base % n = 0 ∧ c.len % n = 0)
        (fun c f fl outs => ∃ (n : Nat) (elems : List DWord) (codes : List Nat) (fls : List Flags) (srs : List Word), c.intVal c.b = some (n : Int)
          ∧ f = c.f.modEl c.el (fun e => { e with srstate := srs.getD c.len 0 })
          ∧ fl = orFlags fls ∧ fls.length = c.len ∧ srs.length = c.len + 1 ∧ srs[0]? = some c.elt.srstate
          ∧ outs = c.run c.d c.valid elems :: c.scaleRun c.e n (decide (c.ofmt = .mxi8)) codes
          ∧ elems.length = c.len ∧ codes.length = c.len / n
          ∧ ∀ j, j < c.len / n →
              let here := (List.range n).map (n * j + ·)
              let bad := here.any fun k => c.on k && (c.fa k).special
              let flat := here.all fun k => !c.on k || (match c.fa k with | .zero _ => true | _ => false)
              let stays := fun k => elems[k]? = some 0 ∧ srs.getD (k + 1) 0 = srs.getD k 0
              (bad = true → codes[j]? = some 0xFF ∧ ∀ k ∈ here, stays k
                  ∧ fls[k]? = some (if (c.on k && (match c.fa k with | .inf _ => true | x => x.isSig)) = true then flIV else 0))
                ∧ (bad = false → flat = true → codes[j]? = some 0 ∧ ∀ k ∈ here, stays k ∧ fls[k]? = some 0)
                ∧ (bad = false → flat = false → ∃ (q : Q) (l e : Int), c.GreatestOf here q ∧ FloorLog2 q l ∧ c.EmaxIs e ∧
                    let x := max (-126) (min 127 (l - e))
                    codes[j]? = some (if (here.all fun k => decide (elems[k]? = some 0)) = true then 0 else (x + 127).toNat)
                      ∧ ∀ k ∈ here, if c.on k = true
                        then c.PacksTo (mode c) x k (srs.getD k 0) (elems.getD k 0) (fls.getD k 0) (srs.getD (k + 1) 0)
                        else stays k ∧ fls[k]? = some 0)))
    ∧ (∀ (s : State) (a d e : BitVec 5) (t : BitVec 4) (n : Nat) (codes : List Nat) (rest : List ScaleTok),
        Ready (firing s 0x4A a 0x1F d e t) → (firing s 0x4A a 0x1F d e t).takeScales = .ok (n, codes, rest) →
        (firing s 0x4A a 0x1F d e t).ofmt.isFlt = true →
        let c := firing s 0x4A a 0x1F d e t
        ∃ r : List (DWord × Flags), LanesAre c r (fun k v fl =>
            let code := codes.getD (k / n) 0
            (code = 0xFF → IsNan c.pout false v fl)
              ∧ (code = 0 → (readFV c.ifmt c.img.b8mode (c.va k)).isNan = false → IsZero c.pout false v fl)
              ∧ (∀ q, code ≠ 0 → code ≠ 0xFF → readFV c.ifmt c.img.b8mode (c.va k) = .fin q →
                  Rounds c.pout c.mode false (q.n * (pow2 ((code : Int) - 127)).n) (q.d * (pow2 ((code : Int) - 127)).d) v fl))
          ∧ Sends (.mxunpk a d e t) s c (s.fab.modEl c.el fun e => { e with scales := rest }) (orFlags (r.map (·.2))) (c.both c.valid (r.map (·.1))))
    ∧ SendOp 0x85 Instr.scale (fun c => c.ifmt.isMx = false) (fun c f fl outs => f = c.f ∧ fl = 0 ∧ outs = c.both c.valid c.avals)
    ∧ (∀ (s : State) (a b d e : BitVec 5) (t : BitVec 4) (n : Nat) (codes : List Nat) (rest : List ScaleTok),
        Ready (firing s 0x85 a b d e t) → (firing s 0x85 a b d e t).ifmt.isMx = true →
        (firing s 0x85 a b d e t).takeScales = .ok (n, codes, rest) →
        let c := firing s 0x85 a b d e t
        Sends (.scale a b d e t) s c (s.fab.modEl c.el fun e => { e with scales := rest }) 0
          (c.both c.valid c.avals ++ c.scaleRun c.d n (decide (c.ifmt = .mxi8)) codes ++ c.scaleRun c.e n (decide (c.ifmt = .mxi8)) codes))

/-- R143, R144, R145, R156, R155: SW and GATE steer by the lanes of b, MRG passes the token that came, FAN also sends to every entry that a bit
of b names, MOV copies, TRIG passes b under a's validity, ZIP pairs, EOS sends a marker, SINK sends nothing. Readings of the model's own:
log 21. -/
def Obligations.Steering : Prop :=
  SendOp 0x60 Instr.sw (fun _ => True) (fun c f fl outs => f = c.f ∧ fl = 0 ∧ ∃ m, IsMask c m
      ∧ outs = (if c.valid &&& m ≠ 0 ∨ c.valid = 0 then [c.run c.d (c.valid &&& m) c.avals] else [])
          ++ (if c.valid &&& ~~~m ≠ 0 then [c.run c.e (c.valid &&& ~~~m) c.avals] else []))
    ∧ SendOp 0x62 Instr.gate (fun _ => True) (fun c f fl outs => f = c.f ∧ fl = 0 ∧ ∃ m, IsMask c m
      ∧ outs = if c.valid &&& m ≠ 0 then c.both (c.valid &&& m) c.avals else [])
    ∧ SendOp 0x63 Instr.fan (fun c => (∀ j, j < 16 → (c.vb 0).getLsbD j = true → destKind (c.img.dest j) = 1) ∧ c.sendStop c.fanBits = none)
      (fun c f fl outs => f = c.f ∧ fl = 0 ∧ outs = c.both c.valid c.avals
        ++ ((List.range 16).filter fun j => (c.vb 0).getLsbD j).map fun j => c.run j c.valid c.avals)
    ∧ SendOp 0x64 Instr.mov (fun _ => True) (fun c f fl outs => f = c.f ∧ fl = 0 ∧ outs = c.both c.valid c.avals)
    ∧ SendOp 0x68 Instr.trig (fun _ => True) (fun c f fl outs => f = c.f ∧ fl = 0 ∧ ∃ v : BitVec 32,
        (∀ k, k < 32 → bit v k = (decide (k < c.len) && c.sideValid c.a k)) ∧ outs = c.both v (c.lanes.map c.vb))
    ∧ SendOp 0x7C Instr.eos (fun c => c.vb 0 = 0 ∨ c.vb 0 = 1) (fun c f fl outs => f = c.f ∧ fl = 0
        ∧ outs = [{ c.run c.d 0 [] with eos := (c.vb 0).toNat + 1, vec := false, f0 := some c.base },
            { c.run c.e 0 [] with eos := (c.vb 0).toNat + 1, vec := false, f0 := some c.base }])
    ∧ (∀ (s : State) (d e : BitVec 5) (t : BitVec 4), Ready (firing s 0x61 0 1 d e t) →
        let c := firing s 0x61 0 1 d e t
        Sends (.mrg d e t) s c s.fab 0 (c.both c.valid (if c.s.a.isSome then c.lanes.map c.va else c.lanes.map c.vb)))
    ∧ (∀ (s : State) (d e : BitVec 5) (t : BitVec 4), Ready (firing s 0x7D 0 1 d e t) →
        let c := firing s 0x7D 0 1 d e t
        Sends (.zip d e t) s c s.fab 0 [c.run c.d c.valid (c.lanes.map c.va), c.run c.e c.valid (c.lanes.map c.vb)])
    ∧ (∀ (s : State) (a b : BitVec 5) (t : BitVec 4), Ready (firing s 0x65 a b 0x1F 0x1F t) →
        Sends (.sink a b t) s (firing s 0x65 a b 0x1F 0x1F t) s.fab 0 [])

/-! ## Tags, loops, exits and waits -/

namespace Sys2Proof.Machine

/-- Instruction i completes at s as the firing c, its tokens under a tag of its own. -/
def SendsUnder (i : Instr) (s : State) (c : FCtx) (f : Fabric) (fl : Flags) (tag : DWord) (outs : List Out) : Prop :=
  exec i s = .next { s with fab := sent c f (fl ||| c.extFlags) tag outs }

/-- Everything but one element, the agenda and what the step itself counts is as it was. -/
def OnlyElement (el : Nat) (f u : Fabric) : Prop :=
  (∀ k, k ≠ el → u.el k = f.el k) ∧ u.blks = f.blks ∧ u.dies = f.dies ∧ u.lode = f.lode ∧ u.ports = f.ports ∧ u.launch = f.launch
    ∧ u.hostMem = f.hostMem ∧ u.rels = f.rels ∧ u.diePart = f.diePart ∧ u.stackPart = f.stackPart ∧ u.portPart = f.portPart
    ∧ u.pkg = f.pkg ∧ u.sigStat = f.sigStat ∧ u.sigMeas = f.sigMeas ∧ u.peers = f.peers ∧ u.sched = f.sched ∧ u.clock = f.clock

/-- The architectural registers and the memory of an element are as they were. -/
def SameRegs (e x : Element) : Prop :=
  x.mem = e.mem ∧ x.wins = e.wins ∧ x.gens = e.gens ∧ x.acc = e.acc ∧ x.hist = e.hist ∧ x.weights = e.weights ∧ x.sw = e.sw
    ∧ x.aflags = e.aflags ∧ x.aftrap = e.aftrap ∧ x.srstate = e.srstate ∧ x.framedir = e.framedir ∧ x.stray = e.stray ∧ x.badtok = e.badtok
    ∧ x.mismatch = e.mismatch ∧ x.lodeen0 = e.lodeen0 ∧ x.lodeen1 = e.lodeen1 ∧ x.selctl = e.selctl ∧ x.selk = e.selk ∧ x.selpfx = e.selpfx

/-- Bit i of a bitmap of 64-bit words in element memory. -/
def mapBit (m : Memory) (base i : Nat) : Bool := (m.word (base + 8 * (i / 64))).getLsbD (i % 64)

/-- The chunk of a loop header is in range (R148). -/
def ChunkOk (c : FCtx) : Prop := 1 ≤ (c.vb 0).toNat ∧ (c.vb 0).toNat ≤ 32 ∧ (c.vb 0).toNat * c.ofmt.width ≤ 1024

/-- A loop header waits for its level with its chunk and its iteration values (R148). -/
def LoopWaits (i : Instr) (s : State) (c : FCtx) (vs : List Nat) : Prop :=
  c.granted = true ∧ (∃ an, s.fab.anchorOf c.el = some an ∧ c.anchorMsg = [.levelCreditRequest an c.el c.id c.ctx (depth c.tag + 1)])
    ∧ Waits i s c s.fab 0 { c.pend with cnt := (c.vb 0).toNat, args := vs.map w64 }

/-- The first events that asking for a wave puts on the agenda (R253). -/
def waveMsg (f : Fabric) (el : Nat) : List Ev :=
  match f.anchorOf el with
  | none => []
  | some an => if f.agenda.contains (.regionWave an) then [] else [.regionWave an]

end Sys2Proof.Machine

/-- R137, R147: ENTER and SPAWN wait for the grant of a level and of a number; LEAVE and RETN send under the popped tag and return what they
held; TGET sends a field of the tag (its value is stated for integer outputs), TSET and RENM a's lanes under a tag with a field replaced.
Readings of the model's own: log 21. -/
def Obligations.TagForms : Prop :=
  (∀ (s : State) (a b d e : BitVec 5), Clear (firing s 0x70 a b d e 0) → HasPlace (firing s 0x70 a b d e 0) →
      let c := firing s 0x70 a b d e 0
      c.granted = true ∧ (∃ an, s.fab.anchorOf c.el = some an ∧ c.anchorMsg = [.levelCreditRequest an c.el c.id c.ctx (depth c.tag + 1)])
        ∧ Waits (.enter a b d e) s c s.fab 0 { c.pend with outs := c.both c.valid c.avals, b := c.vb 0 })
    ∧ (∀ (s : State) (a b d e : BitVec 5), Clear (firing s 0x72 a b d e 0) → HasPlace (firing s 0x72 a b d e 0) →
      let c := firing s 0x72 a b d e 0
      c.granted = true ∧ (∃ an, s.fab.anchorOf c.el = some an ∧ c.anchorMsg = [.poolRequest an c.el c.id c.ctx (c.img.width (depth c.tag + 1))])
        ∧ Waits (.spawn a b d e) s c s.fab 0
            { c.pend with outs := [c.run c.d c.valid c.avals, { c.scalar c.e true 0 with firing := true, pool := true }], b := c.vb 0 })
    ∧ (∀ (s : State) (a b d e : BitVec 5), Ready (firing s 0x71 a b d e 0) →
      let c := firing s 0x71 a b d e 0
      (∃ an, s.fab.anchorOf c.el = some an ∧ c.anchorMsg = [.levelCreditReturn ⟨an, c.el⟩ c.ctx (depth c.tag)])
        ∧ SendsUnder (.leave a b d e) s c s.fab 0 (c.img.pop c.tag) (c.both c.valid c.avals))
    ∧ (∀ (s : State) (a b d e : BitVec 5), Ready (firing s 0x73 a b d e 0) →
      let c := firing s 0x73 a b d e 0
      (∃ an, s.fab.anchorOf c.el = some an ∧ c.anchorMsg = [.poolReturn ⟨an, c.el⟩ c.ctx (c.img.f c.tag 0)])
        ∧ SendsUnder (.retn a b d e) s c s.fab 0 (c.img.pop c.tag) (c.both c.valid c.avals))
    ∧ (∀ (s : State) (a b d e : BitVec 5), Ready (firing s 0x74 a b d e 0) → (firing s 0x74 a b d e 0).vec = false →
      let c := firing s 0x74 a b d e 0
      let x := c.img.f c.tag ((c.vb 0).toNat % 16)
      ∃ v fl, SendsUnder (.tget a b d e) s c s.fab fl c.tag [c.scalar c.d true v, c.scalar c.e true v]
        ∧ (c.ofmt.isInt = true → v.toNat = x % 2 ^ c.ofmt.width ∧ fl = if readInt c.ofmt v = x then 0 else flSAT))
    ∧ (∀ (s : State) (a b d e : BitVec 5), Ready (firing s 0x75 a b d e 0) → (firing s 0x75 a b d e 0).vec = false →
      depth (firing s 0x75 a b d e 0).tag ≠ 0 →
      let c := firing s 0x75 a b d e 0
      SendsUnder (.tset a b d e) s c s.fab 0 (c.img.setF0 c.tag (c.vb 0).toNat) (c.both c.valid c.avals))
    ∧ (∀ (s : State) (a b d e : BitVec 5), Ready (firing s 0x76 a b d e 0) → (firing s 0x76 a b d e 0).vec = false →
      ((firing s 0x76 a b d e 0).vb 0).toNat % 16 < depth (firing s 0x76 a b d e 0).tag →
      let c := firing s 0x76 a b d e 0
      SendsUnder (.renm a b d e) s c s.fab 0 (c.img.setLevel c.tag (depth c.tag - (c.vb 0).toNat % 16) (c.va 0).toNat) (c.both c.valid c.avals))

/-- R148, R149, R150: a loop header waits for its level with its iteration values: LOOP's count up from 0 (as many as any field can number),
SLOOP's are the set bits of one bitmap or of two combined, STREE's the set leaf bits whose ancestors are set. Readings of the model's own:
log 21. -/
def Obligations.LoopHeaders : Prop :=
  (∀ (s : State) (a b d e : BitVec 5) (t : BitVec 4), Clear (firing s 0x78 a b d e t) → HasPlace (firing s 0x78 a b d e t) →
      ChunkOk (firing s 0x78 a b d e t) →
      LoopWaits (.loop a b d e t) s (firing s 0x78 a b d e t) (List.range (min (((firing s 0x78 a b d e t).va 0).toNat % 2 ^ 32) 65600)))
    ∧ (∀ (s : State) (a b d e : BitVec 5) (t : BitVec 4) (vs : List Nat), Clear (firing s 0x79 a b d e t) → HasPlace (firing s 0x79 a b d e t) →
      ChunkOk (firing s 0x79 a b d e t) → sloopVals (firing s 0x79 a b d e t) ((firing s 0x79 a b d e t).va 0).toNat = .ok vs →
      let c := firing s 0x79 a b d e t
      let m := c.elt.mem
      let w0 := m.word (c.va 0).toNat
      let w1 := m.word ((c.va 0).toNat + 8)
      let p := fun i => mapBit m (fld w0 18 0) i
      let q := fun i => mapBit m (fld w1 18 0) i
      LoopWaits (.sloop a b d e t) s c vs
        ∧ ∀ i, i ∈ vs ↔ i < fld w0 47 32 + 1 ∧ (match fld w0 63 62 with | 0 => p i | 1 => p i && q i | 2 => p i || q i | _ => p i && !q i) = true)
    ∧ (∀ (s : State) (a b d e : BitVec 5) (t : BitVec 4) (vs : List Nat), Clear (firing s 0x7A a b d e t) → HasPlace (firing s 0x7A a b d e t) →
      ChunkOk (firing s 0x7A a b d e t) → streeVals (firing s 0x7A a b d e t) ((firing s 0x7A a b d e t).va 0).toNat = .ok vs →
      vs.length ≤ 65600 →
      let c := firing s 0x7A a b d e t
      let m := c.elt.mem
      let w0 := m.word (c.va 0).toNat
      let w1 := m.word ((c.va 0).toNat + 8)
      LoopWaits (.stree a b d e t) s c vs
        ∧ ∀ i, i ∈ vs ↔ i < fld w0 49 32 + 1 ∧ mapBit m (fld w1 18 0) i = true
            ∧ (if fld w0 63 62 = 2 then mapBit m (fld w1 56 38) (i / 64) = true
               else mapBit m (fld w1 37 19) (i / 64) = true ∧ mapBit m (fld w1 56 38) (i / 4096) = true))

/-- R141, R143, R146, R160: EXIT places its value in its activation's entry, and where no masked store is incomplete the activation commits: the
token leaves by entry D(12 + j), the entry is freed, and no register or memory of the element changes. DELAY keeps a's tokens until its step
is due, or sends them at once for a delay of 0; CSW waits for its anchor. Readings of the model's own: logs 1, 2 and 21. -/
def Obligations.ExitsAndDelays : Prop :=
  (
  ∀ (s : State) (a b : BitVec 5) (t : BitVec 4),
    let c := firing s 0x66 a b 0x1F 0x1F t
    let j := (c.vb 0).toNat
    c.stops = none → c.elt.aftrap = 0 → c.granted = false → c.namesRoute = false → opensEntry c.img c.slot = true → bit c.img.stmask c.slot = false →
    c.elt.commitOf c.ctx c.tag = none → c.elt.commits.length < 32 → j < c.img.exits → destKind (c.img.dest (12 + j)) = 1 → c.sendStop [12 + j] = none → isFatik c.el = false →
    c.t ≠ 6 → c.extFlags = 0 →
    ∃ u, exec (.exit a b t) s = .next { s with fab := u } ∧ OnlyElement c.el s.fab u ∧ SameRegs c.elt (u.el c.el) ∧ (u.el c.el).commits = c.elt.commits
      ∧ u.agenda = s.fab.agenda ++ waveMsg s.fab c.el ++ c.anchorMsg
          ++ [.tokenArrive (entryTarget c.el (c.img.dest (12 + j))) (if bit (c.img.dest (12 + j)) 3 then .signal else if entryTarget c.el (c.img.dest (12 + j)) = c.el then .loopback else .packet)
                (entryTok (c.img.dest (12 + j)) c.tagNow (c.run (0x16 + j) c.valid c.avals))])
    ∧ (
  (∀ (s : State) (a b d e : BitVec 5) (t : BitVec 4), Ready (firing s 0x69 a b d e t) → (firing s 0x69 a b d e t).elt.delays.length < 16 →
      let c := firing s 0x69 a b d e t
      let n := min (c.vb 0).toNat 1023
      (n = 0 → Sends (.delay a b d e t) s c s.fab 0 (c.both c.valid c.avals))
        ∧ (n ≠ 0 → ∃ ds, Sends (.delay a b d e t) s c
              ((s.fab.modEl c.el fun e => { e with delays := ds, nextId := e.nextId + 1 }).post (.delayDue c.el)) 0 []
            ∧ ds.Perm ((s.fab.clock + n, { c.pend with tag := c.tagNow, outs := c.both c.valid c.avals, left := 1, masked := false }) :: c.elt.delays)))
    ∧ (∀ (s : State) (a b d e : BitVec 5) (t : BitVec 4) (an : Nat), Clear (firing s 0x67 a b d e t) → HasPlace (firing s 0x67 a b d e t) →
      s.fab.anchorOf (firing s 0x67 a b d e t).el = some an →
      let c := firing s 0x67 a b d e t
      Waits (.csw a b d e t) s c (s.fab.post (.cswRequest an c.el c.id)) 0
        { c.pend with left := 1, a := c.va 0, outs := [c.scalar c.d true 0, c.scalar c.e true 0] }))

/-! ## The matrix slab and radix selection -/

namespace Sys2Proof.Machine

/-- The ACC words with every computed group landed (R177). -/
def Element.landedAcc (e : Element) : Table Word := (landAll e).acc

/-- The value on DSTA of an ACCRD into F32: the first ACC word, a NaN as the one NaN (R175). -/
def FCtx.accFirst (c : FCtx) : DWord :=
  let x := (tget 0 c.elt.landedAcc (fld c.ctl 7 0 % 256)).setWidth 64
  if (fread f32P x).isNan then w64 f32P.nan else x

/-- ACC words that a count from a start names, modulo 256 (R175). -/
def accNames (start count i : Nat) : Bool := (List.range count).any fun k => decide ((start + k) % 256 = i)

/-- The MX formats and codes the slab takes (R164). -/
def SlabFmt (n : Nat) : Prop := n = 0 ∨ n = 8 ∨ n = 9 ∨ n = 11 ∨ n = 12 ∨ n = 13

/-- The histogram's total (R183). -/
def Element.histTotal (e : Element) : Nat := ((List.range 256).map fun i => (tget 0 e.hist i).toNat).sum

/-- P, DESC, SHORT and the prefix of the selection state (R180, R181). -/
def Element.selP (e : Element) : Nat := fld e.selctl 27 24
def Element.selDesc (e : Element) : Bool := bit e.selctl 31
def Element.selShort (e : Element) : Bool := bit e.selctl 30
/-- The top P bytes of a key of w bits, and the prefix (R181). -/
def topOf (w p x : Nat) : Nat := x / 2 ^ (w - 8 * p)
def Element.selPrefix (e : Element) : Nat := e.selpfx.toNat % 2 ^ (8 * e.selP)

/-- The fabric differs from the firing's only in its agenda and in the groups to land, the warmth and the burst count of its slab. -/
def OnlySlab (c : FCtx) (f : Fabric) : Prop :=
  OnlyElement c.el c.f f ∧ f.el c.el = { c.elt with
    landing := (f.el c.el).landing, mxWarm := (f.el c.el).mxWarm, mxWarming := (f.el c.el).mxWarming
    mxSince := (f.el c.el).mxSince, mxBurst := (f.el c.el).mxBurst }

/-- The fabric differs from the firing's only in the histogram and the selection registers of its element (R180, R181). -/
def OnlySelection (c : FCtx) (f : Fabric) : Prop :=
  ∃ x : Element, f = c.f.modEl c.el fun e => { e with hist := x.hist, selctl := x.selctl, selk := x.selk, selpfx := x.selpfx }

end Sys2Proof.Machine

/-- R169, R170, R171, R175, R177: MXMODE turns the slab on in a format and clears what its control word says, MXEXIT turns it off and keeps W,
SW and ACC, WLOAD writes one column in the valid lanes, ACCZ and ACCRD with CLR set words to 0, BURST arms a count. Each sends a, ACCRD the
words it read. Readings of the model's own: logs 2 and 20. -/
def Obligations.SlabForms : Prop :=
  SendOp 0x80 Instr.mxmode (fun c => SlabFmt (fld c.ctl 3 0) ∧ (c.elt.mxOn = false ∨ fld c.ctl 3 0 = c.elt.mxFmt.toNat ∨ bit c.ctl 4 = true))
      (fun c f fl outs => fl = 0 ∧ outs = c.both c.valid c.avals
        ∧ f = c.f.modEl c.el fun e => { e with
            acc := if bit c.ctl 5 then [] else e.landedAcc, landing := [], weights := if bit c.ctl 4 then [] else e.weights
            sw := if bit c.ctl 4 then [] else e.sw, mxOn := true, mxFmt := BitVec.ofNat 4 (fld c.ctl 3 0)
            mxWarm := false, mxWarming := false, mxSince := false, mxBurst := 0 })
    ∧ SendOp 0x87 Instr.mxexit (fun _ => True) (fun c f fl outs => fl = 0 ∧ outs = c.both c.valid c.avals
        ∧ f = c.f.modEl c.el fun e => { e with
            acc := e.landedAcc, landing := [], mxOn := false, mxWarm := false, mxWarming := false, mxSince := false, mxBurst := 0 })
    ∧ SendOp 0x81 Instr.wload (fun c => c.elt.mxOn = true ∧ c.fin = c.elt.mxFmt.toNat ∧ c.ifmt.isMx = false ∧ c.base + c.len ≤ 32)
      (fun c f fl outs => fl = 0 ∧ outs = c.both c.valid c.avals ∧ ∃ w, f = c.f.modEl c.el (fun e => { e with weights := w })
        ∧ ∀ κ j, κ < 32 → j < 16 → tget 0 w (16 * κ + j)
            = if j = fld c.ctl 3 0 ∧ c.base ≤ κ ∧ κ < c.base + c.len ∧ c.on (κ - c.base) = true then (c.va (κ - c.base)).setWidth 16
              else tget 0 c.elt.weights (16 * κ + j))
    ∧ SendOp 0x84 Instr.accz (fun _ => True) (fun c f fl outs => fl = 0 ∧ outs = c.both c.valid c.avals
        ∧ ∃ acc, f = c.f.modEl c.el (fun e => { e with acc := acc, landing := [] })
          ∧ ∀ i, i < 256 → tget 0 acc i = if accNames (fld c.ctl 7 0) (fld c.ctl 15 8 + 1) i then 0 else tget 0 c.elt.landedAcc i)
    ∧ SendOp 0x83 Instr.accrd (fun c => c.passesF0 [c.d, c.e] (c.resultF0 c.accFirst) (fld c.ctl 12 8 + 1) = false ∧ c.ofmt = .f32)
      (fun c f _ outs => ∃ acc vals, f = c.f.modEl c.el (fun e => { e with acc := acc, landing := [], srstate := c.elt.srstate })
        ∧ (∀ i, i < 256 → tget 0 acc i = if bit c.ctl 15 && accNames (fld c.ctl 7 0) (fld c.ctl 12 8 + 1) i then 0 else tget 0 c.elt.landedAcc i)
        ∧ outs = [{ c.run c.d (lanesMask (fld c.ctl 12 8 + 1)) vals with vec := true }, { c.run c.e (lanesMask (fld c.ctl 12 8 + 1)) vals with vec := true }]
        ∧ vals.length = fld c.ctl 12 8 + 1
        ∧ ∀ k, k < vals.length → ∀ x, x = (tget 0 c.elt.landedAcc ((fld c.ctl 7 0 + k) % 256)).setWidth 64 →
            (fread f32P x).isNan = false → vals[k]? = some x)
    ∧ SendOp 0x86 Instr.burst (fun c => c.elt.mxOn = true) (fun c f fl outs => fl = 0 ∧ outs = c.both c.valid c.avals
        ∧ (fld c.ctl 10 0 ≠ 0 → (f.el c.el).mxBurst = min (fld c.ctl 10 0) 1024 ∧ (f.el c.el).mxWarm = c.elt.mxWarm)
        ∧ (fld c.ctl 10 0 = 0 → (f.el c.el).mxBurst = 0 ∧ (f.el c.el).mxWarming = false ∧ (c.elt.mxSince = false → (f.el c.el).mxWarm = false))
        ∧ OnlySlab c f ∧ (f.el c.el).landing = c.elt.landing)

/-- R172, R99: an MMA in a plain format computes one group for every 16 lanes and sends their number as an F32 scalar to both destinations; the
groups' words are still to land, and nothing but the slab's landing queue, warmth and burst count changes. On one group of I8 lanes a word
of the row whose sum d is not 0 is RNE(ACC + RNE(d)), d the exact sum of products of the valid lanes with the column's weights. Readings of
the model's own: logs 2 and 20. -/
def Obligations.MatrixMultiply : Prop :=
  SendOp 0x82 Instr.mma (fun c => c.elt.mxOn = true ∧ c.fin = c.elt.mxFmt.toNat ∧ c.ifmt.isMx = false
        ∧ c.base % 16 = 0 ∧ c.len % 16 = 0 ∧ c.base + c.len ≤ 32)
      (fun c f _ outs =>
        let r := if bit c.ctl 4 then c.img.f c.tag 1 % 16 else fld c.ctl 3 0
        let v := (roundFV f32P .rne false 0 (intFV (c.len / 16 : Nat) 0)).bits
        outs = [c.scalar c.d true v, c.scalar c.e true v]
          ∧ ∃ gs : List (List (Nat × Word)), gs.length = c.len / 16 ∧ (f.el c.el).landing = c.elt.landing ++ gs ∧ OnlySlab c f
            ∧ (f.el c.el).mxWarm = true ∧ (f.el c.el).mxBurst = c.elt.mxBurst - 1
            ∧ (c.ifmt = .i8 → c.len = 16 → ∀ j, j < 16 →
                let S : Int := ((c.lanes.filter c.on).map fun k => c.ia k * sint 8 ((tget (0 : BitVec 16) c.elt.weights (16 * (c.base + k) + j)).setWidth 64)).sum
                ∃ w wfl, (16 * r + j, w) ∈ gs.getD 0 []
                  ∧ (S ≠ 0 → SumIs f32P .rne (fread f32P ((tget 0 c.elt.landedAcc (16 * r + j)).setWidth 64))
                      (fread f32P (roundFin f32P .rne false false 0 ⟨S, 1⟩).bits) (w.setWidth 64) wfl)))

/-- R182 to R187: HIST counts the keys that match the prefix by their next byte and sends how many; HSCAN takes the bucket at which the counts
reach the rank, or sets SHORT, and clears the histogram; RSEL keeps better keys, and of the ties as many as SELK says or all under SHORT.
TOPK sends min(k, valid lanes) keys of its run as a selection list, larger key first and on equal keys the lower index first, padded with
sentinels, and no lane left out is better than one of them; MERGEK sends the best entries of two lists without later copies of an index;
both send the number of valid entries. Nothing but the histogram and the selection registers changes. Readings of the model's own: logs 12
and 21. -/
def Obligations.SelectionForms : Prop :=
  (
  SendOp 0x88 Instr.hist (fun c => bit (c.vb 0) 0 = false ∧ c.elt.selP < c.w / 8)
      (fun c f fl outs => fl = 0 ∧ OnlySelection c f ∧
        let hit := fun k => decide (topOf c.w c.elt.selP (c.va k).toNat = c.elt.selPrefix)
        let n := (c.onLanes.filter hit).length
        outs = [c.scalar c.d true (w64 n), c.scalar c.e true (w64 n)]
          ∧ (f.el c.el).selk = c.elt.selk ∧ (f.el c.el).selpfx = c.elt.selpfx
          ∧ ∀ i, i < 256 → (tget 0 (f.el c.el).hist i).toNat
              = min ((tget 0 c.elt.hist i).toNat + ((c.onLanes.filter hit).filter fun k => decide (topOf c.w (c.elt.selP + 1) (c.va k).toNat % 256 = i)).length) (2 ^ 32 - 1))
    ∧ SendOp 0x88 Instr.hist (fun c => bit (c.vb 0) 0 = true ∧ 8 ≤ c.w)
      (fun c f fl outs => fl = 0 ∧ OnlySelection c f ∧ outs = [c.scalar c.d true (w64 c.onLanes.length), c.scalar c.e true (w64 c.onLanes.length)]
          ∧ (f.el c.el).selP = 0 ∧ (f.el c.el).selk = 0 ∧ (f.el c.el).selShort = false ∧ (f.el c.el).selDesc = bit (c.vb 0) 1
          ∧ ∀ i, i < 256 → (tget 0 (f.el c.el).hist i).toNat = (c.onLanes.filter fun k => decide (topOf c.w 1 (c.va k).toNat = i)).length)
    ∧ SendOp 0x89 Instr.hscan (fun c => c.vec = false ∧ c.va 0 ≠ 0 ∧ c.elt.histTotal < (c.va 0).toNat ∧ c.elt.histTotal < 2 ^ 32)
      (fun c f fl outs => fl = 0 ∧ OnlySelection c f ∧ outs = [c.scalar c.d true (w64 c.elt.histTotal), c.scalar c.e true 0xFFFFFFFF]
        ∧ (f.el c.el).hist = [] ∧ (f.el c.el).selShort = true ∧ (f.el c.el).selk.toNat = c.elt.histTotal
        ∧ (f.el c.el).selP = c.elt.selP ∧ (f.el c.el).selpfx = c.elt.selpfx ∧ (f.el c.el).selDesc = c.elt.selDesc)
    ∧ SendOp 0x89 Instr.hscan (fun c => c.vec = false ∧ c.va 0 ≠ 0 ∧ (c.va 0).toNat ≤ c.elt.histTotal ∧ c.elt.selP < 8 ∧ (c.va 0).toNat < 2 ^ 32)
      (fun c f fl outs => fl = 0 ∧ OnlySelection c f ∧ ∃ β C : Nat, β < 256
        ∧ C = ((List.range 256).map fun i => if (if c.elt.selDesc then β < i else i < β) then (tget 0 c.elt.hist i).toNat else 0).sum
        ∧ C < (c.va 0).toNat ∧ (c.va 0).toNat ≤ C + (tget 0 c.elt.hist β).toNat
        ∧ outs = [c.scalar c.d true (w64 ((c.va 0).toNat - C)), c.scalar c.e true (w64 β)]
        ∧ (f.el c.el).hist = [] ∧ (f.el c.el).selk = w32 ((c.va 0).toNat - C) ∧ (f.el c.el).selP = c.elt.selP + 1
        ∧ (f.el c.el).selpfx = w64 (c.elt.selpfx.toNat * 256 + β) ∧ (f.el c.el).selDesc = c.elt.selDesc)
    ∧ SendOp 0x8A Instr.rsel (fun c => c.elt.selP ≤ c.w / 8 ∧ (c.elt.selShort = true ∨ c.elt.selP = c.w / 8))
      (fun c f fl outs => fl = 0 ∧ OnlySelection c f ∧ ∃ kept : BitVec 32, outs = c.both kept c.avals ∧ (f.el c.el).hist = c.elt.hist
        ∧ let top := fun k => topOf c.w c.elt.selP (c.va k).toNat
          let better := fun k => if c.elt.selDesc then decide (c.elt.selPrefix < top k) else decide (top k < c.elt.selPrefix)
          let tie := fun k => decide (top k = c.elt.selPrefix)
          let earlier := fun k => ((List.range k).filter fun j => c.on j && tie j).length
          (∀ k, k < 32 → bit kept k = (decide (k < c.len) && c.on k && (better k || (tie k && (c.elt.selShort || decide (earlier k < c.elt.selk.toNat))))))
            ∧ (f.el c.el).selk.toNat = c.elt.selk.toNat - ((List.range c.len).filter fun j => c.on j && tie j).length))
    ∧ (
  SendOp 0x8C Instr.topk (fun c => 1 ≤ (c.vb 0).toNat ∧ (c.vb 0).toNat ≤ (if c.w = 32 then 16 else 8) ∧ (c.w = 32 ∨ c.w = 64) ∧ c.passesF0 [c.d] 0 (2 * (c.vb 0).toNat) = false)
      (fun c f fl outs => fl = 0 ∧ OnlySelection c f ∧ (f.el c.el).hist = [] ∧ ∃ (l : List (Nat × Nat)) (valid : BitVec 32),
        let k := (c.vb 0).toNat
        outs = [{ c.run c.d valid (l.flatMap (fun x => [w64 x.1, w64 x.2]) ++ (List.replicate (k - l.length) [(0xFFFFFFFF : DWord), 0]).flatten) with
                  vec := true, f0 := some 0 }, c.scalar c.e true (w64 l.length)]
          ∧ (∀ i, i < 32 → bit valid i = decide (i < 2 * l.length))
          ∧ l.length = min k c.onLanes.length ∧ l.Pairwise (fun x y => y.2 < x.2 ∨ (y.2 = x.2 ∧ x.1 < y.1))
          ∧ (∀ x ∈ l, ∃ j ∈ c.onLanes, x = (c.base + j, (c.va j).toNat))
          ∧ (∀ j ∈ c.onLanes, (c.base + j, (c.va j).toNat) ∉ l → ∀ x ∈ l, (c.va j).toNat < x.2 ∨ ((c.va j).toNat = x.2 ∧ x.1 < c.base + j)))
    ∧ (∀ (s : State) (d e : BitVec 5) (t : BitVec 4), Ready (firing s 0x8B 0 1 d e t) →
        let c := firing s 0x8B 0 1 d e t
        let l := c.entries 0 ++ c.entries 1
        c.vec = true → c.len % 2 = 0 → c.passesF0 [c.d] 0 c.len = false → (∀ x ∈ l, x.1 ≠ 0xFFFFFFFF) → (∀ x ∈ l, ∀ y ∈ l, x.1 = y.1 → x.2 = y.2) →
        ∃ (r : List (Nat × Nat)) (valid : BitVec 32),
          Sends (.mergek d e t) s c s.fab 0
            [{ c.run c.d valid (r.flatMap (fun x => [w64 x.1, w64 x.2]) ++ (List.replicate (c.len / 2 - r.length) [(0xFFFFFFFF : DWord), 0]).flatten) with
                vec := true, f0 := some 0 }, c.scalar c.e true (w64 r.length)]
          ∧ (∀ i, i < 32 → bit valid i = decide (i < 2 * r.length))
          ∧ r.length = min (c.len / 2) l.dedup.length ∧ (∀ x ∈ r, x ∈ l)
          ∧ r.Pairwise (fun x y => y.2 < x.2 ∨ (y.2 = x.2 ∧ x.1 < y.1))
          ∧ ∀ x ∈ r, ∀ y ∈ l, y ∉ r → y.2 < x.2 ∨ (y.2 = x.2 ∧ x.1 < y.1)))

/-! ## Memory -/

namespace Sys2Proof.Machine

/-- Bytes of a lane in the slot's format. -/
def FCtx.laneBytes (c : FCtx) : Nat := c.ifmt.width / 8

/-- No DISCARD has answered a trap of the firing's set (R231). -/
abbrev Fresh (c : FCtx) : Prop := c.s.note ≠ 10

/-- A plain access of the issuer's own memory (R190, R212, R213, R226): one format of known width on both sides, no MX array, no wave
order, and every lane's address aligned, inside element memory and outside every window. -/
def PlainAccess (c : FCtx) (addr : Nat → Nat) : Prop :=
  Fresh c ∧ c.fin < 15 ∧ c.fout = c.fin ∧ c.ifmt.isMx = false ∧ c.img.wave = false
    ∧ ∀ k, k < c.len → addr k % c.laneBytes = 0 ∧ addr k + c.laneBytes ≤ Config.elemBytes ∧ c.elt.windowAt (addr k) = none

/-- The value run and the ordering token of a load, whose valid lanes hold the bytes at their addresses, least significant first,
and whose other lanes hold 0 (R213, R214). -/
def Loads (c : FCtx) (addr : Nat → Nat) (outs : List Out) : Prop :=
  outs = [c.run c.d c.valid (c.lanes.map fun k => if c.on k then w64 (c.elt.mem.readN (addr k) c.laneBytes) else 0), ordTok c.e c.fout false 0]

/-- The two ordering tokens of a store (R214). -/
def StoreOuts (c : FCtx) (outs : List Out) : Prop := outs = [ordTok c.d c.fout false 0, ordTok c.e c.fout false 0]

/-- The element with the valid lanes of a run stored at their addresses, in ascending lane order, and nothing else changed. -/
def storeLanes (c : FCtx) (addr : Nat → Nat) (e : Element) : Element :=
  c.onLanes.foldl (fun e k => e.putN (addr k) (c.va k).toNat c.laneBytes) e

/-- A guarded word of an I-structure window, aligned, in a slot of its width, outside wave order, under a scalar (R196, R221). -/
def GuardedAccess (c : FCtx) (w : Word) (i : Nat) : Prop :=
  Fresh c ∧ c.fin = 7 ∧ c.fout = 7 ∧ c.img.wave = false ∧ c.vec = false ∧ c.on 0 = true ∧ i < istrWords w
    ∧ istrAddr w i + 8 ≤ Config.elemBytes ∧ c.elt.site (istrAddr w i) = .istr w i ∧ c.elt.mem.wf = true

/-- The handle names word i of window w (R221). -/
def HandleIs (c : FCtx) (h : DWord) (w : Word) (i : Nat) : Prop :=
  w = tget 0 c.elt.wins (fld h 22 20) ∧ i = fld h 16 0 ∧ winRole w = 6 ∧ h.toNat = fld h 22 20 * 2 ^ 20 + i

/-- The fabric differs from the firing's only in the memory of its element, with the banks that it marks as written (R348). -/
def OnlyMemory (c : FCtx) (f : Fabric) (x : Element) : Prop := f = c.f.setEl c.el x ∧ x = { c.elt with mem := x.mem, dirty := x.dirty }

/-- The same, and the sets parked for a guarded word look again (R197, R198). -/
def Filled (c : FCtx) (f : Fabric) (x : Element) : Prop :=
  f = c.f.setEl c.el (x.wakeReason .defer) ∧ x = { c.elt with mem := x.mem, dirty := x.dirty }

/-- Every other word of the window is as full as it was. -/
def OthersKeep (c : FCtx) (w : Word) (i : Nat) (x : Element) : Prop := ∀ j, j < istrWords w → j ≠ i → x.istrFull w j = c.elt.istrFull w j

/-- A virtual address whose home is a stack of the partition (R204, R205, R207): no peer, no aperture, no stripe. -/
def HomeIs (f : Fabric) (part a sd : Nat) : Prop := podPkg f a = none ∧ a % 2 ^ 46 / 2 ^ 40 < 0x3D ∧ f.home part a = some sd

/-- A record of the firing that waits for n answers. -/
def RecordOf (c : FCtx) (n : Nat) (p : Pend) : Prop :=
  p.id = c.id ∧ p.set = c.s ∧ p.op = c.op ∧ p.d = c.d ∧ p.e = c.e ∧ p.fin = c.fin ∧ p.fout = c.fout ∧ p.left = n ∧ p.accs = [] ∧ p.outs = []
    ∧ p.fail = false ∧ p.store = isStoreForm c.op

/-- A memory form that waits: with its record and, posted, what leaves for its answers. -/
def WaitsFor (i : Instr) (s : State) (c : FCtx) (evs : List Ev) (n : Nat) (P : Pend → Prop) : Prop :=
  ∃ p, RecordOf c n p ∧ P p ∧ Waits i s c (s.fab.postAll evs) 0 p

/-- Atomic forms by opcode. -/
def atomics : List (Nat × (BitVec 5 → BitVec 5 → BitVec 5 → BitVec 5 → BitVec 4 → Instr)) :=
  [(0xA8, .aadd), (0xA9, .amin), (0xAA, .amax), (0xAB, .aand), (0xAC, .aor), (0xAD, .axor), (0xAE, .axchg), (0xAF, .acas),
   (0xB0, .aaddAcq), (0xB1, .aminAcq), (0xB2, .amaxAcq), (0xB3, .aandAcq), (0xB4, .aorAcq), (0xB5, .axorAcq), (0xB6, .axchgAcq), (0xB7, .acasAcq),
   (0xB8, .aaddRel), (0xB9, .aminRel), (0xBA, .amaxRel), (0xBB, .aandRel), (0xBC, .aorRel), (0xBD, .axorRel), (0xBE, .axchgRel), (0xBF, .acasRel)]

end Sys2Proof.Machine

/-- R200, R213, R214, R217, R218: LD, LDX and LDA read, and ST, STX and STA write, the valid lanes' bytes at the form's addresses in the
issuer's own memory: consecutive from a role operand, indexed by the iteration, or drawn from a generator. Stores change those bytes and no
others. AGSET loads a generator from its descriptor. A set whose trap DISCARD answered (note 10) sends 0 with its valid bits clear, or
completes its store with FAIL clear (R231). Readings of the model's own: logs 3, 7 and 22. -/
def Obligations.ElementMemory : Prop :=
  SendOp 0x90 Instr.ld (fun c => PlainAccess c fun k => c.ra.toNat + k * c.laneBytes) (fun c f fl outs =>
      f = c.f.setEl c.el c.elt ∧ fl = 0 ∧ Loads c (fun k => c.ra.toNat + k * c.laneBytes) outs)
    ∧ SendOp 0x92 Instr.ldx (fun c => PlainAccess c fun k => c.ra.toNat + (c.base + k) * c.laneBytes) (fun c f fl outs =>
      f = c.f.setEl c.el c.elt ∧ fl = 0 ∧ Loads c (fun k => c.ra.toNat + (c.base + k) * c.laneBytes) outs)
    ∧ SendOp 0x91 Instr.st (fun c => PlainAccess c fun k => c.rb.toNat + k * c.laneBytes) (fun c f fl outs =>
      f = c.f.setEl c.el (storeLanes c (fun k => c.rb.toNat + k * c.laneBytes) c.elt) ∧ fl = 0 ∧ StoreOuts c outs)
    ∧ SendOp 0x93 Instr.stx (fun c => PlainAccess c fun k => c.rb.toNat + (c.base + k) * c.laneBytes) (fun c f fl outs =>
      f = c.f.setEl c.el (storeLanes c (fun k => c.rb.toNat + (c.base + k) * c.laneBytes) c.elt) ∧ fl = 0 ∧ StoreOuts c outs)
    ∧ (∀ (addrs : List Int) (g : Gen),
        SendOp 0x95 Instr.lda (fun c => (tget ⟨0, 0, 0, 0⟩ c.elt.gens (c.ra.toNat % 4)).draw c.len = some (addrs, g) ∧ (∀ x ∈ addrs, 0 ≤ x)
            ∧ PlainAccess c fun k => (addrs.getD k 0).toNat)
          (fun c f fl outs => f = c.f.setEl c.el { c.elt with gens := tset c.elt.gens (c.ra.toNat % 4) g } ∧ fl = 0
            ∧ Loads c (fun k => (addrs.getD k 0).toNat) outs))
    ∧ (∀ (addrs : List Int) (g : Gen),
        SendOp 0x96 Instr.sta (fun c => (tget ⟨0, 0, 0, 0⟩ c.elt.gens (c.rb.toNat % 4)).draw c.len = some (addrs, g) ∧ (∀ x ∈ addrs, 0 ≤ x)
            ∧ PlainAccess c fun k => (addrs.getD k 0).toNat)
          (fun c f fl outs => f = c.f.setEl c.el (storeLanes c (fun k => (addrs.getD k 0).toNat) { c.elt with gens := tset c.elt.gens (c.rb.toNat % 4) g })
            ∧ fl = 0 ∧ StoreOuts c outs))
    ∧ SendOp 0x94 Instr.agset (fun c => Fresh c ∧ c.img.wave = false ∧ c.ra.toNat % 8 = 0 ∧ c.ra.toNat + 16 ≤ Config.elemBytes
          ∧ c.elt.windowAt c.ra.toNat = none ∧ c.elt.windowAt (c.ra.toNat + 8) = none
          ∧ bit (c.elt.mem.word c.ra.toNat) 19 = false ∧ fld (c.elt.mem.word (c.ra.toNat + 8)) 43 1 = 0)
        (fun c f fl outs => fl = 0 ∧ StoreOuts c outs
          ∧ f = c.f.modEl c.el fun e => { e with gens := tset e.gens (c.rb.toNat % 4) ⟨e.mem.word c.ra.toNat, e.mem.word (c.ra.toNat + 8), 0, 0⟩ })
    ∧ (∀ op mk, (op, mk) ∈ [(0x90, Instr.ld), (0x92, Instr.ldx), (0x95, Instr.lda)] →
        SendOp op mk (fun c => c.s.note = 10 ∧ c.ifmt.isMx = false) (fun c f fl outs =>
          f = c.f ∧ fl = 0 ∧ outs = [c.run c.d 0 (c.lanes.map fun _ => 0), ordTok c.e c.fout false 0]))
    ∧ (∀ op mk, (op, mk) ∈ [(0x91, Instr.st), (0x93, Instr.stx), (0x96, Instr.sta)] →
        SendOp op mk (fun c => c.s.note = 10) (fun c f fl outs => f = c.f ∧ fl = 0 ∧ StoreOuts c outs))

/-- R196, R197, R221: IREAD of a full word sends it; IWRITE of an empty word with no reader, when no earlier store of its context is incomplete
(R242), makes it full with its value; FESET makes an empty word full and keeps its value; FECLR makes a full word empty with its low half
all ones. No other word of the window changes its fullness, no other byte of memory changes, and nothing else of the element does. Readings
of the model's own: logs 7, 13 and 22. -/
def Obligations.GuardedWords : Prop :=
  (∀ (w : Word) (i : Nat), SendOp 0x99 Instr.iread (fun c => HandleIs c c.ra w i ∧ GuardedAccess c w i ∧ c.elt.istrFull w i = true)
      (fun c f fl outs => f = c.f.setEl c.el c.elt ∧ fl = 0
        ∧ outs = [c.run c.d c.valid [c.elt.mem.word (istrAddr w i)], ordTok c.e c.fout false 0]))
    ∧ (∀ (w : Word) (i : Nat), SendOp 0x98 Instr.iwrite (fun c => HandleIs c c.rb w i ∧ GuardedAccess c w i ∧ c.elt.istrFull w i = false
          ∧ c.elt.storesPending c.ctx c.s.stamp = false ∧ ∀ x ∈ c.elt.defers, x.addr ≠ istrAddr w i)
      (fun c f fl outs => fl = 0 ∧ StoreOuts c outs ∧ ∃ x, Filled c f x ∧ OthersKeep c w i x ∧ x.istrFull w i = true ∧ x.mem.word (istrAddr w i) = c.va 0
        ∧ ∀ a, a ≠ winBase w + 64 + i / 8 → (a < istrAddr w i ∨ istrAddr w i + 8 ≤ a) → x.mem.read a = c.elt.mem.read a))
    ∧ (∀ (w : Word) (i : Nat), SendOp 0x9A Instr.feset (fun c => GuardedAccess c w i ∧ fld c.ra 63 62 = 0 ∧ fld c.ra 56 0 = istrAddr w i
          ∧ c.elt.istrFull w i = false ∧ ∀ x ∈ c.elt.defers, x.addr ≠ istrAddr w i)
      (fun c f fl outs => fl = 0 ∧ StoreOuts c outs ∧ ∃ x, Filled c f x ∧ OthersKeep c w i x ∧ x.istrFull w i = true
        ∧ x.mem.word (istrAddr w i) = c.elt.mem.word (istrAddr w i)
        ∧ ∀ a, a ≠ winBase w + 64 + i / 8 → (a < istrAddr w i ∨ istrAddr w i + 8 ≤ a) → x.mem.read a = c.elt.mem.read a))
    ∧ (∀ (w : Word) (i : Nat), SendOp 0x9B Instr.feclr (fun c => GuardedAccess c w i ∧ fld c.ra 63 62 = 0 ∧ fld c.ra 56 0 = istrAddr w i
          ∧ c.elt.istrFull w i = true)
      (fun c f fl outs => fl = 0 ∧ StoreOuts c outs ∧ ∃ x, OnlyMemory c f x ∧ OthersKeep c w i x ∧ x.istrFull w i = false
        ∧ fld (x.mem.word (istrAddr w i)) 31 0 = 0xFFFFFFFF ∧ fld (x.mem.word (istrAddr w i)) 63 32 = fld (c.elt.mem.word (istrAddr w i)) 63 32
        ∧ ∀ a, a ≠ winBase w + 64 + i / 8 → (a < istrAddr w i ∨ istrAddr w i + 8 ≤ a) → x.mem.read a = c.elt.mem.read a))

/-- R207, R219, R220, R222, R224, R225, R208: a form whose target lies elsewhere waits with its record while its requests leave: one for each
valid lane to the lane's home for GLD and GST, one for PREF, one to the route's window for SLD and SST, a stream command to an engine for
IGATH, ISCAT and their ordered forms, a copy command for CPY. Readings of the model's own: logs 22, 23 and 34. -/
def Obligations.RemoteMemory : Prop :=
  (∀ (s : State) (a b d e : BitVec 5) (t : BitVec 4) (sd : Nat → Nat),
      let c := firing s 0x9C a b d e t
      let addr := fun k => c.ra.toNat + k * c.laneBytes
      Clear c → Fresh c → c.granted = false → HasPlace c → c.fin < 15 → c.ifmt.isMx = false → c.img.wave = false →
      (∀ k, k < c.len → c.on k = true → s.fab.vaStop c.el c.priv .load (decide (c.fin = 3) || decide (c.fin = 7)) c.laneBytes (addr k) = none ∧ HomeIs s.fab c.part (addr k) (sd k)) →
      c.onLanes ≠ [] → c.ra.toNat + 32 * c.laneBytes < 2 ^ 64 →
      WaitsFor (.gld a b d e t) s c (c.onLanes.map fun k => .translationRequest (sd k) (s.fab.mkReq c.el c.pend k .load c.laneBytes (addr k) 0 0))
        c.onLanes.length fun p => p.args = c.lanes.map fun k => w64 (addr k))
    ∧ (∀ (s : State) (a b d e : BitVec 5) (t : BitVec 4) (sd : Nat → Nat),
      let c := firing s 0x9D a b d e t
      let addr := fun k => c.rb.toNat + k * c.laneBytes
      Clear c → Fresh c → c.granted = false → HasPlace c → c.fin < 15 → c.ifmt.isMx = false → c.img.wave = false →
      (∀ k, k < c.len → c.on k = true → s.fab.vaStop c.el c.priv .store (decide (c.fin = 3) || decide (c.fin = 7)) c.laneBytes (addr k) = none ∧ HomeIs s.fab c.part (addr k) (sd k)) →
      c.onLanes ≠ [] → c.rb.toNat + 32 * c.laneBytes < 2 ^ 64 →
      WaitsFor (.gst a b d e t) s c (c.onLanes.map fun k => .translationRequest (sd k) (s.fab.mkReq c.el c.pend k .store c.laneBytes (addr k) (c.va k) 0))
        c.onLanes.length fun p => p.args = c.lanes.map fun k => w64 (addr k))
    ∧ (∀ (s : State) (a b d e : BitVec 5) (t : BitVec 4) (sd : Nat),
      let c := firing s 0x97 a b d e t
      Clear c → Fresh c → c.granted = false → HasPlace c → c.img.wave = false → s.fab.vaStop c.el c.priv .pref false 1 c.ra.toNat = none → HomeIs s.fab c.part c.ra.toNat sd →
      (c.fin ≠ 12 ∧ c.fin ≠ 13) →
      WaitsFor (.pref a b d e t) s c [.translationRequest sd (s.fab.mkReq c.el c.pend 0 .pref 8 c.ra.toNat 0 0)] 1 fun _ => True)
    ∧ (∀ (s : State) (a b d e : BitVec 5) (t : BitVec 4) (r : DWord),
      let c := firing s 0x9E a b d e t
      Clear c → Fresh c → c.granted = false → HasPlace c → c.img.wave = false → routeOk s.fab c.el (fld c.ra 30 19) = some r → fld r 62 61 = 2 → c.ra.toNat < 2 ^ 31 →
      fld c.ra 18 0 % c.laneBytes = 0 → c.fin < 15 → c.onLanes ≠ [] → c.elt.routes.contains (fld c.ra 30 19) = true →
      WaitsFor (.sld a b d e t) s c [.routeAccess (fld r 41 26) (fld r 60 58) { s.fab.mkReq c.el c.pend 0 .load c.laneBytes (fld c.ra 18 0) 0 0 with route := fld c.ra 30 19 }]
        c.onLanes.length fun _ => True)
    ∧ (∀ (s : State) (a b d e : BitVec 5) (t : BitVec 4) (r : DWord),
      let c := firing s 0x9F a b d e t
      Clear c → Fresh c → c.granted = false → HasPlace c → c.img.wave = false → routeOk s.fab c.el (fld c.rb 30 19) = some r → fld r 62 61 = 2 → c.rb.toNat < 2 ^ 31 →
      fld c.rb 18 0 % c.laneBytes = 0 → c.fin < 15 → c.onLanes ≠ [] → c.elt.routes.contains (fld c.rb 30 19) = true →
      WaitsFor (.sst a b d e t) s c [.routeAccess (fld r 41 26) (fld r 60 58) { s.fab.mkReq c.el c.pend 0 .store c.laneBytes (fld c.rb 18 0) 0 0 with route := fld c.rb 30 19 }]
        1 fun p => p.vals = c.avals)
    ∧ (∀ op mk, (op, mk) ∈ [(0xA0, Instr.igath), (0xA1, Instr.iscat), (0xA3, Instr.igathOrd), (0xA4, Instr.iscatOrd)] →
      ∀ (s : State) (a b d e : BitVec 5) (t : BitVec 4) (sd : Nat),
      let c := firing s op a b d e t
      let base := fld (c.img.lit 15) 29 0 * 65536
      Clear c → Fresh c → c.granted = false → HasPlace c → c.img.wave = false → s.fab.home c.part base = some sd → c.onLanes ≠ [] → (c.fin ≠ 12 ∧ c.fin ≠ 13) →
      WaitsFor (mk a b d e t) s c [.indirectStreamCommand c.el c.id] c.onLanes.length fun p => p.phase = 40 ∧ p.c = w64 (fatikKey sd (c.el % 4))
        ∧ p.args = c.lanes.map fun k => laneWord ((base : Int) + c.role (if op = 0xA0 ∨ op = 0xA3 then c.a else c.b) true k * c.laneBytes))
    ∧ (∀ (s : State) (a b d e : BitVec 5) (t : BitVec 4) (src dst sd len : Nat),
      let c := firing s 0xA2 a b d e t
      let D := c.ra.toNat
      Clear c → Fresh c → c.granted = false → HasPlace c → c.img.wave = false → D % 8 = 0 → D + 32 ≤ Config.elemBytes →
      (∀ j, j < 4 → c.elt.windowAt (D + 8 * j) = none) →
      c.elt.mem.word D = w64 (2 ^ 63 + src) → c.elt.mem.word (D + 8) = w64 dst → c.elt.mem.word (D + 16) = w64 len → c.elt.mem.word (D + 24) = 0 →
      src < 2 ^ 46 → src % 8 = 0 → dst % 8 = 0 → dst + len ≤ Config.elemBytes → 0 < len → len % 8 = 0 → s.fab.home c.part src = some sd → (c.fin ≠ 12 ∧ c.fin ≠ 13) →
      WaitsFor (.cpy a b d e t) s c [.copyCommand c.el c.id] 1 fun p =>
        p.phase = 40 ∧ p.a = w64 (2 ^ 63 + src) ∧ p.b = w64 dst ∧ p.args = [w64 len, 0] ∧ p.c = w64 (fatikKey sd (c.el % 4)))

/-- R210, R228, R229, R248: an atomic on the issuer's own memory enters the element's read-modify-write unit, and one on a virtual address
leaves for its home; either waits for its old value with the operation, the operand and the compared value. A `.REL` form does so when no
earlier store or atomic of its context is incomplete. Readings of the model's own: logs 7, 22 and 23. -/
def Obligations.AtomicsIssue : Prop :=
  ∀ op mk, (op, mk) ∈ atomics → ∀ (s : State) (a b d e : BitVec 5) (t : BitVec 4),
    let c := firing s op a b d e t
    let x := fld c.rb 56 0
    let q := s.fab.mkReq c.el c.pend 0 (.atomic (BitVec.ofNat 8 op) c.ifmt) c.laneBytes x (c.va 0) (c.vc 0)
    Clear c → Fresh c → c.granted = false → HasPlace c → c.img.wave = false → c.fin < 15 → c.vec = false → c.on 0 = true →
    (0xB0 ≤ op → fld c.rb 61 59 < 6) → (0xB8 ≤ op → c.elt.storesPending c.ctx c.s.stamp = false) →
    (fld c.rb 63 62 = 0 → x % c.laneBytes = 0 → x + c.laneBytes ≤ Config.elemBytes → c.elt.windowAt x = none → c.elt.rmw.length < 3 →
        ∃ p, RecordOf c 1 p ∧ p.vals = [c.va 0]
          ∧ Waits (mk a b d e t) s c ((s.fab.modEl c.el fun e => { e with rmw := e.rmw ++ [q] }).post (.rmwComplete c.el)) 0 p)
      ∧ (∀ sd, fld c.rb 63 62 = 2 → s.fab.vaStop c.el c.priv (.atomic (BitVec.ofNat 8 op) c.ifmt) false c.laneBytes x = none → HomeIs s.fab c.part x sd →
        WaitsFor (mk a b d e t) s c [.translationRequest sd q] 1 fun p => p.vals = [c.va 0])

/-! ## Ordering -/

namespace Sys2Proof.Machine

/-- The failure record of the firing's context, as it stands (R240). -/
def FCtx.failRec (c : FCtx) : FailRec := ((c.elt.residentOf c.ctx).map (·.fail)).getD FailRec.empty

/-- What an ordering source carries (R214, R241): the ordering token's FAIL and cause, and nothing from any other token. -/
def FCtx.failOf (c : FCtx) (sel : Nat) : Option (BitVec 2) :=
  match c.tok sel with
  | some t => if t.ord && bit (t.lane 0) 0 then some (BitVec.ofNat 2 (fld (t.lane 0) 2 1)) else none
  | none => none

/-- A line register assigned to the element's partition in a mode (R245). -/
def LineIn (f : Fabric) (el n mode : Nat) : Prop :=
  lineV (f.lineReg el n) = true ∧ linePart (f.lineReg el n) = f.partOf el ∧ lineMode (f.lineReg el n) = mode

/-- Instruction i leaves its set parked, changed to x, over the fabric f (R11, R24): the set goes to the parked list with its reason
and its reason's number, and nothing is sent. -/
def ParksAs (i : Instr) (s : State) (f : Fabric) (x : MSet) (r : ParkReason) (on : Nat) : Prop :=
  exec i s = .next { s with fab := parkSet f s.fab.cur x r on }

end Sys2Proof.Machine

/-- R239 to R241, R247, R248, R252, R254: FENCE passes when no access of its scope is incomplete, sends the failure record's status word and
FAIL with its first cause, and empties the record; until then it waits. ORDJ sends FAIL where either side carries it, with side A's cause
first. BARW registers its arrival and waits on its line, and sends Φ once the release has reached it; BARA registers and sends at once;
QWAIT starts its line's waves and waits, and sends the declared word once it has come; LODEQ sends the line's status word, 0 where the line
is not its partition's. Readings of the model's own: logs 23 and 24. -/
def Obligations.OrderForms : Prop :=
  (
  SendOp 0xC0 Instr.fence (fun c => fld c.ra 2 0 ≤ 5 ∧ c.scopePending (fld c.ra 2 0) = false)
      (fun c f fl outs => fl = 0 ∧ f = c.f.modEl c.el (fun e => e.setFail c.ctx FailRec.empty)
        ∧ outs = [c.scalar c.d true (w64 (c.failRec.addr.toNat * 65536 + c.failRec.count * 256 + c.failRec.causes.toNat * 2
                    + (if c.failRec.count = 0 then 1 else 0))),
                  ordTok c.e c.fout (decide (c.failRec.count ≠ 0)) c.failRec.first])
    ∧ (∀ (s : State) (a b d e : BitVec 5) (t : BitVec 4), (firing s 0xC0 a b d e t).stops = none →
        let c := firing s 0xC0 a b d e t
        fld c.ra 2 0 ≤ 5 → c.scopePending (fld c.ra 2 0) = true →
        ParksAs (.fence a b d e t) s s.fab s.fab.fire .fence 0)
    ∧ SendOp 0xC1 Instr.ordj (fun _ => True) (fun c f fl outs => f = c.f ∧ fl = 0
        ∧ outs = (let x := c.failOf (if c.b = 0 then 0 else c.a) <|> c.failOf (if c.b = 0 then c.a else c.b)
                  [ordTok c.d c.fout x.isSome (x.getD 0), ordTok c.e c.fout x.isSome (x.getD 0)])))
    ∧ (
  (∀ (s : State) (a b d e : BitVec 5) (t : BitVec 4), (firing s 0xC2 a b d e t).stops = none →
      let c := firing s 0xC2 a b d e t
      let n := fld c.ra 5 0
      LineIn s.fab c.el n 0 → c.elt.enrolled n = true → c.s.note = 0 → c.elt.storesPending c.ctx c.s.stamp = false → bit c.elt.arrived n = false →
      ParksAs (.barw a b d e t) s
        ((s.fab.modEl c.el fun e => { e with arrived := setFld e.arrived n n 1, arrivedBy := tset e.arrivedBy n c.ctx }).post (.barrierRelease n))
        { c.s with note := 1, arg := 0 } .lode n)
    ∧ SendOp 0xC2 Instr.barw (fun c => c.s.note = 6) (fun c f fl outs => f = c.f ∧ fl = 0 ∧ outs = [c.scalar c.d true c.s.arg, ordTok c.e c.fout false 0])
    ∧ SendOp 0xC3 Instr.bara (fun c => LineIn c.f c.el (fld c.ra 5 0) 0 ∧ c.elt.enrolled (fld c.ra 5 0) = true ∧ c.s.note = 0
          ∧ c.elt.storesPending c.ctx c.s.stamp = false ∧ bit c.elt.arrived (fld c.ra 5 0) = false)
        (fun c f fl outs => fl = 0 ∧ outs = [ordTok c.d c.fout false 0, ordTok c.e c.fout false 0]
          ∧ f = (c.f.modEl c.el fun e => { e with
              arrived := setFld e.arrived (fld c.ra 5 0) (fld c.ra 5 0) 1
              arrivedBy := tset e.arrivedBy (fld c.ra 5 0) c.ctx }).post (.barrierRelease (fld c.ra 5 0)))
    ∧ (∀ (s : State) (a b d e : BitVec 5) (t : BitVec 4), (firing s 0xC4 a b d e t).stops = none →
      let c := firing s 0xC4 a b d e t
      let n := fld c.ra 5 0
      LineIn s.fab c.el n 1 → c.s.note ≠ 6 →
      ParksAs (.qwait a b d e t) s (s.fab.startWaves n) { c.s with note := 1, arg := w64 (s.fab.root n).waves } .lode n)
    ∧ SendOp 0xC4 Instr.qwait (fun c => c.s.note = 6) (fun c f fl outs => f = c.f ∧ fl = 0 ∧ outs = [c.scalar c.d true c.s.arg, ordTok c.e c.fout false 0])
    ∧ (∀ (m : Nat), SendOp 0xC5 Instr.lodeq (fun c => LineIn c.f c.el (fld c.ra 5 0) m ∧ bit c.ra 6 = false)
        (fun c f fl outs => f = c.f ∧ fl = 0 ∧
          let r := c.f.root (fld c.ra 5 0)
          outs = [c.scalar c.d true (w64 (2 ^ 31 + m * 2 ^ 29 + r.lastBusy.toNat * 2 ^ 28 + r.lastClean.toNat * 2 ^ 27
                    + (bit c.elt.arrived (fld c.ra 5 0)).toNat * 2 ^ 26 + r.lastCount.toNat)), ordTok c.e c.fout false 0]))
    ∧ SendOp 0xC5 Instr.lodeq (fun c => c.f.lineMine c.el (fld c.ra 5 0) = false)
        (fun c f fl outs => f = c.f ∧ fl = 0 ∧ outs = [c.scalar c.d true 0, ordTok c.e c.fout false 0]))

/-! ## Relations and edge programs -/

namespace Sys2Proof.Machine

/-- Every ready firing of a form that meets `P`, with an answer place free, waits with a record for n answers while `evs` leave for
them; the record is as `R` says. -/
def WaitOp (op : Nat) (mk : BitVec 5 → BitVec 5 → BitVec 5 → BitVec 5 → BitVec 4 → Instr) (P : FCtx → Prop)
    (evs : FCtx → List Ev) (n : Nat) (R : FCtx → Pend → Prop) : Prop :=
  ∀ (s : State) (a b d e : BitVec 5) (t : BitVec 4),
    Ready (firing s op a b d e t) → HasPlace (firing s op a b d e t) → P (firing s op a b d e t) →
    WaitsFor (mk a b d e t) s (firing s op a b d e t) (evs (firing s op a b d e t)) n (R (firing s op a b d e t))

/-- The form's target relation is r, bound under its own number (R273), and no DISCARD has answered its set. -/
def TargetIs (c : FCtx) (r : Rel) : Prop := Fresh c ∧ fld c.control 7 0 = r.no ∧ c.f.rel c.part r.no = some r

/-- The two references of an a operand: N32 holds one, N64 a pair (R273). -/
def ParentsAre (c : FCtx) (p1 p2 : Nat) : Prop :=
  (c.fin = 6 ∧ p1 = fld (c.va 0) 31 0 ∧ p2 = noRef) ∨ (c.fin = 7 ∧ p1 = fld (c.va 0) 63 32 ∧ p2 = fld (c.va 0) 31 0)

/-- Selector k of a head (R278), and of a probe key (R277). -/
def headSel (c : FCtx) (k : Nat) : Nat := fld c.control (10 + 3 * k) (8 + 3 * k)
def probeSel (c : FCtx) (k : Nat) : Nat := fld c.control (11 + 4 * k) (8 + 4 * k)

/-- A set whose trap at issue DISCARD answered (note 10) completes with these tokens and does nothing else (R285, R300). -/
def Discards (op : Nat) (mk : BitVec 5 → BitVec 5 → BitVec 5 → BitVec 5 → BitVec 4 → Instr) (outs : FCtx → List Out) : Prop :=
  SendOp op mk (fun c => c.s.note = 10) fun c f fl os => f = c.f ∧ fl = 0 ∧ os = outs c

/-- Heads of TINS and TDEL that R278 admits. -/
def HeadOk (c : FCtx) (r : Rel) (p2 : Nat) : Prop := fld c.control 31 21 = 0 ∧ (p2 = noRef → ∀ k, k < r.arity → headSel c k < 4)

/-- The issuer's own part of a relation: its lowest member there, bound (R276). -/
def OwnMember (c : FCtx) (r : Rel) (m : Nat) : Prop :=
  m < r.members ∧ r.memberEl m = some c.el ∧ (∀ k, k < m → r.memberEl k ≠ some c.el) ∧ (c.f.member r m).isSome = true

end Sys2Proof.Machine

/-- R275, R276, R278, R279, R280, R282, R283: a relation form waits with a record while its request leaves for the members: RBIND for member 0
of a well-formed descriptor in the partition, RULE and TREDR for the issuer's own member, TINS and TDEL for the home of the head, ROUND and
RCLOSE for every member, TGRAD for its first step. A set that DISCARD answered completes with SAME, no count, or zero (R285). Readings of
the model's own: log 25. -/
def Obligations.RelationRequests : Prop :=
  (∀ r : Rel, WaitOp 0xC8 Instr.rbind
      (fun c => Fresh c ∧ c.ra.toNat % 8 = 0 ∧ c.ra.toNat + 48 ≤ Config.elemBytes ∧ c.elt.mem.words c.ra.toNat 6 = r ∧ r.bad = false
        ∧ ∀ m, m < r.members → ∃ x, r.memberEl m = some x ∧ c.f.partOf x = c.part ∧ winRole (tget 0 (c.f.el x).wins r.win) = 4)
      (fun c => [.rbindMember c.el c.id 0]) 1 (fun _ p => p.args = r ∧ p.base = r.no))
    ∧ (∀ (r : Rel) (m : Nat), WaitOp 0xC9 Instr.rule (fun c => TargetIs c r ∧ OwnMember c r m)
        (fun c => [.relationScanVisit c.el c.id]) 1 (fun c p => p.base = r.no ∧ p.a = w64 m ∧ p.b = if bit c.control 8 then 1 else 0))
    ∧ (∀ (r : Rel) (m : Nat), WaitOp 0xD3 Instr.tredr (fun c => TargetIs c r ∧ OwnMember c r m)
        (fun c => [.relationScanVisit c.el c.id]) 1 (fun _ p => p.base = r.no ∧ p.a = w64 m ∧ p.b = 0))
    ∧ (∀ (r : Rel) (p1 p2 : Nat), WaitOp 0xCA Instr.tins (fun c => TargetIs c r ∧ c.vec = false ∧ ParentsAre c p1 p2 ∧ HeadOk c r p2)
        (fun c => [.tupleInsertAtHome c.el c.id]) 1 (fun c p => p.base = r.no ∧ p.a = w64 p1 ∧ p.b = w64 p2
          ∧ p.args = (List.range r.arity).map (fun k => w64 (headSel c k)) ∧ p.cnt = fld c.control 20 20))
    ∧ (∀ (r : Rel) (p1 p2 : Nat), WaitOp 0xD2 Instr.tdel (fun c => TargetIs c r ∧ c.vec = false ∧ c.fin = 7 ∧ ParentsAre c p1 p2 ∧ HeadOk c r p2)
        (fun c => [.tupleDeleteAtHome c.el c.id]) 1 (fun c p => p.base = r.no ∧ p.a = w64 p1 ∧ p.b = w64 p2
          ∧ p.args = (List.range r.arity).map (fun k => w64 (headSel c k))))
    ∧ (∀ r : Rel, WaitOp 0xD2 Instr.tdel
        (fun c => TargetIs c r ∧ c.vec = false ∧ c.fin = 6 ∧ (c.f.refAt c.part (fld (c.va 0) 31 0)).isSome = true)
        (fun c => [.tupleDeleteAtHome c.el c.id]) 1 (fun c p => p.base = r.no ∧ p.a = w64 (fld (c.va 0) 31 0) ∧ p.b = w64 noRef))
    ∧ (∀ r : Rel, WaitOp 0xCF Instr.round (fun c => TargetIs c r)
        (fun c => (List.range r.members).map fun m => .roundAtMember c.el c.id m) r.members (fun c p => p.base = r.no ∧ p.b = if bit c.control 8 then 1 else 0))
    ∧ (∀ r : Rel, WaitOp 0xD1 Instr.rclose (fun c => TargetIs c r)
        (fun c => (List.range r.members).map fun m => .closeAtMember c.el c.id m) r.members (fun _ p => p.base = r.no))
    ∧ (∀ r : Rel, WaitOp 0xD4 Instr.tgrad (fun c => TargetIs c r ∧ c.vec = false ∧ c.fin = 14 ∧ fld (c.va 0) 63 32 = 0 ∧ 3 ≤ r.alg)
        (fun c => [.gradientStep c.el c.id]) 1 (fun c p => p.base = r.no ∧ p.args = [w64 (fld (c.va 0) 31 0), c.vb 0, 0]))
    ∧ (∀ op mk, (op, mk) ∈ [(0xCA, Instr.tins), (0xD2, Instr.tdel)] →
        Discards op mk fun c => [c.scalar c.d true 0xFFFFFFFF, ordTok c.e c.fout false 0])
    ∧ (∀ op mk, (op, mk) ∈ [(0xC9, Instr.rule), (0xD3, Instr.tredr)] → Discards op mk fun c => [c.scalar c.e true 0])
    ∧ (∀ op mk, (op, mk) ∈ [(0xC8, Instr.rbind), (0xCF, Instr.round), (0xD1, Instr.rclose), (0xD4, Instr.tgrad)] →
        Discards op mk fun c => [c.scalar c.d true 0, ordTok c.e c.fout false 0])

/-- R277, R284, R281: a probe waits while its request leaves for the home of the key that its selectors take from the tuple it names; TNOT takes
every column; TWIT sends a tuple's witness and its status and weight, all ones and 0 for no tuple, and where the access table of the tuple's
home turns it away it goes there and waits; FIXQ waits for a declaration on its first line and sends the result of its pass. A set that
DISCARD answered completes with zero (R285). Readings of the model's own: log 25. -/
def Obligations.ProbesAndPasses : Prop :=
  (∀ op mk, (op, mk) ∈ [(0xCB, Instr.tprobe), (0xCC, Instr.tprobeD), (0xCD, Instr.tprobeAll)] →
      ∀ r : Rel, WaitOp op mk (fun c => TargetIs c r ∧ c.vec = false ∧ c.fin = 6 ∧ ∀ k, k < r.keyCols.length → probeSel c k < 4)
        (fun c => [.probeAtHome c.el c.id]) 1 (fun c p => p.base = r.no ∧ p.a = w64 (fld (c.va 0) 31 0)
          ∧ p.args = (List.range r.keyCols.length).map fun k => w64 (probeSel c k)))
    ∧ (∀ r : Rel, WaitOp 0xCE Instr.tnot (fun c => TargetIs c r ∧ c.vec = false ∧ c.fin = 6 ∧ ∀ k, k < r.arity → probeSel c k < 4)
        (fun c => [.probeAtHome c.el c.id]) 1 (fun c p => p.base = r.no ∧ p.a = w64 (fld (c.va 0) 31 0)
          ∧ p.args = (List.range r.arity).map fun k => w64 (probeSel c k)))
    ∧ (∀ r : Rel, SendOp 0xD5 Instr.twit
        (fun c => TargetIs c r ∧ c.vec = false ∧ c.fin = 6 ∧ c.f.refMay c.el c.pend (fld (c.va 0) 31 0) = true)
        (fun c f fl outs => f = c.f ∧ fl = 0 ∧
          let x := c.f.entOf c.part (fld (c.va 0) 31 0)
          outs = if x.used then [c.scalar c.d true x.wit, c.scalar c.e true (w64 (x.st.toNat * 2 ^ 32 + x.wt.toNat))]
            else [c.scalar c.d true 0xFFFFFFFFFFFFFFFF, c.scalar c.e true 0]))
    ∧ (∀ r : Rel, WaitOp 0xD5 Instr.twit
        (fun c => TargetIs c r ∧ c.vec = false ∧ c.fin = 6 ∧ c.f.refMay c.el c.pend (fld (c.va 0) 31 0) = false)
        (fun c => [.probeAtHome c.el c.id]) 1 (fun c p => p.base = r.no ∧ p.a = w64 (fld (c.va 0) 31 0)))
    ∧ (∀ (s : State) (a b d e : BitVec 5) (t : BitVec 4), (firing s 0xD0 a b d e t).stops = none →
      let c := firing s 0xD0 a b d e t
      let q := fld c.control 5 0
      let k := fld c.control 13 8
      LineIn s.fab c.el q 1 → LineIn s.fab c.el k 1 → k ≠ q → (s.fab.root k).running = false → c.s.note ≠ 6 → Fresh c →
      ParksAs (.fixq a b d e t) s (s.fab.startWaves q) { c.s with note := 1, arg := 0 } .lode q)
    ∧ SendOp 0xD0 Instr.fixq (fun c => c.s.note = 6) (fun c f fl outs => f = c.f ∧ fl = 0 ∧ outs = [c.scalar c.d true c.s.arg, ordTok c.e c.fout false 0])
    ∧ (∀ op mk, (op, mk) ∈ [(0xCB, Instr.tprobe), (0xCC, Instr.tprobeD), (0xCD, Instr.tprobeAll)] → Discards op mk fun c => [c.scalar c.e true 0])
    ∧ (∀ op mk, (op, mk) ∈ [(0xCE, Instr.tnot), (0xD5, Instr.twit)] → Discards op mk fun c => [c.scalar c.d true 0, c.scalar c.e true 0])
    ∧ Discards 0xD0 Instr.fixq (fun c => [c.scalar c.d true 0, ordTok c.e c.fout false 0])

/-- R296, R298, R299, R205: EPROG and EDENS on a descriptor in order ask each member that drives the round, in push or pull mode, and EPROG on
an index without edges sends 0 at once; with an index area in a peer package one event begins by fetching it; EMODE writes the descriptor's
mode fields and nothing else. A set that DISCARD answered completes with zero (R300). Readings of the model's own: logs 25 and 26. -/
def Obligations.EdgePrograms : Prop :=
  (∀ (ds : List DWord) (u e' v : Rel) (T : Nat), T ≠ 0 →
      let by' := if bit (ds.getD 0 0) 39 then v else u
      WaitOp 0xD8 Instr.eprog
        (fun c => Fresh c ∧ c.edgeDesc = .ok (ds, u, e', v) ∧ podPkg c.f e'.idx = none ∧ c.f.edgeCount (c.f.engMaster c.el c.ctx) e' = .ok T
          ∧ c.f.rel c.part by'.no = some by')
        (fun c => (List.range by'.members).map fun m => if bit (ds.getD 0 0) 39 then .pullVertexVisit c.el c.id m else .pushSourceVisit c.el c.id m)
        by'.members (fun _ p => p.args = ds ∧ p.base = by'.no ∧ p.vals = List.replicate by'.members 0))
    ∧ (∀ (ds : List DWord) (u e' v : Rel), SendOp 0xD8 Instr.eprog
        (fun c => Fresh c ∧ c.edgeDesc = .ok (ds, u, e', v) ∧ podPkg c.f e'.idx = none ∧ c.f.edgeCount (c.f.engMaster c.el c.ctx) e' = .ok 0)
        (fun c f fl outs => f = c.f ∧ fl = 0 ∧ outs = [c.scalar c.d true 0, ordTok c.e c.fout false 0]))
    ∧ (∀ (ds : List DWord) (u e' v : Rel) (T : Nat), WaitOp 0xD9 Instr.edens
        (fun c => Fresh c ∧ c.edgeDesc = .ok (ds, u, e', v) ∧ podPkg c.f e'.idx = none ∧ c.f.edgeCount (c.f.engMaster c.el c.ctx) e' = .ok T
          ∧ c.f.rel c.part u.no = some u)
        (fun c => (List.range u.members).map fun m => .edensCount c.el c.id m) u.members (fun c p => p.args = ds ∧ p.base = u.no ∧ p.b = c.ra))
    ∧ (∀ (ds : List DWord) (u e' v : Rel) (d : Nat),
        let by' := if bit (ds.getD 0 0) 39 then v else u
        WaitOp 0xD8 Instr.eprog (fun c => Fresh c ∧ c.edgeDesc = .ok (ds, u, e', v) ∧ podPkg c.f e'.idx = some d)
          (fun c => [.pushSourceVisit c.el c.id 0]) by'.members (fun _ p => p.args = ds ∧ p.base = by'.no)
        ∧ WaitOp 0xD9 Instr.edens (fun c => Fresh c ∧ c.edgeDesc = .ok (ds, u, e', v) ∧ podPkg c.f e'.idx = some d)
          (fun c => [.edensCount c.el c.id 0]) u.members (fun c p => p.args = ds ∧ p.base = u.no ∧ p.b = c.ra))
    ∧ SendOp 0xDA Instr.emode (fun c => Fresh c ∧ c.ra.toNat % 8 = 0 ∧ c.ra.toNat + 64 ≤ Config.elemBytes ∧ c.elt.windowAt c.ra.toNat = none ∧ fld c.rb 1 0 < 3)
        (fun c f fl outs => fl = 0 ∧ outs = [ordTok c.d c.fout false 0, ordTok c.e c.fout false 0]
          ∧ ∃ w : DWord, f = c.f.modEl c.el (fun e => e.putWord c.ra.toNat w)
            ∧ fld w 37 36 = fld c.rb 1 0 ∧ fld w 39 39 = (if fld c.rb 1 0 = 2 then fld c.rb 2 2 else fld c.rb 1 0)
            ∧ fld w 35 0 = fld (c.elt.mem.word c.ra.toNat) 35 0 ∧ bit w 38 = bit (c.elt.mem.word c.ra.toNat) 38
            ∧ fld w 63 40 = fld (c.elt.mem.word c.ra.toNat) 63 40)
    ∧ (∀ op mk, (op, mk) ∈ [(0xD8, Instr.eprog), (0xD9, Instr.edens)] →
        Discards op mk fun c => [c.scalar c.d true 0, ordTok c.e c.fout false 0])
    ∧ Discards 0xDA Instr.emode (fun c => [ordTok c.d c.fout false 0, ordTok c.e c.fout false 0])

/-! ## Claims and tasks -/

namespace Sys2Proof.Machine

/-- The Geode serves the issuer: BK.GEODE is valid and its partition has a stack (R374). -/
def GeodeOn (c : FCtx) : Prop := bit (c.f.geodeReg c.el) 31 = true ∧ c.f.stacksOf c.part ≠ []

/-- The name of a token: its two lanes (R371). -/
def nameTok (t : Tok) : Name := (t.lane 0, w32 (fld (t.lane 1) 63 32), w32 (fld (t.lane 1) 31 0))

/-- The record of a CLAIM or CLQRY of a name, and of a FULFIL or ABANDON of an entry id. -/
def claimRec (c : FCtx) (n : Name) (set : Nat) : Pend := { c.pend with args := [n.1, n.lane1], cnt := fld c.control 4 0, cur := set, left := 1 }
def entryRec (c : FCtx) (args : List DWord) : Pend := { c.pend with a := c.ra, args := args, cur := fld c.ra 48 36, left := 1 }

/-- An entry id of this package that names a stack of the partition, its reserved bits 0 (R377, R383). -/
def IdHere (c : FCtx) : Prop := fld c.ra 32 16 = 0 ∧ fld c.ra 63 54 = c.f.pkg ∧ fld c.ra 53 49 ∈ c.f.stacksOf c.part

/-- A two-lane result whose lane 0 is x does not pass the greatest F0 of its result tag (R27). -/
def PairFits (c : FCtx) (x : DWord) : Prop := c.passesF0 [c.d, c.e] (c.resultF0 x) 2 = false

/-- The digest after a name's valid lanes are folded into it (R373). -/
def foldedDigest (c : FCtx) (h : DWord) : DWord :=
  c.onLanes.foldl (fun h k => ((h ^^^ c.va k) * 0x00000100000001B3) ^^^ (((h ^^^ c.va k) * 0x00000100000001B3) >>> 31)) h

/-- The table's block and the stage the issuer reads there (R327). -/
def StageIs (c : FCtx) (n : Nat) (x : Stage) : Prop := c.f.stage (c.f.stageBlk c.el) n = some x

/-- The packet at a's address: its words, in element memory (R336). -/
def PacketAt (c : FCtx) (ws : List DWord) : Prop :=
  c.ra.toNat % 8 = 0 ∧ c.ra.toNat + 8 ≤ Config.elemBytes ∧ c.ra.toNat + 8 * pktLen (c.elt.mem.word c.ra.toNat) ≤ Config.elemBytes
    ∧ ws = c.elt.mem.words c.ra.toNat (pktLen (c.elt.mem.word c.ra.toNat)) ∧ pktOk ws = true ∧ c.f.deliverable (c.f.stageBlk c.el) ws = true

end Sys2Proof.Machine

/-- R373, R374, R375, R380, R383, R384, R389, R390: NAME sends a fresh name or b's name with a's valid lanes folded into its digest. CLAIM and
CLQRY of the package ask the slice of the name's home, FULFIL and ABANDON the slice of the entry id, CLINV every slice from the partition's
first, and wait. Readings of the model's own: log 31. -/
def Obligations.ClaimForms : Prop :=
  SendOp 0xE0 Instr.name (fun c => GeodeOn c ∧ bit c.control 0 = true ∧ c.vec = false ∧ PairFits c 0) (fun c f fl outs => f = c.f ∧ fl = 0
        ∧ let y := w64 (fld (c.va 0) 63 32 * 2 ^ 32 + fld (c.va 0) 31 0)
          outs = [pairOut c.d c.fout 0 y, pairOut c.e c.fout 0 y])
    ∧ (∀ t : Tok, SendOp 0xE0 Instr.name (fun c => GeodeOn c ∧ bit c.control 0 = false ∧ c.tok c.b = some t ∧ PairFits c (foldedDigest c (t.lane 0))) (fun c f fl outs => f = c.f ∧ fl = 0
        ∧ outs = [pairOut c.d c.fout (foldedDigest c (t.lane 0)) (t.lane 1), pairOut c.e c.fout (foldedDigest c (t.lane 0)) (t.lane 1)]))
    ∧ (∀ op mk, (op, mk) ∈ [(0xE1, Instr.claim), (0xE5, Instr.clqry)] → ∀ t : Tok,
        let home := fun c : FCtx => c.f.geodeHome c.part 1 (nameTok t)
        WaitOp op mk (fun c => GeodeOn c ∧ bit c.control 4 = false ∧ c.tok c.a = some t ∧ PairFits c 0)
          (fun c => [.geodeSliceOperation (home c).1 (c.f.greq c.el (claimRec c (nameTok t) (home c).2))]) 1
          (fun c p => p = claimRec c (nameTok t) (home c).2))
    ∧ (∀ t : Tok, WaitOp 0xE2 Instr.fulfil
        (fun c => GeodeOn c ∧ IdHere c ∧ c.tok c.b = some t ∧ c.elt.storesPending c.ctx c.s.stamp = false)
        (fun c => [.geodeSliceOperation (fld c.ra 53 49) (c.f.greq c.el (entryRec c [t.lane 0, w64 (fld (t.lane 1) 31 0)]))]) 1
        (fun c p => p = entryRec c [t.lane 0, w64 (fld (t.lane 1) 31 0)]))
    ∧ WaitOp 0xE3 Instr.abandon (fun c => GeodeOn c ∧ IdHere c)
        (fun c => [.geodeSliceOperation (fld c.ra 53 49) (c.f.greq c.el (entryRec c []))]) 1 (fun c p => p = entryRec c [])
    ∧ (∀ first : Nat, WaitOp 0xE4 Instr.clinv (fun c => GeodeOn c ∧ bit c.control 4 = false ∧ c.f.sequencer c.part = some first)
        (fun c => [.clinvSetStep first (c.f.greq c.el { c.pend with args := [w64 (fld c.rb 31 0), c.ra], cnt := fld c.control 4 0, vals := [0, 0] })]) 1
        (fun c p => p.args = [w64 (fld c.rb 31 0), c.ra] ∧ p.vals = [0, 0]))

/-- R330, R331, R334, R336, R337, R339: TASK sends a packet and TILE a handle for its port where the port has room, and parks under QUEUE where
it has none; STAGEQ, with an answer place free, sends a stage's counts, or retires the live firing that a numbers and sends its handle on to
its first successor. Readings of the model's own: log 32. -/
def Obligations.TaskForms : Prop :=
  (∀ (ws : List DWord) (x : Stage), WaitOp 0xE8 Instr.task
      (fun c => PacketAt c ws ∧ StageIs c (pktStage (ws.getD 0 0)) x ∧ c.f.hasRoom x (pktStage (ws.getD 0 0)) 0 = true)
      (fun c => [.queueAccept ⟨c.part, pktStage (ws.getD 0 0), 0, ws, some (c.el, c.id), false⟩]) 1 (fun _ _ => True))
    ∧ (∀ (s : State) (a b d e : BitVec 5) (t : BitVec 4) (ws : List DWord) (x : Stage), (firing s 0xE8 a b d e t).stops = none →
        PacketAt (firing s 0xE8 a b d e t) ws → StageIs (firing s 0xE8 a b d e t) (pktStage (ws.getD 0 0)) x →
        s.fab.hasRoom x (pktStage (ws.getD 0 0)) 0 = false → ParksAs (.task a b d e t) s s.fab s.fab.fire .queue 0)
    ∧ (∀ x : Stage, WaitOp 0xE9 Instr.tile
      (fun c => fld c.control 31 12 = 0 ∧ c.ra.toNat % 8 = 0 ∧ c.ra.toNat + 16 ≤ Config.elemBytes ∧ fld c.control 11 10 ≠ 0
        ∧ handleBad (c.elt.mem.word c.ra.toNat) (c.elt.mem.word (c.ra.toNat + 8)) = false
        ∧ StageIs c (fld c.control 9 0) x ∧ fld c.control 11 10 < x.ports ∧ c.f.hasRoom x (fld c.control 9 0) (fld c.control 11 10) = true)
      (fun c => [.queueAccept ⟨c.part, fld c.control 9 0, fld c.control 11 10,
        [c.elt.mem.word c.ra.toNat, c.elt.mem.word (c.ra.toNat + 8)], some (c.el, c.id), false⟩]) 1 (fun _ _ => True))
    ∧ (∀ x : Stage, SendOp 0xEA Instr.stageq (fun c => HasPlace c ∧ bit c.control 10 = false ∧ bit c.control 11 = false ∧ bit c.control 31 = false ∧ StageIs c (fld c.control 9 0) x)
      (fun c f fl outs => f = c.f ∧ fl = 0
        ∧ let n := fld c.control 9 0
          let q := fun p => (((c.f.blk x.anchor).places.filter fun i => decide (i.stage = n) && decide (i.port = p)).length)
          outs = [c.scalar c.d true (w64 (((c.f.blk x.anchor).lives.filter fun l => decide (l.stage = n)).length * 2 ^ 58 + q 0 * 2 ^ 53 + q 1 * 2 ^ 48
                    + q 2 * 2 ^ 43 + q 3 * 2 ^ 38 + (tget 0 (c.f.blk x.anchor).seqs n).toNat)), ordTok c.e c.fout false 0]))
    ∧ (∀ (s : State) (a b d e : BitVec 5) (t : BitVec 4) (x : Stage) (l : Live) (h : DWord) (r : List DWord) (w0 w1 : DWord),
        let c := firing s 0xEA a b d e t
        Ready c → HasPlace c → bit c.control 10 = true → bit c.control 11 = false → bit c.control 31 = false →
        StageIs c (fld c.control 9 0) x → x.liveMax ≠ 0 →
        (c.f.blk x.anchor).lives.find? (fun l => decide (l.stage = fld c.control 9 0) && decide (l.seq.toNat = c.ra.toNat)) = some l →
        l.succ = h :: r → fld c.control 30 12 % 8 = 0 → fld c.control 30 12 + 16 ≤ Config.elemBytes →
        c.elt.mem.words (fld c.control 30 12) 2 = [w0, w1] → handleBad w0 w1 = false →
        ∃ p, RecordOf c 1 p ∧ p.args = r ∧ p.vals = [w0, w1] ∧ Waits (.stageq a b d e t) s c
          (((s.fab.modBlk x.anchor fun b => { b with lives := b.lives.erase l }).post (.stageFire x.anchor)).post
            (.successorForward ⟨c.part, fld h 63 54, fld h 53 52, [w0, w1], some (c.el, c.id), false⟩)) 0 p)

/-! ## The system forms and traps -/

namespace Sys2Proof.Machine

/-- Instruction i takes a trap at s with its set x (R11, R393-R395). -/
def Traps (i : Instr) (s : State) (x : MSet) (k : Cause) (info : Word) : Prop :=
  exec i s = .next { s with fab := takeTrap s.fab s.fab.cur x k info }

/-- The firing may act on a unit of a partition: its own, or any at HYP (R397). -/
def MayReach (c : FCtx) (part : Nat) : Prop := part = c.part ∨ c.priv = 2

/-- A trap record in a: its element and context (R394, R404). -/
def RecordIn (c : FCtx) (t : Tok) : Prop := c.tok c.a = some t ∧ t.vec = true ∧ t.valid &&& 7 = 7

/-- A CSR that the firing may read, or write, over no dead link: its unit, key and number (R398-R401, R422). -/
def CsrOpen (c : FCtx) (write : Bool) (unit key num : Nat) : Prop :=
  num = fld c.ra 11 0 ∧ c.f.csrLost c.el unit key = false ∧ csrTarget c.el (BitVec.ofNat 32 c.ra.toNat) = some (unit, key) ∧ MayReach c (c.f.csrPart unit key)
    ∧ (c.priv = 0 → unit = 0 → bit c.ra 15 = true) ∧ c.csrMay unit key = true
    ∧ ∃ r w, csrPriv unit num = some (r, w) ∧ (if write then w = 3 ∨ w ≤ c.priv else r ≤ c.priv)

/-- The loads of the element whose flags are not known yet (R92). -/
def FCtx.flagsOwed (c : FCtx) : List Pend := c.elt.pend.filter Pend.owesFlags

/-- A save area that b names (R407): its stack and offset. -/
def AreaIs (c : FCtx) (sd off : Nat) : Prop := c.f.areaAt c.rb = some (sd, off) ∧ MayReach c (c.f.partOfStack sd)

end Sys2Proof.Machine

/-- R396, R404, R405: RESUME and DISCARD wait while their answer goes to the element of the record in a, at a privilege no lower than the
context's. KILL takes a context out of the partition at once and waits for its region's next wave. Readings of the model's own: logs 27 and
28. -/
def Obligations.HandlerForms : Prop :=
  (∀ op mk, (op, mk) ∈ [(0xF1, Instr.resume), (0xF2, Instr.discard)] → ∀ x : Tok,
      WaitOp op mk (fun c => RecordIn c x ∧ MayReach c (c.f.partOf (fld (x.lane 1) 55 40))
          ∧ (c.priv = 2 ∨ c.f.privAt (fld (x.lane 1) 55 40) (fld (x.lane 0) 63 56) ≤ c.priv))
        (fun c => [.handlerAnswerApply c.el c.id]) 1 (fun c p => p.args = [x.lane 0, x.lane 1] ∧ p.b = if op = 0xF1 then c.rb else 0))
    ∧ (∀ (s : State) (a b d e : BitVec 5) (t : BitVec 4) (bk : Nat) (more : List Nat),
      let c := firing s 0xF3 a b d e t
      let ctx := fld c.ra 7 0
      let x := killNow s.fab c.part ctx (c.el, c.id)
      Ready c → HasPlace c → (∀ t, c.tok c.a = some t → t.vec = false) → c.f.privIn c.part c.el ctx ≤ c.priv →
      c.f.blksOf c.part = bk :: more → x.1.agenda.contains (.regionWave bk) = false →
      ∃ p, RecordOf c 1 p ∧ p.a = w64 ctx ∧ p.cnt = x.2 ∧ Waits (.kill a b d e t) s c (x.1.post (.regionWave bk)) 0 p)
    ∧ (∀ (e : Element) (ctx : Nat) (k : Option Nat),
      (∀ x ∈ (e.without ctx k).1.ready, x.ctx ≠ ctx) ∧ (∀ x ∈ e.ready, x.ctx ≠ ctx → x ∈ (e.without ctx k).1.ready)
        ∧ (∀ x ∈ (e.without ctx k).1.parked, x.set.ctx ≠ ctx) ∧ (∀ x ∈ (e.without ctx k).1.store, x.tok.ctx ≠ ctx)
        ∧ (e.without ctx k).1.residentOf ctx = none ∧ (e.without ctx k).1.acc = e.acc ∧ (e.without ctx k).1.wins = e.wins)

/-- R398 to R401, R403, R406: TRAP and HCALL take their trap: TRAP with the cause and information its operands give, HCALL with its number as
information and b as argument once the context's earlier stores are complete. Answered, TRAP sends a and HCALL the result it got. CSRR sends
the register's value, at once but for EL.AFLAGS while a load's own flags are not known; CSRW of an own register writes it at once, and any
other write leaves for its register and is waited for. Readings of the model's own: logs 23, 27 and 33. -/
def Obligations.CallsAndRegisters : Prop :=
  (
  (∀ (s : State) (a b d e : BitVec 5) (t : BitVec 4) (k : Cause), (firing s 0xF0 a b d e t).stops = none →
      let c := firing s 0xF0 a b d e t
      Cause.ofCode (fld c.rb 7 0) = some k → c.s.note ≠ 2 → Traps (.trap a b d e t) s s.fab.fire k (w32 (fld c.ra 31 0)))
    ∧ (∀ (s : State) (a b d e : BitVec 5) (t : BitVec 4), (firing s 0xF0 a b d e t).stops = none →
      let c := firing s 0xF0 a b d e t
      Cause.ofCode (fld c.rb 7 0) = none → c.s.note ≠ 2 → Traps (.trap a b d e t) s s.fab.fire .illegal (w32 (fld c.rb 7 0)))
    ∧ SendOp 0xF0 Instr.trap (fun c => c.s.note = 2) (fun c f fl outs => f = c.f ∧ fl = 0 ∧ outs = [c.scalar c.d true c.ra, ordTok c.e c.fout false 0])
    ∧ (∀ (s : State) (a b d e : BitVec 5) (t : BitVec 4), (firing s 0xF6 a b d e t).stops = none →
      let c := firing s 0xF6 a b d e t
      c.s.note ≠ 8 → c.elt.storesPending c.ctx c.s.stamp = false → fld (s.fab.bk 0 9) 31 30 = 1 →
      Traps (.hcall a b d e t) s { s.fab.fire with arg := c.rb } .hcall (w32 (fld c.ra 31 0)))
    ∧ SendOp 0xF6 Instr.hcall (fun c => c.s.note = 8) (fun c f fl outs => f = c.f ∧ fl = 0 ∧ outs = [c.scalar c.d true c.s.arg, ordTok c.e c.fout false 0]))
    ∧ (
  (∀ unit key num : Nat, SendOp 0xF4 Instr.csrr (fun c => CsrOpen c false unit key num ∧ (num ≠ 8 ∨ key ≠ c.el ∨ unit = 1 ∨ unit = 2 ∨ c.flagsOwed = []))
      (fun c f fl outs => f = c.f ∧ fl = 0 ∧ outs = [c.scalar c.d true (c.f.csrRead unit key num), ordTok c.e c.fout false 0]))
    ∧ (∀ unit : Nat, unit = 0 ∨ unit = 3 → ∀ (s : State) (a b d e : BitVec 5) (t : BitVec 4),
      let c := firing s 0xF4 a b d e t
      Ready c → HasPlace c → CsrOpen c false unit c.el 8 → c.flagsOwed ≠ [] →
      WaitsFor (.csrr a b d e t) s c [] 1 fun p => p.a = c.f.csrRead unit c.el 8 ∧ p.args = c.flagsOwed.map fun x => w64 x.id)
    ∧ (∀ num : Nat, num ∈ [0x008, 0x009, 0x00A, 0x00C, 0x00D, 0x00E, 0x00F] →
      SendOp 0xF5 Instr.csrw (fun c => CsrOpen c true 0 c.el num ∧ bit c.ra 15 = true)
        (fun c f fl outs => fl = 0 ∧ outs = [ordTok c.d c.fout false 0, ordTok c.e c.fout false 0] ∧ f = c.f.csrWrite 0 c.el num c.rb))
    ∧ (∀ unit key num : Nat, WaitOp 0xF5 Instr.csrw (fun c => CsrOpen c true unit key num ∧ bit c.ra 15 = false)
      (fun c => [csrEvent ⟨unit, key, num, c.rb, c.part, c.priv, some (c.el, c.id)⟩]) 1 (fun _ _ => True)))

/-- R162, R407, R408, R409, R410, R411: CFGLD waits for its table to load, CFGFL for the copies it drops, SAVE for its block to drain, having
stopped it, PGMIG for its leaf, RETIRE for its channel, ATTEST for its report; CFGFL with nothing to drop, RESTORE of a clear block and
SCRUB end at once. Readings of the model's own: logs 16, 29, 30 and 34. -/
def Obligations.UpkeepForms : Prop :=
  WaitOp 0xF7 Instr.cfgld (fun _ => True) (fun c => [.cfgldEntry c.el c.id]) 1
      (fun c p => p.a = w64 (fld c.ra 56 7 * 128) ∧ p.b = w64 (fld c.ra 1 0))
    ∧ SendOp 0xFA Instr.cfgfl (fun c => bit c.ra 8 = false ∧ ∀ x ∈ c.f.els, ∀ y ∈ x.2.slots, y.2.ctx ≠ fld c.ra 7 0)
      (fun c f fl outs => f = c.f ∧ fl = 0 ∧ outs = [c.scalar c.d true 0, ordTok c.e c.fout false 0])
    ∧ (∀ (s : State) (a b d e : BitVec 5) (t : BitVec 4) (bk sd off : Nat),
      let c := firing s 0xF8 a b d e t
      Ready c → HasPlace c → bk = c.ra.toNat % 2 ^ 32 → bk < 1024 → MayReach c (c.f.partOfBlk bk) → AreaIs c sd off → (c.f.blk bk).stopped = false →
      (isFatik c.el = true ∨ blockOf c.el ≠ bk) →
      ∃ p, RecordOf c 1 p ∧ p.a = w64 bk ∧ p.base = sd ∧ p.cnt = off
        ∧ Waits (.save a b d e t) s c ((s.fab.modBlk bk fun b => { b with stopped := true, saved := false }).post (.saveWrite c.el c.id)) 0 p)
    ∧ (∀ (bk sd off n : Nat) (g : Fabric), SendOp 0xF9 Instr.restore
      (fun c => bk = c.ra.toNat % 2 ^ 32 ∧ bk < 1024 ∧ MayReach c (c.f.partOfBlk bk) ∧ AreaIs c sd off ∧ (c.f.blk bk).clear = true
        ∧ readArea c.f bk sd off = .ok (g, n) ∧ g.el c.el = c.elt)
      (fun c f fl outs => f = g ∧ fl = 0 ∧ outs = [c.scalar c.d true (w64 n), ordTok c.e c.fout false 0]))
    ∧ (∀ (s : State) (a b d e : BitVec 5) (t : BitVec 4) (sd bits : Nat) (leaf : DWord) (used : List Nat),
      let c := firing s 0xFB a b d e t
      let base := fld (s.fab.bd sd 0) 36 21 * 2 ^ 21
      let word := (used.getLast?).getD 0
      Ready c → HasPlace c → c.ra.toNat % 65536 = 0 → c.ra.toNat < 2 ^ 46 → s.fab.home c.part c.ra.toNat = some sd →
      s.fab.translate sd c.part c.ra.toNat = some (leaf, bits, used) → c.ra.toNat % 2 ^ bits = 0 → pteLost leaf = false →
      pteV c.rb = true → pteLeaf c.rb = true → pteWP c.rb = false → s.fab.pteBad sd c.part (bitsLevel bits) c.rb = false →
      base ≤ word → word - base < (fld (s.fab.bd sd 0) 20 8 + 1) * 2 ^ 21 →
      ∃ p, RecordOf c 1 p ∧ p.c = setFld leaf 58 58 0 ∧ p.target = word - base
        ∧ Waits (.pgmig a b d e t) s c (s.fab.leafStore c.el p (setFld leaf 58 58 1)) 0 p)
    ∧ SendOp 0xFC Instr.scrub (fun c => fld c.ra 15 14 = 0 ∧ MayReach c (c.f.partOfBlk (fld c.ra 9 0))
          ∧ ((c.f.blk (fld c.ra 9 0)).clear = true ∨ bit (c.f.bk (fld c.ra 9 0) 0) 31 = false) ∧ (isFatik c.el = true ∨ blockOf c.el ≠ fld c.ra 9 0))
      (fun c f fl outs => fl = 0 ∧ outs = [ordTok c.d c.fout false 0, ordTok c.e c.fout false 0] ∧ f = scrubBlock c.f (fld c.ra 9 0))
    ∧ SendOp 0xFC Instr.scrub (fun c => fld c.ra 15 14 = 1 ∧ fld c.ra 4 0 < 24 ∧ MayReach c (c.f.partOfStack (fld c.ra 4 0))
          ∧ (c.f.die (fld c.ra 4 0)).park = [])
      (fun c f fl outs => fl = 0 ∧ outs = [ordTok c.d c.fout false 0, ordTok c.e c.fout false 0]
        ∧ f = (c.f.flushParity (fld c.ra 4 0)).modDie (fld c.ra 4 0) fun d => { d with
          ways := [], hands := [], waitersUsed := 0, tlb := [], deferred := [], walkQ := [] })
    ∧ WaitOp 0xFD Instr.retire (fun c => fld c.ra 4 0 < 24 ∧ MayReach c (c.f.partOfStack (fld c.ra 4 0))
          ∧ c.f.inService (fld c.ra 4 0) (fld c.ra 12 8) = true ∧ (∃ i, i < 32 ∧ i ≠ fld c.ra 12 8 ∧ c.f.inService (fld c.ra 4 0) i = true))
      (fun c => [.channelRetirement (fld c.ra 4 0) (fld c.ra 12 8) c.el c.id]) 1 (fun _ _ => True)
    ∧ WaitOp 0xFE Instr.attest (fun c => c.ra.toNat % 8 = 0 ∧ c.ra.toNat + 50368 ≤ Config.elemBytes ∧ c.f.agenda.countP isReport < 16)
      (fun c => [.attestReportSigned c.el c.id]) 1 (fun c p => p.a = c.ra)

/-! ## Events at an element -/

namespace Sys2Proof.Machine

/-- Instruction i completes at s, and the fabric is then u. -/
def Becomes (i : Instr) (s : State) (u : Fabric) : Prop := exec i s = .next { s with fab := u }

/-- A token that its slot takes on arrival (R20, R23, R28, R134): a good data token of a context that is resident with image r and,
outside a Fatik element, active in a bound, running block with nothing held, at a slot that reads its side. -/
def Arrives (f : Fabric) (el : Nat) (t : Tok) (r : Resident) : Prop :=
  (f.el el).residentOf t.ctx = some r ∧ f.killing el t.ctx = false ∧ badTok t = false ∧ t.eos = 0
    ∧ slotReads r.image t.slot t.side = true
    ∧ (isFatik el = true ∨ ((f.blk (blockOf el)).stopped = false ∧ bit (f.bk (blockOf el) 0) 31 = true
        ∧ f.active (blockOf el) t.ctx = true ∧ (f.el el).heldToks t.ctx = []))

/-- The port lets the token through (R24, R35, R37): a token that no port has offered before passes the loopback port always, and the
packet and stream ports while the element does not hold them back. -/
def PortOpen (f : Fabric) (el : Nat) (p : Port) (t : Tok) : Prop :=
  p ≠ .signal ∧ (∀ o ∈ (f.el el).offered, o.tok ≠ t) ∧ (p = .loopback ∨ (f.el el).holdsBack p = false)

/-- The fabric with a token taken by the element: it leaves its sender's output queue, and the element, changed by g, counts the
arrival (R21, R340). -/
def taken (f : Fabric) (el : Nat) (t : Tok) (g : Element → Element) : Fabric :=
  (f.leaveQueue el t).modEl el fun e => { g e with arrivals := e.arrivals + 1 }

/-- The set of a token alone, and of two scalar tokens of one tag, with a's token first, under the later stamp (R22). -/
def loneSet (t : Tok) (n : Nat) : MSet := ⟨t.ctx, t.slot, t.tag, n, if t.side then none else some t, if t.side then some t else none, 0, 0⟩
def pairSet (t o : Tok) (n : Nat) : MSet := ⟨t.ctx, t.slot, t.tag, n, some (if t.side then o else t), some (if t.side then t else o), 0, 0⟩

/-- A slot that reads both sides and pairs tokens by tag alone for a scalar token (R20, R26). -/
def PairSlot (r : Resident) (t : Tok) : Prop :=
  slotReads r.image t.slot false = true ∧ slotReads r.image t.slot true = true ∧ t.vec = false
    ∧ (fieldOp (Image.instr r.image t.slot)).toNat ≠ 0x61 ∧ (fieldOp (Image.instr r.image t.slot)).toNat ≠ 0x7D

/-- The relaxed rule of runs holds at the slot (R26). -/
def relaxedAt (r : Resident) (t : Tok) : Bool := !matchesEqual (fieldOp (Image.instr r.image t.slot)).toNat

/-- A run of a slot that reads both sides and matches its runs by overlap (R26). -/
def RunSlot (r : Resident) (t : Tok) : Prop :=
  slotReads r.image t.slot false = true ∧ slotReads r.image t.slot true = true ∧ t.vec = true ∧ relaxedAt r t = true
    ∧ (fieldOp (Image.instr r.image t.slot)).toNat ≠ 0x61 ∧ (fieldOp (Image.instr r.image t.slot)).toNat ≠ 0x7D ∧ depth t.tag ≠ 0

/-- u is the part of run t over the iterations from lo to below hi, with its own base and run length (R26). -/
def PartOf (img : Image) (t : Tok) (lo hi : Nat) (u : Tok) : Prop :=
  u.hdr = setFld t.hdr 35 31 (hi - lo - 1) ∧ u.tag = Image.setF0 img t.tag lo ∧ u.lanes = (t.lanes.drop (lo - Image.f img t.tag 0)).take (hi - lo)
    ∧ ∀ k, k < 32 → bit u.valid k = (decide (k < hi - lo) && bit t.valid (k + (lo - Image.f img t.tag 0)))

/-- The head and the tail of a waiting run outside the iterations from lo to below hi, each with the run's stamp (R26). -/
def PiecesOf (img : Image) (x : Waiting) (lo hi : Nat) (ps : List Waiting) : Prop :=
  ∃ hs ts : List Waiting, ps = hs ++ ts
    ∧ (if Image.f img x.tok.tag 0 < lo then ∃ u, PartOf img x.tok (Image.f img x.tok.tag 0) lo u ∧ hs = [⟨u, x.stamp⟩] else hs = [])
    ∧ (if hi < Image.f img x.tok.tag 0 + x.tok.len then ∃ u, PartOf img x.tok hi (Image.f img x.tok.tag 0 + x.tok.len) u ∧ ts = [⟨u, x.stamp⟩] else ts = [])

/-- No frame is searched for a partner of the token: its frame is unusable (R32) or counts none at its slot and other side (R33). -/
def NoProbe (e : Element) (t : Tok) : Prop :=
  frameUsable (e.frameEntry t.ctx) = false ∨ e.mem.readN (countAddr (e.frameEntry t.ctx) t.slot (!t.side)) 2 = 0

/-- The place k of a token's probe chain (R33). -/
def chainAt (img : Image) (w : Word) (t : Tok) (k : Nat) : Nat := (frameIndex img w t + k) % 2 ^ frameBits w

/-- The frame slot holds a partner that is not miss-marked (R32, R33). -/
def FramePartner (e : Element) (img : Image) (w : Word) (relaxed : Bool) (t : Tok) (i : Nat) : Prop :=
  e.frameCtl w i % 2 = 1 ∧ e.frameCtl w i / 2 % 2 = 0 ∧ isPartner img relaxed t (e.frameTok w i).tok = true

/-- No place of the token's chain holds a partner of it. -/
def NoFramePartner (e : Element) (r : Resident) (t : Tok) : Prop :=
  frameUsable (e.frameEntry t.ctx) = false
    ∨ ∀ k, k < 8 → ¬ FramePartner e r.image (e.frameEntry t.ctx) (relaxedAt r t) t (chainAt r.image (e.frameEntry t.ctx) t k)

end Sys2Proof.Machine

/-- R20, R21, R22, R24, R26, R32, R33, R35, R36, R37, R395: an arriving token takes the next stamp. At a slot that reads one side it makes a
ready set. At a slot that reads both it makes one with the lowest-stamped partner of the store; without a partner it asks for a probe where
its context's frame counts a token of the other side, and else waits in the store. Of two runs the overlap pairs and the pieces outside it
wait. In a full store the oldest waiting token moves to its frame, or is parked by SPILLFULL with its index or 0xFFFFFFFF and the new token
stays at its port; with nothing to move a token that its frame does not take stays at its port too. A frame record holds what R32 lays out,
at the first free slot of the chain, and its count grows by one. A token at the signal port joins the sink. Readings of the model's own:
logs 29, 46, 47 and 49. -/
def Obligations.TokensArrive : Prop :=
  (∀ (s : State) (el : Nat) (p : Port) (t : Tok) (r : Resident), Arrives s.fab el t r → PortOpen s.fab el p t →
      slotReads r.image t.slot (!t.side) = false →
      Becomes (.tokenArrive el p t) s (taken s.fab el t fun e => { e with ready := insertSet (loneSet t e.arrivals) e.ready }))
    ∧ (∀ (s : State) (el : Nat) (p : Port) (t : Tok) (r : Resident) (o : Waiting), Arrives s.fab el t r → PortOpen s.fab el p t → PairSlot r t →
      (s.fab.el el).markerAt r.image false t.slot (!t.side) t.tag = none →
      lowestOf (isPartner r.image (relaxedAt r t) t) (s.fab.el el).store = some o →
      Becomes (.tokenArrive el p t) s (taken s.fab el t fun e =>
        { e with store := e.store.erase o, ready := insertSet (pairSet t o.tok (max e.arrivals o.stamp)) e.ready }))
    ∧ (∀ (s : State) (el : Nat) (p : Port) (t : Tok) (r : Resident), Arrives s.fab el t r → PortOpen s.fab el p t →
      (PairSlot r t ∨ RunSlot r t) → (s.fab.el el).markerAt r.image false t.slot (!t.side) t.tag = none →
      lowestOf (isPartner r.image (relaxedAt r t) t) (s.fab.el el).store = none →
      if frameUsable ((s.fab.el el).frameEntry t.ctx) = true
          ∧ (s.fab.el el).mem.readN (countAddr ((s.fab.el el).frameEntry t.ctx) t.slot (!t.side)) 2 ≠ 0 then
        Becomes (.tokenArrive el p t) s
          ((taken s.fab el t fun e => { e with probes := e.probes ++ [(⟨t, e.arrivals⟩, p)] }).post (.frameProbeEnd el))
      else (s.fab.el el).entries < Config.storeEntries →
        Becomes (.tokenArrive el p t) s (taken s.fab el t fun e => { e with store := insertWaiting ⟨t, e.arrivals⟩ e.store }))
    ∧ (∀ (s : State) (el : Nat) (p : Port) (t : Tok) (r : Resident) (o : Waiting) (ta ob : Tok), Arrives s.fab el t r → PortOpen s.fab el p t →
      RunSlot r t → (s.fab.el el).markerAt r.image false t.slot (!t.side) t.tag = none →
      lowestOf (isPartner r.image true t) (s.fab.el el).store = some o → o.tok.vec = true →
      let lo := max (Image.f r.image t.tag 0) (Image.f r.image o.tok.tag 0)
      let hi := min (Image.f r.image t.tag 0 + t.len) (Image.f r.image o.tok.tag 0 + o.tok.len)
      PartOf r.image t lo hi ta → PartOf r.image o.tok lo hi ob →
      (∃ u, Becomes (.tokenArrive el p t) s u ∧ pairSet ta ob (max (s.fab.el el).arrivals o.stamp) ∈ (u.el el).ready)
        ∧ ∀ ps qs : List Waiting, PiecesOf r.image ⟨t, (s.fab.el el).arrivals⟩ lo hi ps → PiecesOf r.image o lo hi qs →
          (∀ y ∈ (s.fab.el el).store, y ≠ o → y.tok.slot ≠ t.slot ∨ y.tok.side = t.side) → (s.fab.el el).store.count o = 1 → NoProbe (s.fab.el el) t →
          (s.fab.el el).entries < Config.storeEntries →
          Becomes (.tokenArrive el p t) s (taken s.fab el t fun e =>
            { e with store := (qs ++ ps).foldl (fun l x => insertWaiting x l) (e.store.erase o), ready := insertSet (pairSet ta ob (max e.arrivals o.stamp)) e.ready }))
    ∧ (∀ (s : State) (el : Nat) (p : Port) (t : Tok) (r rv : Resident) (v : Waiting), Arrives s.fab el t r → PortOpen s.fab el p t →
      PairSlot r t → (s.fab.el el).markerAt r.image false t.slot (!t.side) t.tag = none →
      lowestOf (isPartner r.image (relaxedAt r t) t) (s.fab.el el).store = none → NoProbe (s.fab.el el) t →
      Config.storeEntries ≤ (s.fab.el el).entries → oldestOf (s.fab.el el).store = some v → (s.fab.el el).residentOf v.tok.ctx = some rv →
      let w := (s.fab.el el).frameEntry v.tok.ctx
      (∀ e', Element.frameInsert { s.fab.el el with store := (s.fab.el el).store.erase v } rv.image w v false = some e' →
        Becomes (.tokenArrive el p t) s (taken s.fab el t fun e =>
          { e with mem := e'.mem, dirty := e'.dirty, store := insertWaiting ⟨t, e.arrivals⟩ (e.store.erase v) }))
      ∧ ((frameUsable w = false ∨ ∀ k, k < 8 → (s.fab.el el).frameCtl w (chainAt rv.image w v.tok k) % 2 = 1) → isFatik el = false →
        ∃ u, Becomes (.tokenArrive el p t) s u ∧ (u.el el).store = (s.fab.el el).store.erase v
          ∧ ⟨v.tok, p, v.stamp, .spillFull, if entryOk w then w32 (frameIndex rv.image w v.tok) else 0xFFFFFFFF, true⟩ ∈ (u.el el).parkedToks
          ∧ ⟨t, p, false, (s.fab.el el).arrivals, (s.fab.el el).frameEntry t.ctx⟩ ∈ (u.el el).offered ∧ .tokenArrive el p t ∈ u.agenda))
    ∧ (∀ (s : State) (el : Nat) (p : Port) (t : Tok) (r : Resident), Arrives s.fab el t r → PortOpen s.fab el p t → PairSlot r t →
      (s.fab.el el).markerAt r.image false t.slot (!t.side) t.tag = none → (s.fab.el el).store = [] → NoProbe (s.fab.el el) t →
      Config.storeEntries ≤ (s.fab.el el).entries →
      let w := (s.fab.el el).frameEntry t.ctx
      (frameUsable w = false ∨ ∀ k, k < 8 → (s.fab.el el).frameCtl w (chainAt r.image w t k) % 2 = 1) →
        ∃ u, Becomes (.tokenArrive el p t) s u ∧ (u.el el).store = [] ∧ .tokenArrive el p t ∈ u.agenda
          ∧ ⟨t, p, true, (s.fab.el el).arrivals, w⟩ ∈ (u.el el).offered)
    ∧ (∀ (e : Element) (img : Image) (w : Word) (x : Waiting) (miss : Bool) (k : Nat), e.mem.wf = true → frameUsable w = true → k < 8 →
      e.frameCtl w (chainAt img w x.tok k) % 2 = 0 → (∀ j, j < k → e.frameCtl w (chainAt img w x.tok j) % 2 = 1) →
      let b := frameBase w + 128 + 160 * chainAt img w x.tok k
      let n := frameBase w + 2 * (2 * x.tok.slot + x.tok.side.toNat)
      ∃ e', e.frameInsert img w x miss = some e' ∧ e'.mem.readN b 8 = x.tok.hdr.toNat ∧ e'.mem.readN (b + 8) 8 = x.tok.tag.toNat
        ∧ e'.mem.readN (b + 16) 8 = x.stamp % 2 ^ 64 ∧ e'.mem.readN (b + 24) 4 = x.tok.valid.toNat ∧ e'.mem.readN (b + 28) 4 = 1 + 2 * miss.toNat
        ∧ (∀ i, i < 16 → e'.mem.readN (b + 32 + 8 * i) 8 = packLanes x.tok / 2 ^ (64 * i) % 2 ^ 64)
        ∧ e'.mem.readN n 2 = (e.mem.readN n 2 + 1) % 2 ^ 16
        ∧ ∀ a, ¬ (b ≤ a ∧ a < b + 160) → ¬ (n ≤ a ∧ a < n + 2) → e'.mem.read a = e.mem.read a)
    ∧ (∀ (s : State) (el : Nat) (t : Tok), s.fab.killing el t.ctx = false → (∀ o ∈ (s.fab.el el).offered, o.tok ≠ t) → (s.fab.el el).sink.length < 16 →
      (isFatik el = true ∨ (s.fab.blk (blockOf el)).stopped = false) →
      Becomes (.tokenArrive el .signal t) s ((s.fab.modEl el fun e => { e with sink := e.sink ++ [t] }).post (.trapRecordDeliver el)))

/-- R28, R33, R34, R36, R161, R167, R198, R339, R395, R408: a probe pairs its token with the first partner of its chain and takes the record,
whose count falls and whose place becomes a tombstone, or the whole frame empty with its last token; without a partner there it pairs with
one that came to the store meanwhile, or the token waits. Held tokens of a resident, active context arrive in stamp order; a missed image
that passes its check takes an empty slot and its tokens replay; an idle copy is evicted; a scale token joins the scale store and wakes the
sets that wait for scales; the oldest sink token that can leave arrives, a record at the context in its slot; parked sets are examined
again. Readings of the model's own: logs 29, 37 and 49. -/
def Obligations.ElementEvents : Prop :=
  (∀ (s : State) (el : Nat) (y : Waiting) (p : Port) (more : List (Waiting × Port)) (r : Resident) (k : Nat),
      (s.fab.el el).probes = (y, p) :: more → (s.fab.el el).residentOf y.tok.ctx = some r → y.tok.vec = false →
      let e := s.fab.el el
      let w := e.frameEntry y.tok.ctx
      let i := chainAt r.image w y.tok
      frameUsable w = true → k < 8 → FramePartner e r.image w (relaxedAt r y.tok) y.tok (i k) →
      (∀ j, j < k → e.frameCtl w (i j) % 8 ≠ 0 ∧ ¬ FramePartner e r.image w (relaxedAt r y.tok) y.tok (i j) ∧ e.frameCtl w (i j) % 8 ≠ 2) →
      Becomes (.frameProbeEnd el) s (s.fab.modEl el fun e =>
        (Element.frameTake { e with probes := more } w (i k)).toReady
          (pairSet y.tok (e.frameTok w (i k)).tok (max y.stamp (e.frameTok w (i k)).stamp))))
    ∧ (∀ (e : Element) (w : Word) (i : Nat), e.mem.wf = true → frameUsable w = true → i < 2 ^ frameBits w →
      let t := (e.frameTok w i).tok
      let b := frameBase w + 128 + 160 * i
      let n := frameBase w + 2 * (2 * t.slot + t.side.toNat)
      let m := (e.frameTake w i).mem
      m.readN n 2 = (if e.mem.readN n 2 = 0 then 0 else e.mem.readN n 2 - 1)
        ∧ (∀ a, a < 128 → ¬ (n ≤ frameBase w + a ∧ frameBase w + a < n + 2) → m.read (frameBase w + a) = e.mem.read (frameBase w + a))
        ∧ ((∃ a, a < 128 ∧ m.read (frameBase w + a) ≠ 0) →
            m.readN (b + 28) 4 = 4 ∧ ∀ a, ¬ (b + 28 ≤ a ∧ a < b + 32) → ¬ (n ≤ a ∧ a < n + 2) → m.read a = e.mem.read a)
        ∧ ((∀ a, a < 128 → m.read (frameBase w + a) = 0) → ∀ j, j < 2 ^ frameBits w → (e.frameTake w i).frameCtl w j = 0))
    ∧ (∀ (s : State) (el : Nat) (y : Waiting) (p : Port) (more : List (Waiting × Port)) (r : Resident),
      (s.fab.el el).probes = (y, p) :: more → (s.fab.el el).residentOf y.tok.ctx = some r → NoFramePartner (s.fab.el el) r y.tok →
      lowestOf (isPartner r.image (relaxedAt r y.tok) y.tok) (s.fab.el el).store = none → (s.fab.el el).entries < Config.storeEntries →
      Becomes (.frameProbeEnd el) s (s.fab.modEl el fun e => { e with probes := more, store := insertWaiting y e.store }))
    ∧ (∀ (s : State) (el : Nat) (y o : Waiting) (p : Port) (more : List (Waiting × Port)) (r : Resident),
      (s.fab.el el).probes = (y, p) :: more → (s.fab.el el).residentOf y.tok.ctx = some r → y.tok.vec = false →
      NoFramePartner (s.fab.el el) r y.tok → lowestOf (isPartner r.image (relaxedAt r y.tok) y.tok) (s.fab.el el).store = some o →
      Becomes (.frameProbeEnd el) s (s.fab.modEl el fun e =>
        { e with probes := more, store := e.store.erase o, ready := insertSet (pairSet y.tok o.tok (max y.stamp o.stamp)) e.ready }))
    ∧ (∀ (s : State) (el ctx : Nat), isFatik el = false → s.fab.active (blockOf el) ctx = true → ((s.fab.el el).residentOf ctx).isSome = true →
      (s.fab.blk (blockOf el)).stopped = false → (el, ctx) ∉ (s.fab.blk (blockOf el)).misses →
      Becomes (.missReplay el ctx) s
        (((s.fab.el el).heldToks ctx).foldl (fun g x => g.accept el x .packet) (s.fab.modEl el fun e => e.takeHeld ctx)))
    ∧ (∀ (s : State) (el ctx slot entry : Nat) (img : Image) (g : Fabric),
      isFatik el = false → (s.fab.blk (blockOf el)).stopped = false → (s.fab.el el).residentOf ctx = none → s.fab.dirEntry el ctx = some entry →
      s.fab.readImage (s.fab.partOf el) entry = some img → img.ctx = ctx → entryOk ((s.fab.el el).frameEntry ctx) = true →
      loadCheck s.fab el img 2 = 0 → (s.fab.el el).victimSlot = some slot → tfind (s.fab.el el).slots slot = none →
      ((s.fab.install el slot img false).modEl el fun e => e.dropScales ctx).claimAll el ctx = (g, none) → (g.el el).heldToks ctx ≠ [] →
      Becomes (.configMissServe el ctx) s (g.askReplay el ctx))
    ∧ (∀ (s : State) (el ctx : Nat), ((s.fab.el el).residentOf ctx).isSome = true → (s.fab.el el).busy ctx = false →
      Becomes (.contextEvict el ctx) s (copyGone (s.fab.evict el ctx true) el ctx))
    ∧ (∀ (s : State) (el : Nat) (t : ScaleTok), s.fab.killing el (fld t.tag 63 56) = false → s.fab.savedArea el = none → (s.fab.el el).scales.length < 64 →
      (∀ r, (s.fab.el el).residentOf (fld t.tag 63 56) = some r → takesScales r.image t.slot = true) →
      Becomes (.scaleTokenArrive el t) s
        (((s.fab.modEl el fun e => { e with scales := e.scales ++ [t] }).leaveQueue el (scaleAsTok t)).wakeFor el .scale))
    ∧ (∀ (s : State) (el ctx : Nat) (t : Tok), (isFatik el = true ∨ (s.fab.blk (blockOf el)).stopped = false) →
      (s.fab.el el).sink.find? (s.fab.el el).deliverable = some t → (s.fab.el el).sinkCtx t = some ctx →
      (t.trapTok = true → Image.fin ((s.fab.el el).imageOf ctx) t.slot = 7) →
      let g := (s.fab.modEl el fun e => { e with sink := e.sink.erase t }).stampAccept el .signal (if t.trapTok then { t with tag := w64 (ctx * 2 ^ 56) } else t)
      ¬ ((s.fab.el el).ready.length < (g.el el).ready.length ∧ 40 < (g.el el).ready.length) → Becomes (.trapRecordDeliver el) s g)
    ∧ (∀ (s : State) (el : Nat), (∀ p ∈ (s.fab.el el).pend, p.accs = []) →
      Becomes (.deferRelease el) s (s.fab.wakeFor el .defer))
    ∧ (∀ (s : State) (el : Nat), (s.fab.el el).sink.length < 16 →
      (∀ p ∈ (s.fab.el el).pend, p.accs = [] ∧ p.ordered = false ∧ p.phase ≠ heldPhase) → ∃ u, Becomes (.signalRelease el) s u
      ∧ (∀ x ∈ (u.el el).parked, x.reason ≠ .queue) ∧ (∀ x ∈ (s.fab.el el).parked, x.reason ≠ .queue → x ∈ (u.el el).parked)
      ∧ (∀ x ∈ (s.fab.el el).parked, x.reason = .queue → x.set ∈ (u.el el).ready) ∧ ∀ k, k ≠ el → u.el k = s.fab.el k)

/-- R146, R148, R177: the oldest group's words enter ACC; a warm-up ends; with BURST not zero a timeout, and with BURST zero the cooling time,
leave the slab cold. The delay line's head retires when its step has come and stays until then. A generator sends its next chunk and goes
on, and after its last retires with its count. Readings of the model's own: logs 1 and 2. -/
def Obligations.TimedEvents : Prop :=
  (∀ (s : State) (el : Nat) (g : List (Nat × Word)) (r : List (List (Nat × Word))), (s.fab.el el).landing = g :: r →
      Becomes (.groupLanding el) s (s.fab.modEl el fun e => { e with acc := g.foldl (fun t p => tset t p.1 p.2) e.acc, landing := r }))
    ∧ (∀ (s : State) (el : Nat), (s.fab.el el).mxWarming = true →
      Becomes (.warmupDone el) s (s.fab.modEl el fun e => { e with mxWarm := true, mxWarming := false }))
    ∧ (∀ (s : State) (el : Nat), (s.fab.el el).mxBurst ≠ 0 →
      Becomes (.burstTimeout el) s (s.fab.modEl el fun e => { e with mxWarm := false, mxWarming := false, mxSince := false, mxBurst := 0 }))
    ∧ (∀ (s : State) (el : Nat), (s.fab.el el).mxBurst = 0 →
      Becomes (.slabCool el) s (s.fab.modEl el fun e => { e with mxWarm := false, mxWarming := false, mxSince := false, mxBurst := 0 }))
    ∧ (∀ (s : State) (el due : Nat) (p : Pend) (r : List (Nat × Pend)), (s.fab.el el).delays = (due, p) :: r → s.fab.clock < due →
      Becomes (.delayDue el) s (s.fab.post (.delayDue el)))
    ∧ (∀ (s : State) (el due : Nat) (p : Pend) (r : List (Nat × Pend)), (s.fab.el el).delays = (due, p) :: r → due ≤ s.fab.clock →
      (s.fab.el el).pendOf p.id = none →
      Becomes (.delayDue el) s ((retire (s.fab.modEl el fun e => { e with delays := r }) el { p with left := 0 } 0).wakeFor el .delay))
    ∧ (∀ (s : State) (el : Nat) (g : LoopGen) (o : Out), (isFatik el = true ∨ (s.fab.blk (blockOf el)).stopped = false) →
      (s.fab.el el).loops.find? (fun g => decide (g.pend.phase ≠ 1)) = some g → g.todo ≠ [] →
      loopToken ((s.fab.el el).imageOf g.pend.set.ctx) g = .ok o → isExitOut o = false → isRouteOut ((s.fab.el el).imageOf g.pend.set.ctx) o = false → (s.fab.el el).pendOf g.pend.id = none →
      let g' := { g with ordinal := g.ordinal + min g.chunk g.todo.length, todo := g.todo.drop g.chunk, sent := g.sent + 1 }
      let f := s.fab.modEl el fun e => { e with loops := e.loops.map fun x => if x = g then g' else x }
      Becomes (.loopGeneratorEmit el) s ((emitOut f el g.pend.set.ctx g.pend.set.slot g.pend.set.tag g.pend.tag o).post (.loopGeneratorEmit el)))
    ∧ (∀ (s : State) (el : Nat) (g : LoopGen), (isFatik el = true ∨ (s.fab.blk (blockOf el)).stopped = false) →
      (s.fab.el el).loops.find? (fun g => decide (g.pend.phase ≠ 1)) = some g → g.todo = [] → (s.fab.el el).pendOf g.pend.id = none →
      Becomes (.loopGeneratorEmit el) s (retire (s.fab.modEl el fun e => { e with loops := e.loops.erase g }) el
        { g.pend with outs := g.pend.outs ++ [loopCount ((s.fab.el el).imageOf g.pend.set.ctx) g] } 0))

/-! ## Events at anchors, answers of handlers, saves -/

namespace Sys2Proof.Machine

/-- The firing that waits at an element under a number, past its grant. -/
def Awaiting (f : Fabric) (el id : Nat) (p : Pend) : Prop := (f.el el).pendOf id = some p ∧ p.grant = false ∧ p.phase ≠ endedPhase

/-- The tokens of a form whose answer is a word: the word to DSTA, an ordering token to DSTB. -/
def wordOuts (p : Pend) (v : DWord) : List Out := [p.value p.d false 1 [v], ordTok p.e p.fout false 0]

end Sys2Proof.Machine

/-- R135, R136, R137, R138, R160, R253: a request for a credit or a number is granted where there is one, the lowest free number of the width
asked for, and held where there is none; a return raises the counter up to its bound or frees the number. A grant lets its firing retire
with the number, and starts a header's generator. CSW joins its anchor's queue. A wave of a region that nothing waits for takes its sample;
the count of clean waves grows with a clean one, is 0 after a dirty one and starts again after the second, and no further wave follows.
Readings of the model's own: logs 21 and 37. -/
def Obligations.AnchorEvents : Prop :=
  (∀ (s : State) (bk el id ctx lvl : Nat) (p : Pend) (x : AnchorCtx), (s.fab.el el).pendOf id = some p →
      tfind (s.fab.blk bk).anchors ctx = some x → x.credits.getD (lvl - 1) 0 ≠ 0 →
      Becomes (.levelCreditRequest bk el id ctx lvl) s
        ((s.fab.modBlk bk fun b => { b with anchors := tset b.anchors ctx { x with credits := x.credits.set (lvl - 1) (x.credits.getD (lvl - 1) 0 - 1) } }).post
          (.grantArrive el id 0)))
    ∧ (∀ (s : State) (bk el id ctx lvl : Nat) (p : Pend) (x : AnchorCtx), (s.fab.el el).pendOf id = some p →
      tfind (s.fab.blk bk).anchors ctx = some x → x.credits.getD (lvl - 1) 0 = 0 →
      Becomes (.levelCreditRequest bk el id ctx lvl) s ((s.fab.modBlk bk fun b => { b with held := b.held ++ [⟨el, id, ctx, false, lvl, false⟩] }).askWave el))
    ∧ (∀ (s : State) (bk el id ctx wid n : Nat) (p : Pend) (x : AnchorCtx), (s.fab.el el).pendOf id = some p →
      tfind (s.fab.blk bk).anchors ctx = some x → n < 256 → n < 2 ^ wid → bit x.pool n = true → (∀ k, k < n → bit x.pool k = false) →
      Becomes (.poolRequest bk el id ctx wid) s
        ((s.fab.modBlk bk fun b => { b with anchors := tset b.anchors ctx { x with pool := setFld x.pool n n 0 } }).post (.grantArrive el id n)))
    ∧ (∀ (s : State) (bk el id ctx wid : Nat) (p : Pend) (x : AnchorCtx), (s.fab.el el).pendOf id = some p →
      tfind (s.fab.blk bk).anchors ctx = some x → (∀ n, n < 256 → n < 2 ^ wid → bit x.pool n = false) →
      Becomes (.poolRequest bk el id ctx wid) s ((s.fab.modBlk bk fun b => { b with held := b.held ++ [⟨el, id, ctx, true, wid, false⟩] }).askWave el))
    ∧ (∀ (s : State) (w : ToAnchor) (ctx lvl : Nat) (x : AnchorCtx), tfind (s.fab.blk w.bk).anchors ctx = some x → (s.fab.blk w.bk).held = [] →
      1 ≤ lvl → lvl ≤ x.levels → x.credits.getD (lvl - 1) 0 < fld x.h2 (4 * lvl - 1) (4 * lvl - 4) + 1 →
      Becomes (.levelCreditReturn w ctx lvl) s
        (s.fab.modBlk w.bk fun b => { b with anchors := tset b.anchors ctx { x with credits := x.credits.set (lvl - 1) (x.credits.getD (lvl - 1) 0 + 1) } }))
    ∧ (∀ (s : State) (w : ToAnchor) (ctx num : Nat) (x : AnchorCtx), tfind (s.fab.blk w.bk).anchors ctx = some x → (s.fab.blk w.bk).held = [] →
      num < x.poolSize → bit x.pool num = false →
      Becomes (.poolReturn w ctx num) s (s.fab.modBlk w.bk fun b => { b with anchors := tset b.anchors ctx { x with pool := setFld x.pool num num 1 } }))
    ∧ (∀ (s : State) (el id num : Nat) (p : Pend), (s.fab.el el).pendOf id = some p → (p.op < 0x78 ∨ 0x7A < p.op) → p.left = 0 → p.accs = [] →
      Becomes (.grantArrive el id num) s (retire s.fab el { p with grant := false } num))
    ∧ (∀ (s : State) (el id num : Nat) (p : Pend), (s.fab.el el).pendOf id = some p → 0x78 ≤ p.op → p.op ≤ 0x7A → p.accs = [] → p.ordered = false →
      Becomes (.grantArrive el id num) s ((s.fab.modEl el fun e => { (e.dropPend p.id) with
          loops := e.loops ++ [⟨{ p with grant := false, tag := Image.push ((s.fab.el el).imageOf p.set.ctx) p.set.tag 0 }, 0, p.cnt, p.args.map (·.toNat), 0⟩] }).post
        (.loopGeneratorEmit el)))
    ∧ (∀ (s : State) (bk el id : Nat) (p : Pend), Awaiting s.fab el id p → bit p.a 16 = false → bit p.a 17 = false →
      Becomes (.cswRequest bk el id) s ((s.fab.modBlk bk fun b => { b with csws := b.csws ++ [⟨el, id, BitVec.ofNat 32 p.a.toNat, 0⟩] }).askWave el))
    ∧ (∀ (s : State) (bk : Nat), (s.fab.blk bk).csws = [] → waveWanted s.fab bk = false → (∀ x ∈ s.fab.els, ∀ p ∈ x.2.pend, p.op ≠ 0xF3) →
      let T := fun el => !isFatik el && (s.fab.regionBlks bk).contains (blockOf el)
      let n := if s.fab.anyActive (fun _ => true) T (s.fab.blk bk).sampledAt none then 0 else (s.fab.blk bk).waves + 1
      Becomes (.regionWave bk) s (s.fab.modBlk bk fun b => { b with sampledAt := s.fab.clock, waves := if n = 2 then 0 else n }))

/-- R162, R348, R396, R404, R407: an answer acts on what its record names and its form then sends 1, and 0 where it names nothing: RESUME puts a
parked set back among the ready ones; DISCARD drops it, or has it complete without effect where its trap is one of a memory, relation or
edge form (note 10). CFGLD loads an accepted entry into an empty slot, counts it and goes on, and after its last entry sends its summary.
SAVE waits while its block has not drained, and then writes the area, marks the block saved and sends how many banks it wrote. Readings of
the model's own: logs 16, 27, 29 and 30. -/
def Obligations.AnswersAndSaves : Prop :=
  (∀ (s : State) (el id : Nat) (p : Pend), Awaiting s.fab el id p → s.fab.named p.trapRec = none →
      Becomes (.handlerAnswerApply el id) s (complete s.fab el p (wordOuts p 0)))
    ∧ (∀ (s : State) (el id : Nat) (p : Pend) (x : Parked), Awaiting s.fab el id p → s.fab.named p.trapRec = some (.set x) →
      p.op = 0xF1 → x.set.note ≠ 5 → x.cause ≠ .hcall → x.cause ≠ .arith → s.fab.parkedOp p.trapRec.el x ≠ some 0xF0 →
      Becomes (.handlerAnswerApply el id) s (complete (s.fab.modEl p.trapRec.el fun e =>
        { e with parked := e.parked.erase x, ready := insertSet (if (s.fab.parkedOp p.trapRec.el x).isSome then x.set else { x.set with note := 0 }) e.ready })
        el p (wordOuts p 1)))
    ∧ (∀ (s : State) (el id : Nat) (p : Pend) (x : Parked), Awaiting s.fab el id p → s.fab.named p.trapRec = some (.set x) →
      p.op = 0xF2 → x.set.note = 0 → s.fab.discardEnds p.trapRec.el x = false →
      Becomes (.handlerAnswerApply el id) s (complete (wakeDone (s.fab.modEl p.trapRec.el fun e => { e with parked := e.parked.erase x }) p.trapRec.el)
        el p (wordOuts p 1)))
    ∧ (∀ (s : State) (el id : Nat) (p : Pend) (x : Parked), Awaiting s.fab el id p → s.fab.named p.trapRec = some (.set x) →
      p.op = 0xF2 → x.set.note = 0 → s.fab.discardEnds p.trapRec.el x = true →
      Becomes (.handlerAnswerApply el id) s (complete (s.fab.modEl p.trapRec.el fun e =>
        { e with parked := e.parked.erase x, ready := insertSet { x.set with note := 10 } e.ready }) el p (wordOuts p 1)))
    ∧ (∀ (s : State) (el id addr tgt slot : Nat) (p : Pend) (w0 w1 : DWord) (img : Image) (g : Fabric), Awaiting s.fab el id p → p.phase ≠ 0 → p.cur < p.base →
      s.fab.ctlWords (s.fab.partOf el) (p.a.toNat + 8 + 16 * p.cur) 2 = some [w0, w1] → addr = fld w0 56 0 → tgt = fld w1 15 0 → slot = fld w1 17 16 →
      s.fab.partOf tgt = s.fab.partOf el → (isFatik tgt = true ∨ (s.fab.blk (blockOf tgt)).stopped = false) →
      s.fab.readImage (s.fab.partOf el) addr = some img →
      loadCheck s.fab tgt img (Image.priv ((s.fab.el el).imageOf p.set.ctx)) = 0 → tfind (s.fab.el tgt).slots slot = none → bit p.b 0 = false →
      (((s.fab.install tgt slot img (bit p.b 1)).dirWrite tgt img.ctx addr).modEl tgt fun e => e.dropScales img.ctx).claimAll tgt img.ctx = (g, none) → (g.el tgt).heldToks img.ctx = [] →
      Becomes (.cfgldEntry el id) s ((g.modEl el fun e => e.setPend { p with phase := 1, cur := p.cur + 1, cnt := p.cnt + 1 }).post (.cfgldEntry el p.id)))
    ∧ (∀ (s : State) (el id : Nat) (p : Pend), Awaiting s.fab el id p → p.phase ≠ 0 → p.base ≤ p.cur →
      Becomes (.cfgldEntry el id) s (complete s.fab el p
        (wordOuts p (w64 ((p.vals.getD 0 0).toNat + (p.vals.getD 1 0).toNat % 65536 * 2 ^ 32 + p.cnt % 65536 * 2 ^ 48)))))
    ∧ (∀ (s : State) (el id : Nat) (p : Pend), Awaiting s.fab el id p → s.fab.drained p.a.toNat = false →
      Becomes (.saveWrite el id) s (s.fab.post (.saveWrite el id)))
    ∧ (∀ (s : State) (el id n : Nat) (p : Pend) (g : Fabric), Awaiting s.fab el id p → (∀ b ∈ s.fab.savedWith p.a.toNat, s.fab.drained b = true) →
      (∀ x ∈ s.fab.listedEls p.a.toNat, (s.fab.el x).pend = [] ∧ (s.fab.el x).loops = []) → writeArea s.fab p.a.toNat p.base p.cnt = some (g, n) →
      Becomes (.saveWrite el id) s (complete (g.modBlk p.a.toNat fun b => { b with saved := true, savedAt := some (p.base, p.cnt) }) el p (wordOuts p (w64 (1 + n * 2 ^ 32)))))

/-! ## Events of accesses, engines and lines -/

namespace Sys2Proof.Machine

/-- A request of a firing of this package, at an element for which no request message is served. -/
def Local (f : Fabric) (q : Req) : Prop := q.el < 131072 ∧ ∀ r ∈ f.raws, r.el ≠ q.el

/-- The new value of an atomic on integers (R228): the sum modulo the width, the lesser or greater by the format's sign, a bit
operation, the operand, or the operand where the old value equals the compared one. -/
def AtomicIs (op : Byte) (x : Fmt) (old a cmp new : DWord) : Prop :=
  match op.toNat % 8 with
  | 0 => new.toNat = (old.toNat + a.toNat) % 2 ^ x.width
  | 1 => new = if readInt x a < readInt x old then a else old
  | 2 => new = if readInt x old < readInt x a then a else old
  | 3 => new = old &&& a
  | 4 => new = old ||| a
  | 5 => new = old ^^^ a
  | 6 => new = a
  | _ => new = if old.toNat % 2 ^ x.width = cmp.toNat % 2 ^ x.width then a else old

/-- The element with the new value of an atomic in its word; a compare that fails leaves it unwritten (R228). -/
def writtenBy (op : Byte) (x : Fmt) (q : Req) (old new : DWord) (e : Element) : Element :=
  if op.toNat % 8 = 7 ∧ old.toNat % 2 ^ x.width ≠ q.cmp.toNat % 2 ^ x.width then e else e.putN q.addr new.toNat q.bytes

/-- Bytes of plain memory at an element: aligned, inside it and under no window but a plain one (R190, R192). -/
def PlainAt (e : Element) (a n : Nat) : Prop := a % n = 0 ∧ a + n ≤ Config.elemBytes ∧ e.site a = .bytes a

/-- The answer of a request. -/
def answerOf (q : Req) (lane : Nat) (v : DWord) : Ev := .memoryAnswer ⟨q.el, q.id, lane, v, true, false, 0⟩

/-- A command of a firing that its Fatik element takes (R208, R339, R398): the link is up, the table allows it, a place is free. -/
def PlaceFree (f : Fabric) (el : Nat) (p : Pend) : Prop :=
  f.linkDead (fatikStack p.c.toNat) = false
    ∧ f.dieAllows (fatikStack p.c.toNat) (f.partOf el) p.priv (if isFatik el then 1 else 0) 3 = true ∧ f.placesUsed p.c < 16

end Sys2Proof.Machine

/-- R203, R204, R214, R215, R219, R228, R230, R365, R366: an answer fills its lane and the last one ends the form; a failed store is counted in
the context's failure record; a fault parks its access and sends the record; a retry parks it under QUEUE; a route is set up once; a route
access to plain memory answers each valid lane with its bytes; a stripe access is served at its member; the oldest atomic of the unit writes
its new value and answers with the old; a buffered access that its wave allows is performed. Readings of the model's own: logs 22, 23 and
34. -/
def Obligations.AccessEvents : Prop :=
  (∀ (s : State) (a : Ans) (p : Pend), a.el < 131072 → s.fab.rawOf a.el a.id a.lane = none →
      (s.fab.el a.el).pendOf a.id = some p → p.phase = 0 → p.op ∈ [0x90, 0x92, 0x95, 0x99, 0x9C, 0x9E] →
      p.isMx = false → a.fail = false → a.valid = true → p.left = 1 →
      Becomes (.memoryAnswer a) s (memDone s.fab a.el { p with vals := p.vals.set a.lane a.val, left := 0 } 0))
    ∧ (∀ (s : State) (a : Ans) (p : Pend) (r : Resident), a.el < 131072 → s.fab.rawOf a.el a.id a.lane = none →
      (s.fab.el a.el).pendOf a.id = some p → p.phase = 0 → p.op = 0x9D →
      p.isMx = false → p.store = true → p.fail = false → a.fail = true → a.lane < p.args.length → 1 < p.left →
      (s.fab.el a.el).residentOf p.set.ctx = some r →
      Becomes (.memoryAnswer a) s ((s.fab.modEl a.el fun e => e.setFail p.set.ctx
          ⟨min (r.fail.count + 1) 255, r.fail.causes ||| ((1 : BitVec 3) <<< (a.cause.toNat - 1)), if r.fail.count = 0 then a.cause else r.fail.first,
            if r.fail.count = 0 then BitVec.ofNat 48 (p.args.getD a.lane 0).toNat else r.fail.addr⟩).putPend a.el
        { p with fail := true, cause := a.cause, vals := p.vals.set a.lane a.val, left := p.left - 1 }))
    ∧ (∀ (s : State) (q : Req) (k : Cause) (info : Word) (p : Pend), s.fab.rawOf q.el q.id q.lane = none → (s.fab.el q.el).pendOf q.id = some p → isFatik q.el = false →
      p.op ≠ 0xA2 → isOrdered p.op = false → (∀ x ∈ s.fab.dies, (q, k, info) ∉ x.2.park) →
      Becomes (.faultAnswer q k info) s ((s.fab.modEl q.el fun e => e.setPend { p with accs := p.accs ++ [⟨q.lane, .trap, k, info, true, some q⟩] }).report
        q.el p.set.ctx (recordLanes p.set.tag k q.el p.set.slot true info 0)))
    ∧ (∀ (s : State) (q : Req) (p : Pend), (s.fab.el q.el).pendOf q.id = some p →
      Becomes (.retryAnswer q) s (s.fab.modEl q.el fun e => e.setPend { p with accs := p.accs ++ [⟨q.lane, .queue, .stalled, 0, true, some q⟩] }))
    ∧ (∀ (s : State) (el route : Nat), ∃ rs, Becomes (.routeSetup el route) s (s.fab.modEl el fun e => { e with routes := rs })
      ∧ ∀ k, k ∈ rs ↔ k = route ∨ k ∈ (s.fab.el el).routes)
    ∧ (∀ (s : State) (dst win : Nat) (q : Req) (p : Pend), Local s.fab q → (s.fab.el q.el).pendOf q.id = some p → (s.fab.el q.el).routeHeld q.id q.route = false →
      s.fab.written dst = false →
      let w := tget (0 : Word) (s.fab.el dst).wins win
      let a := winBase w + q.addr
      winRole w = 5 → q.addr < winLen w → (dst = q.el ∨ s.fab.blkAllows (blockOf dst) q.part q.priv q.ukind 0 = true) → q.op = .load → p.left ≠ 0 →
      (∀ k ∈ p.onLanes, a + k * p.bytes + p.bytes ≤ winBase w + winLen w ∧ PlainAt (s.fab.el dst) (a + k * p.bytes) p.bytes) →
      Becomes (.routeAccess dst win q) s (((s.fab.setEl dst (s.fab.el dst)).putPend q.el { p with cur := 1 }).postAll
        (p.onLanes.map fun k => answerOf q k (w64 ((s.fab.el dst).mem.readN (a + k * p.bytes) p.bytes)))))
    ∧ (∀ (s : State) (q : Req) (m a : Nat), Local s.fab q → s.fab.stripeAt q.el (q.addr % 2 ^ 40) = some (m, a) → q.op = .load →
      s.fab.written m = false →
      (m = q.el ∨ s.fab.blkAllows (blockOf m) q.part q.priv q.ukind (if q.eng then 3 else 0) = true) → PlainAt (s.fab.el m) a q.bytes →
      Becomes (.stripeAccess q) s ((s.fab.setEl m (s.fab.el m)).post (answerOf q q.lane (w64 ((s.fab.el m).mem.readN a q.bytes)))))
    ∧ (∀ (s : State) (el : Nat) (q : Req) (r : List Req) (op : Byte) (x : Fmt), Local s.fab q → (s.fab.el el).rmw = q :: r → q.op = .atomic op x → x ≠ .f32 →
      x.isInt = true → q.bytes = x.width / 8 → q.addr % q.bytes = 0 → q.addr + q.bytes ≤ Config.elemBytes → (s.fab.el el).windowAt q.addr = none →
      let old := w64 ((s.fab.el el).mem.readN q.addr q.bytes)
      ∃ new : DWord, AtomicIs op x old q.data q.cmp new ∧ Becomes (.rmwComplete el) s
        ((s.fab.setEl el ((writtenBy op x q old new { s.fab.el el with rmw := r }).wake fun y => y.reason == .rmw)).post (answerOf q q.lane old)))
    ∧ (∀ (s : State) (bk : Nat) (x : WaveAcc) (p : Pend), (∀ y ∈ s.fab.els, ∀ p ∈ y.2.pend, p.phase ≠ 3001) →
      (s.fab.blk bk).buffer.find? (waveReady s.fab (s.fab.blk bk)) = some x → (s.fab.el x.el).pendOf x.id = some p → ∃ g : Fabric,
        Becomes (.waveRelease bk) s ((performReleased g x.el p).askRelease x.el)
        ∧ (g.blk bk).buffer = (s.fab.blk bk).buffer.erase x ∧ ∀ k, (g.el k).pend = (s.fab.el k).pend ∧ (g.el k).mem = (s.fab.el k).mem)

/-- R208, R224, R225, R398, R439, R440: a stream's or copy's command takes a place of its engine; the copy then sends a piece at a time, and its
last written piece ends it with its length; each completed lane of a stream counts once, and its last ends it. A Fatik element takes a
command as a token for its slot 0, and loads an accepted image once it is idle. Readings of the model's own: logs 34 and 35. -/
def Obligations.EngineEvents : Prop :=
  (∀ (s : State) (el id : Nat) (p : Pend), (s.fab.el el).pendOf id = some p → p.phase = 40 → PlaceFree s.fab el p →
      Becomes (.indirectStreamCommand el id) s (pumpStream (s.fab.putPend el { p with cnt := 0, cur := 0, phase := 41 }) el p.id))
    ∧ (∀ (s : State) (el id k : Nat) (p : Pend), (s.fab.el el).pendOf id = some p → p.cur.testBit k = false → 1 < p.left → p.op ≠ 0xA0 →
      Becomes (.indirectLaneComplete el id k) s (pumpStream (s.fab.putPend el { p with cur := p.cur ||| 2 ^ k, left := p.left - 1 }) el id))
    ∧ (∀ (s : State) (el id : Nat) (p : Pend), (s.fab.el el).pendOf id = some p → p.phase = 40 → PlaceFree s.fab el p →
      Becomes (.copyCommand el id) s ((s.fab.putPend el { p with phase := 41 }).post (.copyCommand el p.id)))
    ∧ (∀ (s : State) (el id : Nat) (p : Pend), (s.fab.el el).pendOf id = some p → p.phase = 41 → p.cur < p.pieces → p.gaveUp = false →
      s.fab.copyPeer p = false → Becomes (.copyCommand el id) s
        (((s.fab.putPend el { p with cur := p.cur + 1 }).post (.copyPieceComplete el id p.cur)).post (.copyCommand el id)))
    ∧ (∀ (s : State) (el id : Nat) (p : Pend) (g h : Fabric) (dst : CopyAt), (s.fab.el el).pendOf id = some p → p.op = 0xA2 → p.phase = 41 →
      p.args = [8, 1] → p.cnt = 0 → p.vals = [] → p.accs = [] → copyAt s.fab el p p.b 0 true = (g, .ok dst) → dst ≠ .peer →
      copyWrite g el p dst 0 = .ok h →
      ∃ q : Pend, Becomes (.copyPieceComplete el id 0) s ((complete h el q (memOuts q)).freePlaces (h.partOf el)) ∧ q.id = p.id ∧ q.args = [8, 1] ∧ q.cnt = 1)
    ∧ (∀ (s : State) (sd n : Nat) (q : Req) (pl : List DWord), s.fab.linkDead sd = false → s.fab.dieAllows sd q.part q.priv q.ukind 3 = true →
      s.fab.fatikOpen sd n = true →
      Becomes (.engineCommand sd n q pl) s ((s.fab.modEl (fatikKey sd n) fun e => { e with cmds := e.cmds ++ [(q, pl)] }).post
        (.tokenArrive (fatikKey sd n) .packet ⟨mkHdr 0 0 0 false 7 4 0 true false false false, 15,
          w64 ((((s.fab.el (fatikKey sd n)).slots.head?.map (·.2.ctx)).getD 0) * 2 ^ 56),
          [pl.getD 0 0, pl.getD 1 0, pl.getD 2 0, w64 (fld (pl.getD 3 0) 31 0)]⟩)))
    ∧ (∀ (s : State) (sd n : Nat) (img : Image), (s.fab.el (fatikKey sd n)).idle = true → bit (s.fab.bd sd (0x228 + n)) 0 = true →
      s.fab.readImage (s.fab.partOfStack sd) (fld (s.fab.bd sd (0x228 + n)) 56 7 * 128) = some img → loadCheck s.fab (fatikKey sd n) img img.priv = 0 →
      ∃ x : Element, Becomes (.fatikImageLoad sd n) s ((s.fab.setEl (fatikKey sd n) x).freePlaces (s.fab.partOfStack sd))
        ∧ x.imageOf img.ctx = img ∧ x.halted = false ∧ x.ready = [] ∧ x.store = [] ∧ x.mem = (s.fab.el (fatikKey sd n)).mem
        ∧ x.acc = (s.fab.el (fatikKey sd n)).acc ∧ x.wins = (s.fab.el (fatikKey sd n)).wins)

/-- R247, R249, R250, R251, R252, R255, R281, R447: a barrier with an arrival at every enrolled tap advances Φ, clears the arrivals and sends
every waiting set on with Φ; without one nothing changes. A clean second wave of a QUIET line declares, a dirty one starts over, and each
waiting set counts the waves since its own start. A pod root declares at two clean pod waves with equal sums; a package's report is kept
with the pod wave at which it came; a declaration ends its line's waves unless a pass of FIXQ is still to be reported, and starts the pass
of each FIXQ that waits. A pass of FIXQ sends its set on with whether no relation of the stratum changed. Readings of the model's own: logs
14, 15 and 24. -/
def Obligations.LineEvents : Prop :=
  (∀ (s : State) (n : Nat), lineV (s.fab.rootLine n) = true → lineMode (s.fab.rootLine n) = 0 → s.fab.taps n ≠ [] →
      (∀ el ∈ s.fab.taps n, bit (s.fab.el el).arrived n = true) → ∃ u : Fabric, Becomes (.barrierRelease n) s u
        ∧ (u.root n).phi = (s.fab.root n).phi + 1
        ∧ (∀ el, s.fab.partOf el = linePart (s.fab.rootLine n) → u.el el = (s.fab.el el).released n ((s.fab.root n).phi + 1))
        ∧ u.blks = s.fab.blks ∧ u.dies = s.fab.dies ∧ u.agenda = s.fab.agenda)
    ∧ (∀ (s : State) (n el : Nat), el ∈ s.fab.taps n → bit (s.fab.el el).arrived n = false → Becomes (.barrierRelease n) s s.fab)
    ∧ (∀ (e : Element) (n : Nat) (phi : BitVec 16) (x : Parked), e.parked = [x] → x.reason = .lode → x.on = n → x.set.note = 1 →
      (e.enrolled n = true → bit (e.released n phi).arrived n = false)
      ∧ (e.released n phi).parked = [] ∧ (e.released n phi).ready = insertSet { x.set with note := 6, arg := phi.setWidth 64 } e.ready)
    ∧ (∀ (s : State) (n : Nat), (s.fab.root n).running = true → lineV (s.fab.rootLine n) = true → lineMode (s.fab.rootLine n) = 1 →
      s.fab.waveDirty n = false → 1 ≤ (s.fab.root n).clean → ∃ g : Fabric, Becomes (.lodeWave n) s (g.declare n fun k => (s.fab.root n).waves + 1 - k)
        ∧ g.els = s.fab.els ∧ g.agenda = s.fab.agenda ∧ (g.root n).decl = (s.fab.root n).decl)
    ∧ (∀ (s : State) (n : Nat), (s.fab.root n).running = true → lineV (s.fab.rootLine n) = true → lineMode (s.fab.rootLine n) = 1 →
      s.fab.waveDirty n = true → s.fab.declWanted n = true → ∃ u : Fabric, Becomes (.lodeWave n) s u
        ∧ (u.root n).clean = 0 ∧ (u.root n).waves = (s.fab.root n).waves + 1 ∧ (u.root n).running = true
        ∧ u.agenda = s.fab.agenda ++ [.lodeWave n] ∧ u.els = s.fab.els)
    ∧ (∀ (s : State) (n : Nat) (x : Report), (s.fab.root n).running = true → lineMode (s.fab.rootLine n) = 2 → (s.fab.root n).members = [] →
      tfind (s.fab.root n).reports s.fab.pkg = some x → x.clean = true → x.pass = none → x.sent = x.recv → 1 ≤ (s.fab.root n).podClean →
      (s.fab.root n).podSums = some (x.sent, x.recv) → ∃ g : Fabric, Becomes (.podWave n) s (g.declare n fun k => (s.fab.root n).podWaves + 1 - k) ∧ g.els = s.fab.els)
    ∧ (∀ (s : State) (r : Report), r.pass = none → lineMode (s.fab.rootLine r.line) ≠ 2 → (tfind (s.fab.root r.line).reports r.pkg).bind (·.pass) = none →
      Becomes (.reportFrame r) s (s.fab.modRoot r.line fun x =>
        { x with reports := tset x.reports r.pkg r, firsts := tset x.firsts r.pkg (tget [] x.firsts r.pkg ++ [x.podWaves]) }))
    ∧ (∀ (s : State) (n num : Nat), lineV (s.fab.rootLine n) = true → lineMode (s.fab.rootLine n) = 2 → num < 2 ^ 64 → ∃ u : Fabric, Becomes (.declareFrame n num) s u
        ∧ (u.root n).decl = (s.fab.root n).decl + 1
        ∧ (∀ el, ∀ p ∈ (s.fab.el el).parked, waitsDecl n p = true → s.fab.partOf el = linePart (s.fab.rootLine n) →
          Sys2Proof.fieldOp (Image.instr ((s.fab.el el).imageOf p.set.ctx) p.set.slot) ≠ 0xC4 → .fixqPass el p.set.stamp ∈ u.agenda)
        ∧ if (s.fab.root n).pass = none then (u.root n).running = false ∧ .lodeWave n ∉ u.agenda
          else (u.root n).running = true ∧ (u.root n).pass = (s.fab.root n).pass ∧ ∀ e ∈ s.fab.agenda, e ∈ u.agenda)
    ∧ (∀ (s : State) (el stamp : Nat) (p : Parked),
      (s.fab.el el).parked.find? (fun p => p.reason == .lode && decide (p.set.note = 7) && decide (p.set.stamp = stamp)) = some p →
      let ctl := Image.lit ((s.fab.el el).imageOf p.set.ctx) (p.set.slot % 16)
      lineMode (s.fab.rootLine (fld ctl 13 8)) ≠ 2 →
      Becomes (.fixqPass el stamp) s (s.fab.modEl el fun e => { e with
        parked := e.parked.erase p
        ready := insertSet { p.set with note := 6, arg := w64 (s.fab.changePass (fld ctl 13 8) (fld ctl 19 16)).toNat } e.ready }))

/-! ## Events of relations and edge programs -/

namespace Sys2Proof.Machine

/-- The record p of a firing takes its next step. -/
def Stepping (f : Fabric) (el id : Nat) (p : Pend) : Prop := (f.el el).pendOf id = some p ∧ p.grant = false ∧ p.phase ≠ endedPhase

/-- Member m of the relation r that the record names is x, open to the issuer (R273, R398). -/
def AtPart (f : Fabric) (el : Nat) (p : Pend) (r : Rel) (m : Nat) (x : Member) : Prop :=
  f.rel (f.partOf el) p.base = some r ∧ f.member r m = some x ∧ f.engineMay el x.el p = true

/-- Member m of a relation of an edge program is x, open to the issuer. -/
def AtSide (f : Fabric) (el : Nat) (p : Pend) (r : Rel) (m : Nat) (x : Member) : Prop := f.member r m = some x ∧ f.engineMay el x.el p = true

/-- The entries that a scan reports (R276): RULE the live ones of the round, or with b = 1 those of the round that are retracted or
suspect; TREDR every live one. -/
def Reported (p : Pend) (e : Ent) (rounds : Nat) : Prop :=
  (p.op = 0xD3 ∧ e.live = true) ∨ (p.op = 0xC9 ∧ p.b = 0 ∧ e.live = true ∧ e.delta rounds = true)
    ∨ (p.op = 0xC9 ∧ p.b = 1 ∧ e.used = true ∧ (e.retr = true ∨ e.susp = true) ∧ e.delta rounds = true)

/-- The key that a record carries to its home (R277, R278). -/
def heldKey (p : Pend) : Ent := ⟨p.vals.getD 0 0, p.vals.getD 1 0, BitVec.ofNat 32 (p.vals.getD 2 0).toNat, 0, 0⟩
/-- The key of a probe, without a weight. -/
def heldProbe (p : Pend) : Ent := ⟨p.vals.getD 0 0, p.vals.getD 1 0, 0, 0, 0⟩

/-- The two keys are the same tuple's. -/
def sameTuple (k : Ent) (y : Nat × Ent) : Bool := decide (y.2.k0 = k.k0) && decide (y.2.k1 = k.k1)

/-- The entries that answer a probe (R277): live ones of earlier rounds, for TPROBE.D those of this round too, for TPROBE.ALL all. -/
def answers (op : Nat) (rounds : Nat) (e : Ent) : Bool :=
  if op = 0xCD then true else e.live && ((e.old rounds) || (decide (op = 0xCC) && e.delta rounds))

/-- The descriptor's relations, as the record of an edge program names them. -/
def SidesAre (f : Fabric) (el : Nat) (p : Pend) (u e' v : Rel) : Prop := edgeRels f el p = some (u, e', v)

end Sys2Proof.Machine

/-- R268, R269, R270, R274, R277, R278, R279: an insertion derives its weight from its parents, sends SAME where it has none, and else asks the
home; there a new tuple is written with status USED and stamp NEXT and counted, a better weight replaces the old, and an equal or worse one
answers SAME. A deletion retracts the named tuple with stamp NEXT. A probe reads its tuple, asks the home of the key, and sends every
answering entry of the chain in order and their count; TNOT sends 1 where none is live. Readings of the model's own: log 25. -/
def Obligations.TupleEvents : Prop :=
  (∀ (s : State) (el id : Nat) (p : Pend) (r : Rel), Stepping s.fab el id p → s.fab.rel (s.fab.partOf el) p.base = some r → p.phase = 0 →
      s.fab.refMay el p p.a.toNat = true → s.fab.refMay el p p.b.toNat = true →
      let p1 := s.fab.entOf (s.fab.partOf el) p.a.toNat
      let p2 := s.fab.entOf (s.fab.partOf el) p.b.toNat
      (p1.live = false → Becomes (.tupleInsertAtHome el id) s (complete s.fab el p (answerOuts p 0 noRef)))
      ∧ (p1.live = true → p.b.toNat = noRef → (r.alg = 0 → p1.wt ≠ 0) → let k := headKey (p.args.map (·.toNat)) p1 p2
        Becomes (.tupleInsertAtHome el id) s ((s.fab.putPend el
          { p with phase := 1, vals := [k.1, k.2, p1.wt.setWidth 64, w64 (p.a.toNat * 2 ^ 32 + noRef)] }).post (.tupleInsertAtHome el id))))
    ∧ (∀ (s : State) (el id j : Nat) (p : Pend) (r : Rel) (x : Member), let m := homeMember r (heldKey p)
      Stepping s.fab el id p → AtPart s.fab el p r m x → p.phase = 1 →
      s.fab.relClosed x = false → (s.fab.chainOf r x (heldKey p)).1.find? (sameTuple (heldKey p)) = none → (s.fab.chainOf r x (heldKey p)).2 = some j →
      (s.fab.relHdr x 2).toNat < 7 * x.cap / 8 → badW r.alg (heldKey p).wt = false → (s.fab.el x.el).mem.wf = true → ∃ u : Fabric,
        Becomes (.tupleInsertAtHome el id) s (complete u el p (answerOuts p 1 (mkRef r m j)))
        ∧ (u.ent x j).k0 = (heldKey p).k0 ∧ (u.ent x j).k1 = (heldKey p).k1 ∧ (u.ent x j).wt = (heldKey p).wt ∧ (u.ent x j).wit = p.vals.getD 3 0
        ∧ (u.ent x j).used = true ∧ (u.ent x j).retr = false ∧ (u.ent x j).susp = false ∧ (u.ent x j).stamp = (s.fab.rounds x + 1) % 4
        ∧ u.relHdr x 2 = s.fab.relHdr x 2 + 1 ∧ u.relHdr x 3 = s.fab.relHdr x 3 + 1 ∧ u.relHdr x 1 = s.fab.relHdr x 1
        ∧ (∀ k, k ≠ j → u.ent x k = s.fab.ent x k) ∧ ∀ k, k ≠ x.el → u.el k = s.fab.el k)
    ∧ (∀ (s : State) (el id j : Nat) (p : Pend) (r : Rel) (x : Member) (e : Ent), let m := homeMember r (heldKey p)
      Stepping s.fab el id p → AtPart s.fab el p r m x → p.phase = 1 → s.fab.relClosed x = false → r.alg = 0 →
      (s.fab.chainOf r x (heldKey p)).1.find? (sameTuple (heldKey p)) = some (j, e) → e.retr = false → e.susp = false → (s.fab.el x.el).mem.wf = true →
      (e.wt ||| (heldKey p).wt = e.wt → Becomes (.tupleInsertAtHome el id) s (complete s.fab el p (answerOuts p 0 (mkRef r m j))))
      ∧ (e.wt ||| (heldKey p).wt ≠ e.wt → ∃ u : Fabric, Becomes (.tupleInsertAtHome el id) s (complete u el p (answerOuts p 2 (mkRef r m j)))
        ∧ (u.ent x j).wt = e.wt ||| (heldKey p).wt ∧ (u.ent x j).stamp = (s.fab.rounds x + 1) % 4 ∧ u.relHdr x 3 = s.fab.relHdr x 3 + 1
        ∧ u.relHdr x 2 = s.fab.relHdr x 2 ∧ u.relHdr x 1 = s.fab.relHdr x 1
        ∧ (u.ent x j).k0 = e.k0 ∧ (u.ent x j).k1 = e.k1 ∧ (u.ent x j).wit = p.vals.getD 3 0
        ∧ (∀ k, k ≠ j → u.ent x k = s.fab.ent x k) ∧ ∀ k, k ≠ x.el → u.el k = s.fab.el k))
    ∧ (∀ (s : State) (el id j : Nat) (p : Pend) (r : Rel) (x : Member), Stepping s.fab el id p → p.fin = 6 →
      s.fab.refAt (s.fab.partOf el) p.a.toNat = some (r, x, j) → s.fab.engineMay el x.el p = true → s.fab.relClosed x = false →
      (s.fab.el x.el).mem.wf = true → let e := s.fab.ent x j
      (e.used = false ∨ e.retr = true → Becomes (.tupleDeleteAtHome el id) s (complete s.fab el p (answerOuts p 0 p.a.toNat)))
      ∧ (e.used = true → e.retr = false → ∃ u : Fabric, Becomes (.tupleDeleteAtHome el id) s (complete u el p (answerOuts p 4 p.a.toNat))
        ∧ (u.ent x j).retr = true ∧ (u.ent x j).susp = false ∧ (u.ent x j).used = true ∧ (u.ent x j).stamp = (s.fab.rounds x + 1) % 4
        ∧ (u.ent x j).k0 = e.k0 ∧ (u.ent x j).k1 = e.k1 ∧ (u.ent x j).wt = e.wt ∧ (u.ent x j).wit = e.wit
        ∧ u.relHdr x 3 = s.fab.relHdr x 3 + 1 ∧ u.relHdr x 1 = s.fab.relHdr x 1 ∧ u.relHdr x 2 = s.fab.relHdr x 2
        ∧ (∀ k, k ≠ j → u.ent x k = s.fab.ent x k) ∧ ∀ k, k ≠ x.el → u.el k = s.fab.el k))
    ∧ (∀ (s : State) (el id : Nat) (p : Pend) (r : Rel), Stepping s.fab el id p → s.fab.rel (s.fab.partOf el) p.base = some r → p.phase = 0 →
      s.fab.refMay el p p.a.toNat = true → (s.fab.entOf (s.fab.partOf el) p.a.toNat).used = false →
      (p.op ≠ 0xCE → p.op ≠ 0xD5 → Becomes (.probeAtHome el id) s (complete s.fab el p [p.raw p.e 0]))
      ∧ (p.op = 0xCE → Becomes (.probeAtHome el id) s
          (complete s.fab el p [p.raw p.d (w64 (p.a.toNat * 2 ^ 32 + noRef)), p.raw p.e 1])))
    ∧ (∀ (s : State) (el id : Nat) (p : Pend) (r : Rel) (x : Member), let m := homeMember r (heldProbe p)
      Stepping s.fab el id p → AtPart s.fab el p r m x → p.phase = 1 → p.op ∈ [0xCB, 0xCC, 0xCD] →
      let hits := (s.fab.chainOf r x (heldProbe p)).1.filter fun y =>
        (r.keyCols.all fun c => decide (y.2.col c = (heldProbe p).col c)) && answers p.op (s.fab.rounds x) y.2
      Becomes (.probeAtHome el id) s (complete s.fab el p
        (hits.map (fun y => p.raw p.d (w64 (p.a.toNat * 2 ^ 32 + mkRef r m y.1))) ++ [p.raw p.e (w64 hits.length)])))
    ∧ (∀ (s : State) (el id : Nat) (p : Pend) (r : Rel) (x : Member), let m := homeMember r (heldProbe p)
      Stepping s.fab el id p → AtPart s.fab el p r m x → p.phase = 1 → p.op = 0xCE → s.fab.relClosed x = true →
      (∀ y ∈ (s.fab.chainOf r x (heldProbe p)).1, (∀ c, c < r.arity → y.2.col c = (heldProbe p).col c) → y.2.live = false) →
      Becomes (.probeAtHome el id) s (complete s.fab el p [p.raw p.d (w64 (p.a.toNat * 2 ^ 32 + noRef)), p.raw p.e 1]))

/-- R271, R275, R276, R280, R282, R283, R290: RBIND empties each member and writes its header, then ends. A scan takes one slot, sends the
reference of a reported entry, and ends with the count. A sweep step takes four entries and moves stamps of two rounds ago on. A member
advances its round once its sweep has ended, and closes with its suspect entries retracted. A gradient walk passes over references that name
nothing, adds at base tuples, and goes on to a witness's parents. Readings of the model's own: log 25. -/
def Obligations.MemberEvents : Prop :=
  (∀ (s : State) (el id n x : Nat) (p : Pend), Stepping s.fab el id p → let r : Rel := p.args
      n < r.members → r.memberEl n = some x → let w := tget (0 : Word) (s.fab.el x).wins r.win
      winRole w = 4 → s.fab.engineMay el x p = true → (s.fab.el x).mem.wf = true → ∃ u : Fabric, Becomes (.rbindMember el id n) s u
        ∧ let y : Member := ⟨x, winBase w, relCap w⟩
        u.relHdr y 0 = w64 (r.no * 2 ^ 56 + n * 2 ^ 46 + relCap w * 2 ^ 32 + 2 ^ 30) ∧ (∀ i, 1 ≤ i → i ≤ 4 → u.relHdr y i = 0)
        ∧ (∀ j, j < relCap w → u.ent y j = Ent.none) ∧ (n = 0 → tfind u.rels (s.fab.partOf el * 256 + r.no) = some r)
        ∧ u.agenda = s.fab.agenda ++ [.rbindMember el id (n + 1)] ∧ ∀ k, k ≠ x → u.el k = s.fab.el k)
    ∧ (∀ (s : State) (el id n : Nat) (p : Pend), Stepping s.fab el id p → let r : Rel := p.args
      r.members + r.ninit ≤ n → r.dual = false → Becomes (.rbindMember el id n) s (complete s.fab el p (rbindOuts p)))
    ∧ (∀ (s : State) (el id : Nat) (p : Pend) (r : Rel) (x : Member), Stepping s.fab el id p → AtPart s.fab el p r p.a.toNat x →
      p.op = 0xC9 ∨ p.op = 0xD3 → p.b = 0 ∨ p.b = 1 →
      (x.cap ≤ p.cur → Becomes (.relationScanVisit el id) s (complete s.fab el p (p.outs ++ [p.raw p.e (w64 p.cnt)])))
      ∧ (p.cur < x.cap → Reported p (s.fab.ent x p.cur) (s.fab.rounds x) → let q : Pend := { p with cur := p.cur + 1, cnt := p.cnt + 1 }
        Becomes (.relationScanVisit el id) s
          ((emitNow (s.fab.putPend el q) el q (p.raw p.d (w64 (mkRef r p.a.toNat p.cur)))).post (.relationScanVisit el id)))
      ∧ (p.cur < x.cap → ¬ Reported p (s.fab.ent x p.cur) (s.fab.rounds x) →
        Becomes (.relationScanVisit el id) s ((s.fab.putPend el { p with cur := p.cur + 1 }).post (.relationScanVisit el id))))
    ∧ (∀ (s : State) (el win : Nat), let w := tget (0 : Word) (s.fab.el el).wins win
      let x : Member := ⟨el, winBase w, relCap w⟩
      let left := min (s.fab.relHdr x 4).toNat x.cap
      winRole w = 4 → left ≠ 0 → (s.fab.el el).mem.wf = true → ∃ u : Fabric, Becomes (.relationSweepStep el win) s u
        ∧ (∀ j, u.ent x j = let e := s.fab.ent x j
          if x.cap - left ≤ j ∧ j < x.cap - left + min 4 left ∧ e.used = true ∧ e.stamp = (s.fab.rounds x + 2) % 4
          then { e with st := setFld e.st 1 0 (s.fab.rounds x + 3) } else e)
        ∧ u.relHdr x 4 = w64 (left - min 4 left) ∧ (∀ i, i < 4 → u.relHdr x i = s.fab.relHdr x i)
        ∧ u.agenda = s.fab.agenda ++ (if left ≤ 4 then [] else [.relationSweepStep el win]) ∧ ∀ k, k ≠ el → u.el k = s.fab.el k)
    ∧ (∀ (s : State) (el id m : Nat) (p : Pend) (r : Rel) (x : Member), Stepping s.fab el id p → AtPart s.fab el p r m x → s.fab.relHdr x 4 = 0 →
      (s.fab.el x.el).mem.wf = true →
      let n := s.fab.relHdr x 1 + 1
      let g := (((s.fab.setHdr x 1 n).setHdr x 3 0).setHdr x 4 (w64 x.cap)).post (.relationSweepStep x.el r.win)
      (p.left = 1 → Becomes (.roundAtMember el id m) s (complete g el { p with left := 0, a := n } [p.raw p.d n, p.ordOut p.e]))
      ∧ (1 < p.left → Becomes (.roundAtMember el id m) s (g.putPend el { p with left := p.left - 1, a := n }))
      ∧ g.relHdr x 1 = n ∧ g.relHdr x 3 = 0 ∧ g.relHdr x 4 = w64 x.cap ∧ g.relHdr x 0 = s.fab.relHdr x 0 ∧ g.relHdr x 2 = s.fab.relHdr x 2)
    ∧ (∀ (s : State) (el id m : Nat) (p : Pend) (r : Rel) (x : Member), Stepping s.fab el id p → AtPart s.fab el p r m x → p.b = 0 → p.left = 1 →
      (s.fab.el x.el).mem.wf = true →
      ∃ u : Fabric, let n := (List.range x.cap).countP fun j => (s.fab.ent x j).used && (s.fab.ent x j).susp
        Becomes (.closeAtMember el id m) s (complete u el { p with left := 0, cnt := p.cnt + n } [p.raw p.d (w64 (p.cnt + n)), p.ordOut p.e])
        ∧ u.relClosed x = true ∧ (∀ i, 1 ≤ i → i < 5 → u.relHdr x i = s.fab.relHdr x i) ∧ (∀ k, k ≠ x.el → u.el k = s.fab.el k)
        ∧ ∀ j, j < x.cap → u.ent x j = let e := s.fab.ent x j
          if e.used = true ∧ e.susp = true then { e with st := setFld (setFld e.st 3 3 0) 2 2 1 } else e)
    ∧ (∀ (s : State) (el id m : Nat) (p : Pend) (r : Rel) (x : Member), Stepping s.fab el id p → AtPart s.fab el p r m x → p.b = 1 → p.left = 1 →
      (s.fab.el x.el).mem.wf = true →
      ∃ u : Fabric, Becomes (.closeAtMember el id m) s (complete u el { p with left := 0 } [p.raw p.d (w64 p.cnt), p.ordOut p.e])
        ∧ u.relClosed x = false ∧ (∀ j, u.ent x j = s.fab.ent x j) ∧ ∀ k, k ≠ x.el → u.el k = s.fab.el k)
    ∧ (∀ (s : State) (el id : Nat) (p : Pend) (ref g depth : DWord) (rest : List DWord), Stepping s.fab el id p → p.args = ref :: g :: depth :: rest →
      depth ≠ 64 → s.fab.refMay el p ref.toNat = true →
      let next := fun (l : List DWord) => (s.fab.putPend el { p with args := l }).post (.gradientStep el id)
      (s.fab.refAt (s.fab.partOf el) ref.toNat = none → Becomes (.gradientStep el id) s (next rest))
      ∧ (∀ (r : Rel) (x : Member) (j : Nat), s.fab.refAt (s.fab.partOf el) ref.toNat = some (r, x, j) → (s.fab.ent x j).used = true →
        ((s.fab.ent x j).wit = 0xFFFFFFFFFFFFFFFF → r.gbase = 0 → Becomes (.gradientStep el id) s (next rest))
        ∧ ((s.fab.ent x j).wit ≠ 0xFFFFFFFFFFFFFFFF → r.alg = 3 →
          Becomes (.gradientStep el id) s (next ([w64 (fld (s.fab.ent x j).wit 63 32), g, depth + 1]
            ++ (if fld (s.fab.ent x j).wit 31 0 = noRef then [] else [w64 (fld (s.fab.ent x j).wit 31 0), g, depth + 1]) ++ rest)))))
    ∧ (∀ (s : State) (el id : Nat) (p : Pend), Stepping s.fab el id p → p.args = [] → p.left = 1 →
      Becomes (.gradientStep el id) s (settle s.fab el { p with left := 0, outs := [p.raw p.d (w64 p.cnt), p.ordOut p.e] }))

/-- R294, R296, R298: a push takes one source slot, sends the contributions of a live entry of the round along its edges, and ends with its
member; a pull takes one vertex at its owning member and combines its best contribution; a contribution is inserted at its home as a
one-column key with its witness, and counts where it changed something; the last member of EDENS writes the sum and the mode into the
descriptor. Readings of the model's own: log 26. -/
def Obligations.EdgeEvents : Prop :=
  (∀ (s : State) (el id m : Nat) (p : Pend) (u e' v : Rel) (x : Member), Stepping s.fab el id p → SidesAre s.fab el p u e' v →
      AtSide s.fab el p u m x → (s.fab.indexAway e' = false ∨ 70 ≤ p.phase) → let j := (p.vals.getD m 0).toNat
      let q : Pend := { p with vals := p.vals.set m (w64 (j + 1)) }
      (x.cap ≤ j → p.left = 1 →
        Becomes (.pushSourceVisit el id m) s (complete s.fab el { p with left := 0 } [p.raw p.d (w64 p.cnt), p.ordOut p.e]))
      ∧ (j < x.cap → (s.fab.ent x j).live = false ∨ (s.fab.ent x j).delta (s.fab.rounds x) = false →
        Becomes (.pushSourceVisit el id m) s ((s.fab.putPend el q).post (.pushSourceVisit el id m)))
      ∧ (∀ xs cs, j < x.cap → (s.fab.ent x j).live = true → (s.fab.ent x j).delta (s.fab.rounds x) = true →
        indexRow (s.fab.indexGet el p e') e' false ((s.fab.ent x j).col 0) = .ok xs →
        sourceContribs s.fab (s.fab.partOf el) p.args u.alg (s.fab.ent x j) (mkRef u m j) xs = some cs →
        Becomes (.pushSourceVisit el id m) s (((s.fab.putPend el { q with left := p.left + cs.length }).postAll
          (cs.map fun c => .edgeContributionCombine el id c)).post (.pushSourceVisit el id m))))
    ∧ (∀ (s : State) (el id m : Nat) (p : Pend) (u e' v : Rel) (x : Member), Stepping s.fab el id p → SidesAre s.fab el p u e' v →
      AtSide s.fab el p v m x → let i := (p.vals.getD m 0).toNat
      let q : Pend := { p with vals := p.vals.set m (w64 (i + 1)) }
      (e'.nv ≤ i → p.left = 1 →
        Becomes (.pullVertexVisit el id m) s (complete s.fab el { p with left := 0 } [p.raw p.d (w64 p.cnt), p.ordOut p.e]))
      ∧ (i < e'.nv → homeMember v ⟨w64 i, 0, 0, 0, 0⟩ ≠ m → Becomes (.pullVertexVisit el id m) s ((s.fab.putPend el q).post (.pullVertexVisit el id m)))
      ∧ (∀ (x0 : Nat) (xs : List Nat) (c : Contrib) (g : Fabric) (p' : Pend), i < e'.nv → homeMember v ⟨w64 i, 0, 0, 0, 0⟩ = m →
        indexRow (s.fab.indexGet el p e') e' true i = .ok (x0 :: xs) → s.fab.lookup v i = none →
        pullBest s.fab (s.fab.partOf el) p.args u i (x0 :: xs) none = some (some c) → combineAt s.fab el p v c = .ok (g, p') →
        Becomes (.pullVertexVisit el id m) s ((g.putPend el { p' with vals := q.vals }).post (.pullVertexVisit el id m))))
    ∧ (∀ (s : State) (el id code ref : Nat) (c : Contrib) (p : Pend) (u e' v : Rel) (x : Member) (g : Fabric), Stepping s.fab el id p →
      SidesAre s.fab el p u e' v → let key : Ent := ⟨c.key.setWidth 64, 0, c.weight, 0, 0⟩
      AtSide s.fab el p v (homeMember v key) x →
      s.fab.insert (s.fab.partOf el) v (homeMember v key) x key (w64 (c.src.toNat * 2 ^ 32 + c.edge.toNat)) false true (s.fab.rounds x + 1)
        c.src (w32 v.no) p.slotW = .ok (g, code, ref) → 1 < p.left →
      Becomes (.edgeContributionCombine el id c) s
        (g.putPend el { p with cnt := p.cnt + (if code = 0 then 0 else 1), left := p.left - 1 }))
    ∧ (∀ (s : State) (el id m n t : Nat) (p : Pend) (u e' v : Rel) (x : Member), Stepping s.fab el id p → SidesAre s.fab el p u e' v →
      AtSide s.fab el p u m x → (s.fab.indexAway e' = false ∨ 70 ≤ p.phase) → p.phase ≠ countedPhase →
      densityOf s.fab (s.fab.indexGet el p e') e' x (List.range x.cap) = .ok n → s.fab.indexGet el p e' (Rel.idx e') = .ok t →
      (1 < p.left → Becomes (.edensCount el id m) s (s.fab.putPend el { p with left := p.left - 1, cnt := p.cnt + n }))
      ∧ (p.left = 1 → p.b.toNat % 8 = 0 → p.b.toNat + 16 ≤ Config.elemBytes → (s.fab.el el).windowAt p.b.toNat = none →
        (s.fab.el el).windowAt (p.b.toNat + 8) = none → let md := densMode p.a (p.cnt + n) t
        let sum := min (p.cnt + n) 0xFFFFFFFF
        Becomes (.edensCount el id m) s (complete
          (s.fab.modEl el fun y => (y.putWord p.b.toNat (setFld (y.mem.word p.b.toNat) 39 39 md)).putWord (p.b.toNat + 8)
            (setFld (y.mem.word (p.b.toNat + 8)) 63 32 sum)) el { p with left := 0, cnt := p.cnt + n }
          [p.raw p.d (w64 (sum * 2 ^ 32 + (if md = fld p.a 39 39 then 0 else 1) * 2 + md)), p.ordOut p.e])))
    ∧ ∀ (w0 : DWord) (n t : Nat), 0 < t → fld w0 37 36 = 2 →
      (fld w0 39 39 = 0 → densMode w0 n t = if fld w0 31 16 * t ≤ 65536 * n then 1 else 0)
      ∧ (fld w0 39 39 = 1 → densMode w0 n t = if 65536 * n < (fld w0 31 16 - fld w0 15 0) * t then 0 else 1)

/-! ## Events of queues and stages -/

/-- R324, R326, R331, R332, R333, R334, R339: a packet at an aligned offset of the launch window, in form and deliverable, takes one of 64
places; a malformed one is counted as refused and one too many as dropped. The oldest packet of a stage leaves once the posted writes of the
function are complete. An accepted item takes a place and a stamp at its anchor. A stage of one port takes its oldest item and sends every
valid entry with its sequence number, which advances. An entry's token leaves for its element, a successor's item for its anchor. Readings
of the model's own: logs 32 and 45. -/
def Obligations.QueueEvents : Prop :=
  (∀ (s : State) (part off : Nat) (bs : List Byte), off < 0x10000 → s.fab.booted part = true →
      let ws := bytesWords bs
      let l := s.fab.launchOf part
      let q : Item := ⟨part, pktStage (ws.getD 0 0), 0, ws, none, true⟩
      let inForm := off % 256 = 0 ∧ bs.length = 8 * ws.length ∧ ws.length = pktLen (ws.getD 0 0) ∧ pktOk ws = true ∧ s.fab.deliverable (s.fab.launchBlk part) ws = true
      (inForm → l.places.length < 64 → ∃ u : Fabric, Becomes (.hostPacketWrite part off bs) s u
        ∧ (u.launchOf part).places = l.places ++ [q] ∧ (u.launchOf part).refused = l.refused ∧ (u.launchOf part).dropped = l.dropped
        ∧ u.agenda = s.fab.agenda ++ (if ∃ y ∈ l.places, y.stage = q.stage then [] else [.bridgeForward part q.stage]))
      ∧ (inForm → 64 ≤ l.places.length → ∃ u : Fabric, Becomes (.hostPacketWrite part off bs) s u
        ∧ (u.launchOf part).places = l.places ∧ (u.launchOf part).dropped = min (l.dropped + 1) 4095 ∧ u.agenda = s.fab.agenda)
      ∧ (¬ inForm → ∃ u : Fabric, Becomes (.hostPacketWrite part off bs) s u
        ∧ (u.launchOf part).places = l.places ∧ (u.launchOf part).refused = min (l.refused + 1) 4095 ∧ u.agenda = s.fab.agenda))
    ∧ (∀ (s : State) (part stage : Nat) (q : Item), (s.fab.launchOf part).places.find? (fun y => decide (y.stage = stage)) = some q →
      Becomes (.bridgeForward part stage) s
        (s.fab.post (if (s.fab.launchOf part).posted = 0 then .queueAccept q else .bridgeForward part stage)))
    ∧ (∀ (s : State) (q : Item) (x y : Stage), q.host = false → q.asker = none → q.port ≠ 0 ∨ y.fetch = false →
      s.fab.stage (s.fab.launchBlk q.part) q.stage = some x → s.fab.stage x.anchor q.stage = some y → (s.fab.blk y.anchor).saved = false →
      s.fab.hasRoom y q.stage q.port = true →
      Becomes (.queueAccept q) s ((s.fab.modBlk y.anchor fun b =>
        { b with places := b.places ++ [⟨q.stage, q.port, b.accStamp, q.words⟩], accStamp := (b.accStamp + 1) % 2 ^ 64 }).post (.stageFire y.anchor)))
    ∧ (∀ (s : State) (bk : Nat) (h : Place) (x : Stage), (s.fab.blk bk).stopped = false → s.fab.stagePick bk = some h →
      s.fab.stage bk h.stage = some x → x.ports = 1 → x.liveMax = 0 → let n := tget (0 : Word) (s.fab.blk bk).seqs h.stage
      ∃ u : Fabric, Becomes (.stageFire bk) s u
        ∧ (u.blk bk).places = (s.fab.blk bk).places.filter (fun p => decide (p ≠ h)) ∧ tget (0 : Word) (u.blk bk).seqs h.stage = n + 1
        ∧ (∀ y ∈ x.entries, fld y 63 62 = 1 → .stageEntrySend (fld y 53 38) (entryToken y n h.words []) ∈ u.agenda)
        ∧ .stageFire bk ∈ u.agenda ∧ u.els = s.fab.els)
    ∧ (∀ (s : State) (el : Nat) (t : Tok), Becomes (.stageEntrySend el t) s (s.fab.post (.tokenArrive el .packet t)))
    ∧ ∀ (s : State) (q : Item), Becomes (.successorForward q) s (s.fab.post (.queueAccept q))

/-! ## Events of translation, of the host and of the Geode -/

namespace Sys2Proof.Machine

/-- The base die takes the request (R213, R365, R422): the link is up, and no lane of its firing is ahead of it in translation. -/
def Takes (f : Fabric) (sd : Nat) (q : Req) : Prop := f.linkDead sd = false ∧ (f.die sd).laneAhead q = false

/-- A link is up (R422). -/
def LinkUp (f : Fabric) (sd : Nat) : Prop := f.linkDead sd = false

/-- A Geode slice takes the request (R386, R388, R392, R398, R422): it is not withdrawn, the link is up, the table open, no record still to
be written holds it, and the set's entries are without error. -/
def SliceTakes (f : Fabric) (sd : Nat) (g : GReq) : Prop :=
  f.geodeLive sd g = true ∧ f.linkDead sd = false ∧ f.dieAllows sd g.part g.priv (f.geodeKind g) 3 = true ∧ f.reportsHold sd g = false
    ∧ ∀ k, k < 8 → ((f.die sd).way g.set k).errs = 0

/-- The way of the request's set that an entry id names, and its key. -/
def idWay (f : Fabric) (sd : Nat) (g : GReq) : Way := tget Way.reset (f.die sd).ways (idKey g)
where
  /-- The key of the way that an entry id names in the request's set. -/
  idKey (g : GReq) : Nat := wayKey g.set (fld g.eid 35 33)

end Sys2Proof.Machine

/-- R362: the checks in order: an offset without a leaf is PAGE 0, a lost page DATA, a page without U at privilege 0 PAGE 2, a write to a page
without W PAGE 1, a write to a write-protected page waits for its migration. Readings of the model's own: log 34. -/
def Obligations.TranslationChecks : Prop :=
  ∀ (f : Fabric) (q : Req), let o := q.addr % 2 ^ 46
    f.verdict q none = .fault .page (pageInfo 0 o)
    ∧ ∀ (leaf : DWord) (bits : Nat), let v := f.verdict q (some (leaf, bits))
      let writes := ReqOp.writes q.op
      (pteLost leaf = true → v = .fault .data (pageInfo 0 o))
      ∧ (pteLost leaf = false → q.priv = 0 → pteU leaf = false → v = .fault .page (pageInfo 2 o))
      ∧ (pteLost leaf = false → q.priv ≠ 0 ∨ pteU leaf = true → writes = true → pteW leaf = false → v = .fault .page (pageInfo 1 o))
      ∧ (pteLost leaf = false → q.priv ≠ 0 ∨ pteU leaf = true → writes = true → pteW leaf = true → pteWP leaf = true → v = .migrate)
      ∧ (∀ fr, pteLost leaf = false → q.priv ≠ 0 ∨ pteU leaf = true → writes = false ∨ (pteW leaf = true ∧ pteWP leaf = false) →
        f.frameOf q.part leaf bits o = some fr → v = if f.frameMay q fr then .pass fr (pteFE leaf) else .refused)

/-- R354, R359, R360, R364, R365, R368, R369, R444: a TLB hit is used last and its request checked; a miss starts a walk; PTROOT with V clear
maps nothing. A walk reads one level: a next table, a leaf that is installed, or nothing. A store of the aperture takes the next number and
goes to every stack of the partition; each applies the stores in order, drops what used the word, and acknowledges; the last acknowledgment
completes it; a load waits for every store before it. A peer's access goes to the home stack of its partition, a host's as SYS of unit kind
2. Readings of the model's own: logs 32, 34 and 45. -/
def Obligations.TranslationEvents : Prop :=
  (∀ (s : State) (sd : Nat) (q : Req) (e : TlbEntry), Takes s.fab sd q → (s.fab.die sd).tlbHit (q.addr % 2 ^ 46) = some e → q.op ≠ .pref →
      let g := s.fab.modDie sd fun d => { d with tlb := d.tlb.erase e ++ [e] }
      (∀ fr fe, g.verdict q (some (e.leaf, e.bits)) = .pass fr fe → (frameDie sd fr = sd ∨ (q.el, q.oid) ∉ (s.fab.die sd).outst) →
        Becomes (.translationRequest sd q) s (g.post (.channelRequest (frameDie sd fr) fr { q with fe := fe })))
      ∧ (∀ c info, g.verdict q (some (e.leaf, e.bits)) = .fault c info → Becomes (.translationRequest sd q) s (g.faultAt (some sd) q c info)))
    ∧ (∀ (s : State) (sd t : Nat) (q : Req), Takes s.fab sd q → (s.fab.die sd).tlbHit (q.addr % 2 ^ 46) = none → s.fab.rootTable sd = some t →
      (s.fab.die sd).walkQ = [] → (∀ w ∈ (s.fab.die sd).walks, w.piece ≠ q.addr % 2 ^ 46 / 65536) → (s.fab.die sd).walks.length < 64 →
      Becomes (.translationRequest sd q) s ((s.fab.modDie sd fun d =>
        { d with walks := d.walks ++ [⟨q.addr % 2 ^ 46 / 65536, 1, t, [], [q]⟩] }).post (.pageWalkLevel sd)))
    ∧ (∀ (s : State) (sd : Nat) (q : Req), Takes s.fab sd q → (s.fab.die sd).tlbHit (q.addr % 2 ^ 46) = none → s.fab.rootTable sd = none →
      q.op ≠ .pref → Becomes (.translationRequest sd q) s (s.fab.faultAt (some sd) q .page (pageInfo 0 (q.addr % 2 ^ 46))))
    ∧ (∀ (s : State) (sd : Nat) (w : Walk) (rest : List Walk), (s.fab.die sd).walks = w :: rest → (s.fab.rootTable sd).isSome = true →
      let a := w.table + 8 * levelIndex w.level (w.piece * 65536)
      let res := s.fab.walkStep sd (s.fab.partOfStack sd) (w.piece * 65536) w.level w.table
      (∀ t, res = .next t → Becomes (.pageWalkLevel sd) s ((s.fab.modDie sd fun d =>
        { d with walks := rest ++ [{ w with level := w.level + 1, table := t, used := w.used ++ [a] }] }).post (.pageWalkLevel sd)))
      ∧ (∀ x q, res = .leaf x → w.reqs = [q] → (s.fab.die sd).walkQ = [] → let bits := levelBits w.level
        Becomes (.pageWalkLevel sd) s (((s.fab.modDie sd fun d => { d with walks := rest }).modDie sd fun d =>
          d.install ⟨bits, w.piece * 65536 / 2 ^ bits, x, w.used ++ [a]⟩).decideReq sd q (some (x, bits))))
      ∧ (∀ q, res = .none → w.reqs = [q] → (s.fab.die sd).walkQ = [] →
        Becomes (.pageWalkLevel sd) s ((s.fab.modDie sd fun d => { d with walks := rest }).decideReq sd q none)))
    ∧ (∀ (s : State) (sd : Nat) (q : Req), s.fab.sequencer q.part = some sd → LinkUp s.fab sd → s.fab.dieAllows sd q.part q.priv q.ukind 1 = true →
      let st : ApStore := ⟨(s.fab.die sd).apNext, q.addr % 2 ^ 40, q.data, q⟩
      Becomes (.apertureStore q) s ((s.fab.modDie sd fun d =>
        { d with apNext := d.apNext + 1, apAcks := d.apAcks ++ [(st, (s.fab.stacksOf q.part).length)] }).postAll
          ((s.fab.stacksOf q.part).map fun k => .tableApply k st)))
    ∧ (∀ (s : State) (sd q : Nat) (st : ApStore), (s.fab.die sd).apWait = none → s.fab.inFlight = [] →
      s.fab.sequencer (s.fab.partOfStack sd) = some q → (q = sd ∨ (LinkUp s.fab sd ∧ LinkUp s.fab q)) →
      (s.fab.die sd).parCache.length < 4096 → (∀ x ∈ (s.fab.die sd).park, x.2.1 ≠ .stalled) →
      let a := s.fab.apAddr sd st.off
      makesEmpty ((s.fab.die sd).mem.word a) st.val = false → ∃ u : Fabric, Becomes (.tableApply sd st) s u
        ∧ (u.die sd).mem = (s.fab.die sd).mem.setWord a st.val ∧ (u.die sd).tlb = (s.fab.die sd).tlb.filter (fun e => !e.used.contains a)
        ∧ (u.die sd).apDone = (s.fab.die sd).apDone + 1 ∧ u.agenda = s.fab.agenda ++ [.applyAck q st.num])
    ∧ (∀ (s : State) (sd num n : Nat) (st : ApStore), (s.fab.die sd).apAcks.find? (fun x => decide (x.1.num = num)) = some (st, n) →
      (1 < n → Becomes (.applyAck sd num) s
        (s.fab.modDie sd fun d => { d with apAcks := d.apAcks.map fun x => if x.1.num = num then (x.1, x.2 - 1) else x }))
      ∧ (n ≤ 1 → Local s.fab st.q → Becomes (.applyAck sd num) s
        ((s.fab.modDie sd fun d => { d with apAcks := d.apAcks.filter fun x => decide (x.1.num ≠ num) }).post (answerOf st.q st.q.lane 0))))
    ∧ (∀ (s : State) (sd : Nat) (q : Req), s.fab.sequencer q.part = some sd → LinkUp s.fab sd → s.fab.dieAllows sd q.part q.priv q.ukind 0 = true →
      Local s.fab q → Becomes (.apertureLoad q) s (s.fab.post (if s.fab.agenda.any (applies sd) = true then .apertureLoad q
        else answerOf q q.lane ((s.fab.die sd).mem.word (s.fab.apAddr sd (q.addr % 2 ^ 40))))))
    ∧ (∀ (s : State) (port sd : Nat) (q : Req), s.fab.portAllows port q.part q.priv 3 (ReqOp.needs q.op) = true → q.addr % 2 ^ 46 / 2 ^ 40 < 0x3D →
      s.fab.home q.part (q.addr % 2 ^ 46) = some sd →
      Becomes (.peerAccess port q) s (s.fab.post (.translationRequest sd { q with ukind := 3, addr := q.addr % 2 ^ 46 })))
    ∧ (∀ (s : State) (sd : Nat) (q : Req), q.op = .load → q.addr.testBit 46 = false → s.fab.booted q.part = true → s.fab.hostAllows q.part 1 2 0 = true → q.addr % 2 ^ 46 / 2 ^ 40 < 0x3D →
      s.fab.home q.part (q.addr % 2 ^ 46) = some sd → ∃ x : Req, Becomes (.hostBarAccess q) s (s.fab.post (.translationRequest sd x))
        ∧ x.el = hostKey ∧ x.part = q.part ∧ x.priv = 1 ∧ x.ukind = 2 ∧ x.op = .load ∧ x.addr = q.addr % 2 ^ 46 ∧ x.bytes = q.bytes)

/-- R380, R383, R384, R386, R389, R390: CLAIM of a DONE entry answers with its address and sets REF; one that finds the entry in the making
joins its waiters; one without an entry makes it in a free way and answers with its id. FULFIL of the maker publishes it and answers every
waiter, oldest first, and then itself with their number. ABANDON hands a way without waiters back, and one with waiters to the oldest. CLQRY
only looks. CLINV passes a set whose ways are free. The end of a context leaves a way that it was making, free. Readings of the model's own:
log 31. -/
def Obligations.GeodeEvents : Prop :=
  (∀ (s : State) (sd k : Nat) (g : GReq) (w : Way), SliceTakes s.fab sd g → g.op = .claim →
      (s.fab.die sd).holds g.set g.part (g.dig, g.ver, g.fn) = some (k, w) →
      (w.state = 2 → Becomes (.geodeSliceOperation sd g) s ((s.fab.putWay sd (wayKey g.set k) { w with ref := true }).geodeAnswer g.pkg g.part g.el g.id
        w.addr (w64 (2 * 2 ^ 60 + w.cls.toNat * 2 ^ 56 + w.len.toNat))))
      ∧ (w.state ≠ 2 → w.waiters.length < 256 → (s.fab.die sd).waitersUsed < 16384 → Becomes (.geodeSliceOperation sd g) s
        (((s.fab.putWay sd (wayKey g.set k) { w with waiters := w.waiters ++ [⟨g.pkg, g.el, g.id, g.ctx, g.part⟩] }).modDie sd fun d =>
          { d with waitersUsed := d.waitersUsed + 1 }).geodeAnswer g.pkg g.part g.el g.id 0 (w64 (2 ^ 60 + w.cls.toNat * 2 ^ 56)))))
    ∧ (∀ (s : State) (sd k : Nat) (g : GReq), SliceTakes s.fab sd g → g.op = .claim →
      (s.fab.die sd).holds g.set g.part (g.dig, g.ver, g.fn) = none → k < 8 → ((s.fab.die sd).way g.set k).state = 0 →
      (∀ j, j < k → ((s.fab.die sd).way g.set j).state ≠ 0) → let n := ((s.fab.die sd).way g.set k).gen + 1
      Becomes (.geodeSliceOperation sd g) s ((s.fab.putWay sd (wayKey g.set k)
        ⟨g.dig, g.ver, g.fn, 1, g.cls, false, n, g.pkg, g.ctx, g.part, 0, 0, [], 0⟩).geodeAnswer g.pkg g.part g.el g.id
          (s.fab.entryId sd g.set k n) (w64 (g.cls.toNat * 2 ^ 56))))
    ∧ (∀ (s : State) (sd : Nat) (g : GReq), SliceTakes s.fab sd g → sd ∈ s.fab.stacksOf g.part → g.op = .fulfil → let w := idWay s.fab sd g
      w.state = 1 → w.gen.toNat = fld g.eid 15 0 → w.makerPkg = g.pkg → w.makerCtx = g.ctx → w.part = g.part →
      let h := (s.fab.putWay sd (idWay.idKey g) { w with addr := g.addr, len := g.len, state := 2, ref := true, waiters := [] }).modDie sd fun d =>
        { d with waitersUsed := d.waitersUsed - w.waiters.length }
      Becomes (.geodeSliceOperation sd g) s ((w.waiters.foldl (fun (f : Fabric) x => f.geodeAnswer x.pkg x.part x.el x.id g.addr
        (w64 (2 * 2 ^ 60 + w.cls.toNat * 2 ^ 56 + g.len.toNat))) h).geodeAnswer g.pkg g.part g.el g.id (w64 w.waiters.length) 0))
    ∧ (∀ (s : State) (sd : Nat) (g : GReq), SliceTakes s.fab sd g → sd ∈ s.fab.stacksOf g.part → g.op = .abandon → let w := idWay s.fab sd g
      w.state = 1 → w.gen.toNat = fld g.eid 15 0 → w.makerPkg = g.pkg → w.makerCtx = g.ctx → w.part = g.part →
      (w.waiters = [] → Becomes (.geodeSliceOperation sd g) s
        ((s.fab.putWay sd (idWay.idKey g) { w with state := 0 }).geodeAnswer g.pkg g.part g.el g.id 0 0))
      ∧ (∀ x r, w.waiters = x :: r → ∃ h : Fabric, ∃ id : DWord, Becomes (.geodeSliceOperation sd g) s
          ((h.geodeAnswer x.pkg x.part x.el x.id id (w64 (w.cls.toNat * 2 ^ 56))).geodeAnswer g.pkg g.part g.el g.id 1 0)
        ∧ idWay h sd g = { w with gen := w.gen + 1, makerPkg := x.pkg, makerCtx := x.ctx, waiters := r } ∧ h.els = s.fab.els))
    ∧ (∀ (s : State) (sd : Nat) (g : GReq), SliceTakes s.fab sd g → g.op = .clqry → ∃ x y : DWord,
      Becomes (.geodeSliceOperation sd g) s (s.fab.geodeAnswer g.pkg g.part g.el g.id x y)
      ∧ match (s.fab.die sd).holds g.set g.part (g.dig, g.ver, g.fn) with
        | none => x = 0 ∧ y = w64 (4 * 2 ^ 60)
        | some (_, w) => if w.state = 2 then x = w.addr ∧ y = w64 (2 * 2 ^ 60 + w.cls.toNat * 2 ^ 56 + w.len.toNat)
          else x = 0 ∧ y = w64 (5 * 2 ^ 60 + w.cls.toNat * 2 ^ 56 + w.waiters.length))
    ∧ (∀ (s : State) (sd : Nat) (g : GReq), g.op = .clinv → SliceTakes (s.fab.noteClinv sd g) sd g → g.set < 8191 →
      (∀ k, k < 8 → ((s.fab.die sd).way g.set k).state = 0) →
      Becomes (.clinvSetStep sd g) s ((s.fab.noteClinv sd g).post (.clinvSetStep sd { g with set := g.set + 1 })))
    ∧ (∀ (s : State) (sd pkg part ctx key : Nat) (w : Way), (s.fab.die sd).ways = [(key, w)] → w.state = 1 → w.makerPkg = pkg → w.part = part →
      w.makerCtx = ctx → w.waiters = [] → s.fab.agenda.any (claimUnder sd (pkg, part, ctx)) = false → ∃ u : Fabric, Becomes (.contextEndNotice sd pkg part ctx) s u
        ∧ (u.die sd).ways = [(key, { w with state := 0 })] ∧ u.els = s.fab.els)

/-! ## Events of channels and links -/

namespace Sys2Proof.Machine

/-- A channel performs a request at an offset at once (R213, R433): its line has storage in channel ch, the queue has room, no switch
runs, and neither an earlier request of the line, an earlier lane of its firing, nor a predecessor is outstanding. -/
def PortFree (f : Fabric) (sd off ch : Nat) (q : Req) : Prop :=
  f.lineAt sd off ≠ .shadow ∧ f.channelOf sd (f.lineAt sd off) = some ch ∧ ((f.die sd).queued.countP fun x => decide (x.1 = ch)) < 64
    ∧ (f.die sd).switching.contains ch = false ∧ f.predOut sd q = false
    ∧ ∀ x ∈ (f.die sd).queued, sameLine x.2.1 (.stack sd off) = false ∧ (x.1 = ch → x.2.2.firing ≠ q.firing)

end Sys2Proof.Machine

/-- R428, R429, R430, R431, R432, R433, R434, R435, R436, R437: a channel reads a line's bytes, or a line that is not rebuilt as its stripe
gives it, and returns them; it stores and answers. A store to a guarded line changes the parity of its row by what the line changes. A read
of a half with two errors outside the guarded rows counts UE and answers DATA. A waiting request whose predecessor is complete goes on. A
refresh is owed while requests wait and fewer than 8 are owed. A channel steps one rate point down or up, never above CAP, and takes no
request until the switch ends. The patrol moves one line. A retired channel leaves service, takes the next retirement register and the point
3, and RETIRE sends the count that is left; one no longer retirable parks with ILLEGAL. A rebuild rebuilds its row and takes the next
guarded one, or ends. A region's rows are zero when its register reads its new value. Readings of the model's own: logs 34, 35 and 38. -/
def Obligations.ChannelEvents : Prop :=
  (∀ (s : State) (sd' sd off ch : Nat) (q : Req), PortFree s.fab sd off ch q → (s.fab.die sd).errs = [] → q.fe = false → q.op = .load →
      ∃ v, Becomes (.channelRequest sd' (.stack sd off) q) s
          ((s.fab.modDie sd fun d => { d with reads := d.reads ++ [q] }).post (.channelReadReturn sd ⟨q.el, q.id, q.lane, v, true, false, 0⟩))
        ∧ ((∀ c row, s.fab.lineAt sd off = .guarded c row → s.fab.unbuilt sd c row = false) → v = w64 ((s.fab.die sd).mem.readN off q.bytes))
        ∧ ∀ c row, s.fab.lineAt sd off = .guarded c row → s.fab.unbuilt sd c row = true →
          v = w64 (s.fab.rebuilt sd row (off / 64 * 64) / 2 ^ (8 * (off % 64)) % 2 ^ (8 * q.bytes)))
    ∧ (∀ (s : State) (sd' sd off ch : Nat) (q : Req), PortFree s.fab sd off ch q → (s.fab.die sd).errs = [] → q.fe = false → q.op = .store →
      Local s.fab q →
      Becomes (.channelRequest sd' (.stack sd off) q) s
        (((s.fab.memWrite sd off q.bytes q.data.toNat).doneOrder q.el q.oid).post (answerOf q q.lane 0)))
    ∧ (∀ (f : Fabric) (sd off n v : Nat),
      ((∀ c row, f.lineAt sd off ≠ .guarded c row) → ((f.memWrite sd off n v).die sd).mem = (f.die sd).mem.writeN off v n)
      ∧ ∀ c row, f.lineAt sd off = .guarded c row → f.unbuilt sd (row % 32) row = false →
        (f.memWrite sd off n v).parity sd row
          = f.parity sd row ^^^ ((f.memRead sd off n ^^^ v % 2 ^ (8 * n)) * 2 ^ (8 * (off % 64))))
    ∧ (∀ (s : State) (sd' sd off ch : Nat) (q : Req), PortFree s.fab sd off ch q → q.op = .load → Local s.fab q →
      (∀ c row, s.fab.lineAt sd off ≠ .guarded c row) → 2 ≤ (s.fab.die sd).halfErrs off → 0 < q.bytes → off % 32 + q.bytes ≤ 32 →
      Becomes (.channelRequest sd' (.stack sd off) q) s
        (((s.fab.addUE sd).doneOrder q.el q.oid).post (.faultAnswer q .data (s.fab.slotInfo q))))
    ∧ (∀ (s : State) (sd el oid ch : Nat) (fr : Frame) (q : Req), (s.fab.die sd).queued = [(ch, fr, q)] → q.el = el → q.pred = some oid →
      Becomes (.predecessorMark sd el oid) s
        ((s.fab.modDie sd fun d => { d with queued := [(ch, fr, { q with pred := none })] }).resumePort sd ch))
    ∧ (∀ (s : State) (sd : Nat) (a : Ans), a.el < 131072 → (∀ r ∈ s.fab.raws, r.el ≠ a.el) →
      Becomes (.channelReadReturn sd a) s
        (((s.fab.modDie sd fun d => { d with reads := d.reads.eraseP fun q => decide (reqKey q = (a.el, a.id, a.lane)) }).doneOrder a.el
          (64 * a.id + a.lane % 64)).post (.memoryAnswer a)))
    ∧ (∀ (s : State) (sd ch : Nat), ∃ t : Table Nat, Becomes (.refreshDue sd ch) s (s.fab.modDie sd fun d => { d with owed := t })
      ∧ tget 0 t ch = (if (∃ x ∈ (s.fab.die sd).queued, x.1 = ch) ∧ tget 0 (s.fab.die sd).owed ch + 1 < 8
          then tget 0 (s.fab.die sd).owed ch + 1 else 0))
    ∧ (∀ (s : State) (sd ch : Nat), ch < 32 → tget 0 (s.fab.die sd).owed ch < 4 → (s.fab.die sd).switching.contains ch = false →
      let p := s.fab.point sd ch
      let go := fun v : Nat => ((s.fab.setPoint sd ch v).modDie sd fun d => { d with switching := d.switching ++ [ch] }).post (.rateSwitchEnd sd ch)
      (p = 0 ∨ p = 3 → Becomes (.rateStepDown sd ch) s s.fab) ∧ (p = 1 ∨ p = 2 → Becomes (.rateStepDown sd ch) s (go (p - 1)))
      ∧ (s.fab.rateCap sd ≤ p → Becomes (.rateStepUp sd ch) s s.fab) ∧ (p < s.fab.rateCap sd → Becomes (.rateStepUp sd ch) s (go (p + 1)))
      ∧ ∀ v, v < 4 → (go v).point sd ch = v)
    ∧ (∀ (s : State) (sd ch : Nat), (∀ x ∈ (s.fab.die sd).queued, x.1 ≠ ch) → s.fab.point sd ch = 3 ∨ s.fab.point sd ch ≤ s.fab.rateCap sd →
      ∃ u : Fabric, Becomes (.rateSwitchEnd sd ch) s u ∧ (u.die sd).switching = (s.fab.die sd).switching.filter (fun c => decide (c ≠ ch))
        ∧ u.agenda = s.fab.agenda ∧ (u.die sd).queued = (s.fab.die sd).queued ∧ (u.die sd).mem = (s.fab.die sd).mem)
    ∧ (∀ (s : State) (sd : Nat), (s.fab.die sd).errs = [] → Becomes (.patrolStep sd) s (if bit (s.fab.bd sd 0x219) 31 = true
        then s.fab.modDie sd fun d => { d with patrol := (d.patrol + 1) % (32 * s.fab.chanRows) } else s.fab))
    ∧ (∀ (s : State) (sd ch el id : Nat) (p : Pend), ch < 32 → s.fab.mayRetire sd ch = true → (s.fab.die sd).queued = [] → (∀ n, n < 8 → bit (s.fab.bd sd (0x208 + n)) 63 = false) →
      bit (s.fab.bd sd 0x201) 57 = false → (s.fab.el el).pendOf id = some p → ∃ u : Fabric,
        Becomes (.channelRetirement sd ch el id) s (complete u el p [p.raw p.d (w64 ((List.range 32).countP fun c => u.inService sd c)), p.ordOut p.e])
        ∧ u.inService sd ch = false ∧ (∀ c, c < 32 → c ≠ ch → u.inService sd c = s.fab.inService sd c)
        ∧ fld (u.bd sd 0x201) 56 52 = ch ∧ bit (u.bd sd 0x201) 57 = true ∧ u.point sd ch = 3
        ∧ u.els = s.fab.els ∧ (u.die sd).mem = (s.fab.die sd).mem)
    ∧ (∀ (s : State) (sd ch el id : Nat) (p : Pend), s.fab.mayRetire sd ch = false → (s.fab.el el).pendOf id = some p →
      Becomes (.channelRetirement sd ch el id) s (parkAccess s.fab el id ⟨0, .trap, .illegal, p.slotW, true, none⟩))
    ∧ (∀ (s : State) (sd : Nat), bit (s.fab.bd sd 0x202) 63 = true →
      let f := s.fab.rebuildRow sd (fld (s.fab.bd sd 0x202) 25 0)
      Becomes (.rebuildStep sd) s (match f.guardRow sd (fld (s.fab.bd sd 0x202) 25 0 + 1) with
        | some r => (f.setRebuild sd (some r)).post (.rebuildStep sd)
        | none => f.setRebuild sd none))
    ∧ (∀ (s : State) (sd n m : Nat) (v : DWord), (s.fab.die sd).zeroing.find? (fun x => decide (x.1 = n)) = some (m, v, none) → bit v 63 = true →
      (s.fab.die sd).mem.wf = true →
      ∃ u : Fabric, Becomes (.guardZeroDone sd n) s u ∧ u.bd sd (0x208 + n) = v
        ∧ (∀ a, fld v 15 0 * 2 ^ 21 ≤ a → a < (fld v 15 0 + fld v 31 16 + 1) * 2 ^ 21 → (u.die sd).mem.read a = 0)
        ∧ (∀ a, a < fld v 15 0 * 2 ^ 21 ∨ (fld v 15 0 + fld v 31 16 + 1) * 2 ^ 21 ≤ a → (u.die sd).mem.read a = (s.fab.die sd).mem.read a))

/-- R421, R422, R423, R424, R445, R446, R447: at either end of a module a block that is whole, in sequence and right by its CRC is taken, its
messages follow, and a block acknowledges it; what its own acknowledgment names leaves the retry buffer; one that is not right is discarded
and counted. A timeout sends the unacknowledged blocks of both ends again. A token's message becomes its arrival, and its credit is counted
for its class and owed for its flits. A malformed message counts in BADMSG at the base die and in EL.BADTOK at the compute die. A lane
repair uses a redundant lane up. A frame in its port pair's sequence is taken and acknowledged, one out of sequence discarded, and one of
class 7 acknowledges alone; a timeout counts a resend of every pair with frames out, and the 64th kills the port; a dead port keeps nothing
to send. Readings of the model's own: logs 10, 14 and 17. -/
def Obligations.LinkEvents : Prop :=
  (∀ (s : State) (sd md : Nat) (b : VBlock), s.fab.modUp sd md = true → b.flits.length = 16 →
      let m := s.fab.vmod sd md
      let e := m.taker b.toDie
      ((flitsCrc b.flits).toNat ≠ fld b.trailer 31 0 → e.fails < 15 →
        Becomes (.volwinBlockReceive sd md b) s (s.fab.setMod sd md (m.setTaker b.toDie { e with fails := e.fails + 1 })))
      ∧ ((flitsCrc b.flits).toNat = fld b.trailer 31 0 → e.unacked = [] → fld b.trailer 55 44 ≠ e.rx →
        Becomes (.volwinBlockReceive sd md b) s (s.fab.setMod sd md m))
      ∧ ((flitsCrc b.flits).toNat = fld b.trailer 31 0 → e.unacked = [] → fld b.trailer 55 44 = e.rx →
        ∃ u : Fabric, Becomes (.volwinBlockReceive sd md b) s u
          ∧ ((u.vmod sd md).taker b.toDie).rx = (e.rx + 1) % 4096 ∧ ((u.vmod sd md).taker b.toDie).fails = 0
          ∧ ((u.vmod sd md).taker b.toDie).rest = (splitMsgs (e.rest.length + 17) (e.rest ++ b.flits)).2
          ∧ (u.vmod sd md).taker (!b.toDie) = m.taker (!b.toDie) ∧ u.els = s.fab.els ∧ (u.die sd).mem = (s.fab.die sd).mem
          ∧ u.agenda = s.fab.agenda
            ++ ((splitMsgs (e.rest.length + 17) (e.rest ++ b.flits)).1.map fun fl => .volwinMessage sd md b.toDie fl)
            ++ if b.flits = idleFlits then [] else [.volwinBlockReceive sd md ⟨idleFlits, mkTrailer e.tx e.rx idleFlits, !b.toDie⟩])
      ∧ ((flitsCrc b.flits).toNat = fld b.trailer 31 0 → b.flits = idleFlits → ∃ u : Fabric, Becomes (.volwinBlockReceive sd md b) s u
        ∧ ((u.vmod sd md).taker b.toDie).unacked
          = e.unacked.filter fun x => !decide ((fld b.trailer 43 32 + 4096 - fld x.trailer 55 44) % 4096 < 2048)))
    ∧ (∀ (s : State) (sd md : Nat), s.fab.modUp sd md = true →
      let m := s.fab.vmod sd md
      let more := fun e : VEnd => if e.unacked = [] then e else { e with resends := e.resends + 1 }
      let bs := m.base.unacked.take 64 ++ m.die.unacked.take 64
      (bs = [] → Becomes (.volwinRetryTimeout sd md) s s.fab)
      ∧ (bs ≠ [] → m.base.resends < 15 → m.die.resends < 15 → Becomes (.volwinRetryTimeout sd md) s
        (((s.fab.setMod sd md { m with base := more m.base, die := more m.die }).countRetry sd bs.length).postAll
          (bs.map fun b => .volwinBlockReceive sd md b))))
    ∧ (∀ (s : State) (sd md : Nat) (toDie : Bool) (fl : List (BitVec 256)), msgBad fl = false → s.fab.linkDead sd = false →
      fld (fl.getD 0 0) 255 253 = 0 →
      let e := (s.fab.vmod sd md).taker toDie
      ∃ u : Fabric, Becomes (.volwinMessage sd md toDie fl) s u ∧ u.els = s.fab.els
        ∧ u.agenda = s.fab.agenda ++
          [.tokenArrive (if toDie then fld (fl.getD 0 0) 63 48 else fatikKey sd (fld (fl.getD 0 0) 63 48 % 4)) .packet (flitsTok fl)]
        ∧ tget 0 ((u.vmod sd md).taker toDie).cred (fld (fl.getD 0 0) 231 229)
          = tget 0 e.cred (fld (fl.getD 0 0) 231 229) + fld (fl.getD 0 0) 228 224
        ∧ tget 0 ((u.vmod sd md).taker toDie).cred 8 = tget 0 e.cred 8 + fl.length)
    ∧ (∀ (s : State) (sd md : Nat) (fl : List (BitVec 256)), msgBad fl = true →
      (∃ u : Fabric, Becomes (.volwinMessage sd md false fl) s u
        ∧ fld (u.bd sd 0x220) 15 0 = min (fld (s.fab.bd sd 0x220) 15 0 + 1) 0xFFFF ∧ u.agenda = s.fab.agenda)
      ∧ Becomes (.volwinMessage sd md true fl) s (s.fab.modEl (4096 * landingDie sd) fun e => { e with badtok := satAdd e.badtok 1 }))
    ∧ (∀ (s : State) (sd md : Nat), s.fab.modUp sd md = true → 1 < (s.fab.vmod sd md).repairs →
      Becomes (.laneRepair sd md) s (s.fab.setMod sd md { s.fab.vmod sd md with repairs := (s.fab.vmod sd md).repairs - 1 }))
    ∧ (∀ (s : State) (port : Nat) (fr : ScaleFrame), (s.fab.portAt port).dead = false → fr.dpkg = s.fab.pkg → fr.flits ≠ [] →
      fr.flits.length ≤ 32 → (s.fab.pairAt port fr.spkg).unacked = [] →
      (fr.cls = 7 ∨ fr.seq ≠ (s.fab.pairAt port fr.spkg).rx →
        Becomes (.scaleoutFrameReceive port fr) s (s.fab.modPair port fr.spkg fun o => o))
      ∧ (fr.seq = (s.fab.pairAt port fr.spkg).rx → fr.cls = 5 → ∃ u : Fabric, Becomes (.scaleoutFrameReceive port fr) s u
        ∧ (u.pairAt port fr.spkg).rx = (s.fab.pairAt port fr.spkg).rx + 1 ∧ (u.pairAt port fr.spkg).told = (s.fab.pairAt port fr.spkg).rx
        ∧ (∀ k, k ≠ fr.spkg → u.pairAt port k = s.fab.pairAt port k)
        ∧ u.agenda = s.fab.agenda ++ [.reportFrame (flitReport fr.spkg (fr.flits.getD 0 0))]))
    ∧ (∀ (s : State) (port : Nat) (fr : ScaleFrame), (s.fab.portAt port).dead = false → fr.dpkg = s.fab.pkg → fr.flits ≠ [] →
      fr.flits.length ≤ 32 → fr.cls = 7 → ∃ u : Fabric, Becomes (.scaleoutFrameReceive port fr) s u
        ∧ (u.pairAt port fr.spkg).unacked
          = ((s.fab.pairAt port fr.spkg).unacked.filter fun x => !decide ((fr.ack - x.seq).toNat < 32768))
        ∧ (u.pairAt port fr.spkg).rx = (s.fab.pairAt port fr.spkg).rx ∧ u.agenda = s.fab.agenda)
    ∧ (∀ (s : State) (port : Nat), (s.fab.portAt port).dead = false →
      ((∀ x ∈ (s.fab.portAt port).pairs, x.2.resends < 63) → Becomes (.scaleoutResendTimeout port) s
        (s.fab.modPort port fun o => { o with pairs := o.pairs.map fun x =>
          (x.1, if x.2.unacked.isEmpty then x.2 else { x.2 with resends := x.2.resends + 1, told := x.2.rx - 1 }) }))
      ∧ ((∃ x ∈ (s.fab.portAt port).pairs, x.2.unacked ≠ [] ∧ 63 ≤ x.2.resends) → ∃ u : Fabric, Becomes (.scaleoutResendTimeout port) s u
        ∧ u.agenda = s.fab.agenda ++ [.scaleoutPortDead port]))
    ∧ ∀ (s : State) (port : Nat), (s.fab.portAt port).dead = false → (∀ x ∈ (s.fab.portAt port).pairs, x.2.unacked = []) →
      (∀ x ∈ s.fab.peers, x.1 ≠ port) → Becomes (.scaleoutPortDead port) s (s.fab.modPort port fun o => { o with dead := true })

/-! ## Events of the module: boot, the signer, power -/

namespace Sys2Proof.Machine

/-- The event i completes at s, and the machine is then s'. -/
def Leads (i : Instr) (s s' : State) : Prop := exec i s = .next s'

/-- The memory of the lowest stack in service, where the boot sequencer keeps its images. -/
def bootMem (s : State) : Memory := (s.fab.die (s.fab.bootStack.getD 0)).mem

end Sys2Proof.Machine

/-- R449, R450, R451, R453: each state of the boot sequencer leads to the next, or to FAILED with its code: TEST notes the stacks whose link and
wires are good, FWLOAD copies the firmware's image where the flash can be read, FWCHECK checks it, takes its measure and makes the
attestation key, FWAPPLY sends its settings, BDLOAD copies and checks Bedrock's image, BDSTART loads its contexts, and HANDOVER sends its
start token. The management interface reads the sequencer's register and the public key. Readings of the model's own: logs 9, 18 and 36. -/
def Obligations.BootEvents : Prop :=
  (∀ (s : State) (good : BitVec 24), s.mod.seqState = 0 → ∃ s' : State, Leads (.test good) s s'
      ∧ s'.mod.pwrgood = true ∧ s'.mod.resetHigh = true ∧ s'.mod.rails = 0x1FF
      ∧ (∀ i, i < 12 → bit s'.mod.seqStacks i = (bit good (2 * i) && bit good (2 * i + 1)))
      ∧ (good = 0 → s'.mod.seqState = 0x0F ∧ s'.mod.seqFail = 1)
      ∧ (∀ sd, sd < 24 → bit good sd = true → s.fab.linkDead sd = false → s'.mod.seqState = 1
        ∧ s'.fab.agenda = s.fab.agenda ++ (if s.mod.bootsel = 1 then [] else [.fwload])))
    ∧ (∀ (s : State) (sd : Nat), s.mod.seqState = 1 → s.fab.bootStack = some sd → s.mod.flash.wf = true → (s.fab.die sd).mem.wf = true →
      s.mod.flashBad = false → s.fab.guards sd = [] → ∃ s' : State, Leads .fwload s s'
      ∧ s'.mod = { s.mod with seqState := 2 } ∧ s'.fab.agenda = s.fab.agenda ++ [.fwcheck]
      ∧ (∀ i, i < imageLen s.mod.flash 0 → (s'.fab.die sd).mem.read i = s.mod.flash.read i)
      ∧ ∀ i, imageLen s.mod.flash 0 ≤ i → (s'.fab.die sd).mem.read i = (s.fab.die sd).mem.read i)
    ∧ (∀ (s : State) (sd : Nat), s.mod.seqState = 1 → s.fab.bootStack = some sd → s.mod.flashBad = true →
      Leads .fwload s { s with mod := { s.mod with seqState := 0x0F, seqFail := 2 } })
    ∧ (∀ s : State, s.mod.seqState = 2 → let code := imageCheck (bootMem s) 0 1 s.mod.fwHash s.mod.fwMin
      ∃ s' : State, Leads .fwcheck s s' ∧ s'.mod.pubKey = slhKeyGen s.mod.secret
        ∧ (code = 0 → s'.mod.seqState = 3 ∧ s'.mod.measFw = measure (bootMem s) 0 ∧ s'.fab = s.fab.post .fwapply)
        ∧ (code ≠ 0 → s'.mod.seqState = 0x0F ∧ s'.mod.seqFail = BitVec.ofNat 8 code ∧ s'.mod.measFw = s.mod.measFw ∧ s'.fab = s.fab))
    ∧ (∀ s : State, s.mod.seqState = 3 → let ws := Config.fwWrites ((bootMem s).bytes 0x80 (bodyLen (bootMem s) 0))
      Leads .fwapply s { fab := (s.fab.postAll ((ws.filter fun w => decide (w.1 < 24)).map fun w => csrEvent ⟨2, w.1, w.2.1, w.2.2, 0, 2, none⟩)).post .bdload,
                         mod := { s.mod with seqState := 4 } })
    ∧ (∀ s : State, s.mod.seqState = 4 → (∀ x ∈ s.fab.agenda, isSetting x = false) → (∀ sd, sd < 24 → fld (s.fab.bd sd 0x22C) 7 4 = 0) →
      s.mod.flashBad = false →
      let sd := s.fab.bootStack.getD 0
      let a := imageLen s.mod.flash 0
      let f := s.fab.loadFlash sd s.mod.flash a a (imageLen s.mod.flash a)
      let m := (f.die sd).mem
      imageCheck m a 2 s.mod.bdHash s.mod.bdMin = 0 →
      Leads .bdload s { fab := f.post .bdstart, mod := { s.mod with measBd := measure m a, seqState := 5 } })
    ∧ (∀ s : State, s.mod.seqState = 4 → (∃ x ∈ s.fab.agenda, isSetting x = true) → Leads .bdload s { s with fab := s.fab.post .bdload })
    ∧ (∀ s : State, s.mod.seqState = 5 → let body := imageLen s.mod.flash 0 + 0x80
      let res := (List.range (fld ((bootMem s).word body) 15 0)).foldlM (bootEntry body (bootMem s)) s.fab
      (∀ f : Fabric, res = .ok f → Leads .bdstart s { fab := f.post .handover, mod := { s.mod with seqState := 6 } })
      ∧ (∀ w : Word, res = .error w → Leads .bdstart s { s with mod := { s.mod with seqState := 0x0F, seqFail := 7 } }))
    ∧ (∀ s : State, s.i2c 1 ++ s.i2c 0 = s.mod.seqStacks
      ∧ s.i2c 2 = s.mod.seqFail ∧ s.i2c 3 = s.mod.seqState
      ∧ ∀ i, i < 64 → s.i2c (0x40 + i) = BitVec.ofNat 8 (s.mod.pubKey.toNat / 2 ^ (8 * i)))
    ∧ (∀ s : State, s.mod.seqState = 6 → ∃ t : Tok, Leads .handover s { fab := s.fab.post (.tokenArrive 0 .packet t), mod := { s.mod with seqState := 7 } }
      ∧ t.slot = 0 ∧ t.side = false ∧ t.vec = false ∧ t.fmt = 7 ∧ fld (t.lane 0) 15 0 = s.mod.seqStacks.toNat ∧ fld (t.lane 0) 31 16 = 0xFFFF)

/-- R411, R431, R441, R442, R452: the signer, once Bedrock runs, checks a partition's image and keeps its measure, forgets one, and completes
and signs a report. A rail out of tolerance puts the sequencer back to RESET. A thermal trip stops every clock and drops every link, until a
power cycle. A droop withholds the issue of a block until the next event. POWER_DOWN writes the parity back and lets the rails fall.
Readings of the model's own: logs 9, 18 and 36. -/
def Obligations.ModuleEvents : Prop :=
  (∀ (s : State) (part : Nat) (img : BitVec 42), s.mod.seqState = 7 → fld img 41 37 < 24 → fld img 36 0 % 65536 = 0 →
      let m := (s.fab.die (fld img 41 37)).mem
      let a := fld img 36 0
      imageCheck m a 3 0 s.mod.partMin = 0 → ∃ s' : State, Leads (.signerCheck part img) s s'
        ∧ ((m.read (a + 3)).toNat = part → s'.mod.measPart = tset s.mod.measPart part (measure m a) ∧ s'.fab.sigMeas = measure m a
          ∧ s'.fab.sigStat = 0x4000000000000000)
        ∧ ((m.read (a + 3)).toNat ≠ part → s'.mod = s.mod ∧ s'.fab.sigStat = 9 ∧ s'.fab.sigMeas = measure m a))
    ∧ (∀ (s : State) (part : Nat), s.mod.seqState = 7 →
      Leads (.signerClear part) s { fab := { s.fab with sigStat := 0x4000000000000000 }, mod := { s.mod with measPart := tdel s.mod.measPart part } })
    ∧ (∀ (s : State) (el id : Nat) (p : Pend), s.mod.seqState = 7 → (s.fab.el el).pendOf id = some p → (s.fab.el el).mem.wf = true → let a := p.a.toNat
      ∃ x : Element, ∃ evs : List Ev,
        Leads (.attestReportSigned el id) s { s with fab := (complete (s.fab.setEl el x) el p [p.raw p.d (w64 reportBytes), p.ordOut p.e]).postAll evs }
        ∧ x.mem.readN a 8 = (0x5B1A + 0x0001 * 2 ^ 16 + s.fab.partOf el * 2 ^ 32 + p.set.ctx * 2 ^ 48) % 2 ^ 64
        ∧ x.mem.readN (a + 0x80) 64 = s.mod.measFw.toNat ∧ x.mem.readN (a + 0xC0) 64 = s.mod.measBd.toNat
        ∧ x.mem.readN (a + 0x100) 64 = (tget 0 s.mod.measPart (s.fab.partOf el)).toNat
        ∧ ∀ i, i < 49856 → x.mem.read (a + 0x200 + i) = (reportSig s.mod.secret (x.mem.bytes a 0x200)).getD i 0)
    ∧ (∀ (s : State) (rail : Nat), rail < 9 → ∃ s' : State, Leads (.railOutOfTolerance rail) s s'
      ∧ s'.mod.pwrgood = false ∧ s'.mod.seqState = 0 ∧ bit s'.mod.rails rail = false ∧ (∀ k, k < 9 → k ≠ rail → bit s'.mod.rails k = bit s.mod.rails k)
      ∧ s'.fab.els = s.fab.els ∧ ∀ x ∈ s'.fab.agenda, isBoot x = false)
    ∧ (∀ s : State, ∃ s' : State, Leads .thermalTrip s s' ∧ s'.mod.thermtrip = true ∧ s'.fab.els = [] ∧ s'.fab.hostMem = s.fab.hostMem
      ∧ (∀ sd, sd < 24 → (s'.fab.die sd).mem = [] ∧ s'.fab.linkDead sd = true) ∧ (∀ port, port < 16 → (s'.fab.portAt port).dead = true)
      ∧ step s' = .fault .clockStopped)
    ∧ (∀ (s : State) (bk : Nat), Becomes (.supplyDroop bk) s (if (s.fab.blk bk).withheld = true then s.fab.modBlk bk fun b => { b with withheld := false }
        else (s.fab.modBlk bk fun b => { b with withheld := true }).post (.supplyDroop bk)))
    ∧ ∀ s : State, ∃ s' : State, Leads .powerDown s s' ∧ s'.mod.rails = 0 ∧ s'.mod.pwrgood = false ∧ s'.mod.thermtrip = false ∧ s'.mod.seqState = 0 ∧ s'.fab.els = []
      ∧ (∀ sd, (s.fab.die sd).parCache = [] → (s'.fab.die sd).mem = (s.fab.die sd).mem)
      ∧ s'.mod.measFw = s.mod.measFw ∧ s'.mod.flash = s.mod.flash

/-! ## Register writes that travel -/

namespace Sys2Proof.Machine

/-- The write w leaves the fabric g, and its CSRW, where one waits for it and no dead link has lost the write, completes with its two
ordering tokens (R401, R422). -/
def Acked (i : Instr) (s : State) (w : CsrWr) (g : Fabric) : Prop :=
  (w.asker = none → Becomes i s g) ∧ ∀ el id p, w.asker = some (el, id) → s.fab.csrLost el w.unit w.key = false → g.rawAt el id = none → (g.el el).pendOf id = some p →
    Becomes i s ((complete g el p [p.ordOut p.d, p.ordOut p.e]).askRelease el)

/-- The low word of a written value. -/
def loWord (w : CsrWr) : Word := BitVec.ofNat 32 w.val.toNat

end Sys2Proof.Machine

/-- R90, R88, R192, R245, R134, R244, R247, R255, R327, R354, R434: a register write that arrives takes effect by its register's own rule, and
its CSRW completes. A one written to EL.AFLAGS clears its flag; a zero written to EL.SRSTATE leaves 1; a window that breaks R192 is ignored
and a new one's header is zero, with what waited for the element's buffers examined again; EL.LODEEN takes the bits of the partition's
lines; BK.REGION makes anchors stale; a line register with MODE 3 is ignored, one whose V, MODE and PART stand changes nothing else, and a
line that becomes a barrier passes the AND of the arrivals that stand; BK.STAGES starts the sequence numbers anew; BD.PTROOT empties the
TLB; BD.GUARD zeroes its rows first; BD.RATECFG steps channels down; BD.FATIK loads its image; EL.AFTRAP takes six bits. Readings of the
model's own: logs 15, 23, 24, 29, 33 and 35. -/
def Obligations.RegisterWrites : Prop :=
  ∀ (s : State) (w : CsrWr),
    (w.unit = 0 → w.num = 0x008 → Acked (.aflagsWrite w) s w (s.fab.modEl w.key fun e => { e with
      aflags := e.aflags &&& ~~~((loWord w) &&& 0x3F)
      pend := e.pend.map fun p => if p.owesFlags then { p with cleared := p.cleared ||| ((loWord w) &&& 0x3F) } else p }))
    ∧ (w.unit = 0 → w.num = 0x00A → Acked (.srstateWrite w) s w (s.fab.modEl w.key fun e => { e with srstate := if (loWord w) = 0 then 1 else (loWord w) }))
    ∧ (w.unit = 0 → w.num = 0x009 → Acked (.csrRegisterWrite w) s w (s.fab.modEl w.key fun e => { e with aftrap := (loWord w) &&& 0x3F }))
    ∧ (∀ j, j < 8 → w.unit = 0 → w.num = 0x020 + j → (s.fab.el w.key).defers = [] →
      (∀ x ∈ s.fab.els, ∀ p ∈ x.2.pend, ∀ a ∈ p.accs, a.reason ≠ .defer) →
      let rests : Parked → Prop := fun p => p.reason ≠ .buf ∧ p.reason ≠ .fifo ∧ p.reason ≠ .defer
      (s.fab.winOk w.key j (loWord w) = false → Acked (.windowWrite w) s w s.fab)
      ∧ (s.fab.winOk w.key j (loWord w) = true → ∃ u : Fabric, Acked (.windowWrite w) s w u
        ∧ (u.el w.key).wins = tset (s.fab.el w.key).wins j (loWord w) ∧ ∀ p ∈ (u.el w.key).parked, rests p)
      ∧ (s.fab.winOk w.key j (loWord w) = true → (∀ p ∈ (s.fab.el w.key).parked, rests p) →
        (winRole (loWord w) ∈ [1, 2, 3, 4] → Acked (.windowWrite w) s w
          (s.fab.modEl w.key fun e => { e.zeroMem (winBase (loWord w)) 64 with wins := tset e.wins j (loWord w) }))
        ∧ (winRole (loWord w) = 0 ∨ winRole (loWord w) = 5 → Acked (.windowWrite w) s w
          (s.fab.modEl w.key fun e => { e with wins := tset e.wins j (loWord w) }))))
    ∧ (w.unit = 0 → w.num = 0x030 → ∃ new : Word, (∀ i, i < 32 → bit new i = (bit w.val i && s.fab.lineMine w.key i))
      ∧ Acked (.lodeenWrite w) s w ((s.fab.modEl w.key fun e => { e with lodeen0 := new }).postAll
        (((List.range 32).filter fun i => bit (s.fab.el w.key).lodeen0 i && !bit new i).map fun i => .barrierRelease i)))
    ∧ (w.unit = 1 → w.num = 0 → bit (s.fab.bk w.key 0) 31 = false → let g := s.fab.setBk w.key 0 (keepFlds w.val [(31, 31), (9, 0)])
      (bit w.val 31 = false → Acked (.regionWrite w) s w g)
      ∧ (bit w.val 31 = true → Acked (.regionWrite w) s w
        (g.modBlk (fld w.val 9 0) fun b => { b with anchors := b.anchors.map fun p => (p.1, { p.2 with stale := true }) })))
    ∧ (∀ n, n < 64 → w.unit = 1 → w.num = 0x040 + n → let old := s.fab.bk w.key (0x040 + n)
      let g := s.fab.setBk w.key (0x040 + n) (keepFlds w.val [(31, 29), (27, 8)])
      let same := fld old 31 29 = fld w.val 31 29 ∧ fld old 27 24 = fld w.val 27 24
      (fld w.val 30 29 = 3 → Acked (.lodeLineWrite w) s w s.fab)
      ∧ (fld w.val 30 29 ≠ 3 → same → Acked (.lodeLineWrite w) s w g)
      ∧ (fld w.val 30 29 ≠ 3 → ¬ same → (∀ x ∈ s.fab.els, ∀ p ∈ x.2.parked, p.reason ≠ .lode) →
        Acked (.lodeLineWrite w) s w (if bit w.val 31 = true ∧ fld w.val 30 29 = 0 then (g.lineReset n).post (.barrierRelease n) else g.lineReset n)
          ∧ ((g.lineReset n).root n).phi = 0 ∧ ((g.lineReset n).root n).decl = 0
          ∧ .lodeWave n ∉ (g.lineReset n).agenda))
    ∧ (w.unit = 1 → w.num = 4 → let new := keepFlds w.val [(56, 16), (0, 0)]
      (s.fab.bk w.key 4 = new → Acked (.stagesWrite w) s w s.fab)
      ∧ (s.fab.bk w.key 4 ≠ new → Acked (.stagesWrite w) s w ((s.fab.setBk w.key 4 new).modBlk w.key fun b => { b with seqs := [] })))
    ∧ (w.unit = 2 → w.num = 1 → Acked (.ptrootWrite w) s w
      ((s.fab.setBd w.key 1 (keepFlds w.val [(36, 19), (0, 0)])).modDie w.key fun d => { d with tlb := [] }))
    ∧ (∀ n, n < 8 → w.unit = 2 → w.num = 0x208 + n → let v := keepFlds w.val [(63, 63), (31, 0)]
      (s.fab.guardBad w.key n v = true → Acked (.guardWrite w) s w s.fab)
      ∧ (s.fab.guardBad w.key n v = false → bit w.val 63 = true ∨ bit (s.fab.bd w.key (0x208 + n)) 63 = true →
        (∀ el id, w.asker = some (el, id) → s.fab.csrLost el w.unit w.key = false) → Becomes (.guardWrite w) s
        ((s.fab.modDie w.key fun d => { d with zeroing := d.zeroing ++ [(n, v, w.asker)] }).post (.guardZeroDone w.key n))))
    ∧ (w.unit = 2 → w.num = 0x210 → fld w.val 1 0 ≠ 3 → ∃ g : Fabric, Acked (.ratecfgWrite w) s w g
      ∧ fld (g.bd w.key 0x210) 1 0 = fld w.val 1 0 ∧ fld (g.bd w.key 0x210) 31 16 = fld w.val 31 16
      ∧ (fld (s.fab.bd w.key 0x210) 1 0 ≤ fld w.val 1 0 → g.agenda = s.fab.agenda)
      ∧ (fld w.val 1 0 < fld (s.fab.bd w.key 0x210) 1 0 → g.agenda = s.fab.agenda ++ ((List.range 32).filter fun c =>
          decide (s.fab.point w.key c ≠ 3) && decide (fld w.val 1 0 < s.fab.point w.key c) && !(s.fab.die w.key).switching.contains c
            && !s.fab.agenda.contains (.rateStepDown w.key c)).map fun c => .rateStepDown w.key c))
    ∧ (∀ n, n < 4 → w.unit = 2 → w.num = 0x228 + n → .fatikImageLoad w.key n ∉ s.fab.agenda → w.asker = none →
      Becomes (.fatikImageWrite w) s ((s.fab.setBd w.key w.num (keepFlds w.val [(56, 7), (0, 0)])).post (.fatikImageLoad w.key n)))

/-! ## The machine as a whole -/

namespace Sys2Proof.Machine

/-- The boot sequencer is in a state of R450, FAILED exactly where it keeps a failure code (R449), and out of RESET only with PWRGOOD
and RESET# high (R441, R450). -/
def ModuleOk (s : State) : Prop :=
  (s.mod.seqState.toNat ≤ 7 ∨ s.mod.seqState = 0x0F) ∧ (s.mod.seqState = 0x0F ↔ s.mod.seqFail ≠ 0)
    ∧ (s.mod.seqState ≠ 0 → s.mod.pwrgood = true ∧ s.mod.resetHigh = true)

/-- The fuses, the signer's secret, the straps and the flash are the same (R451, R453). -/
def SameFuses (s t : State) : Prop :=
  t.mod.fwHash = s.mod.fwHash ∧ t.mod.bdHash = s.mod.bdHash ∧ t.mod.fwMin = s.mod.fwMin ∧ t.mod.bdMin = s.mod.bdMin
    ∧ t.mod.partMin = s.mod.partMin ∧ t.mod.secret = s.mod.secret ∧ t.mod.bootsel = s.mod.bootsel ∧ t.mod.flash = s.mod.flash

end Sys2Proof.Machine

open Sys2Proof (encode decode mkWord fieldOp fieldA fieldB fieldD fieldE fieldT)

/-- R40, R60: every form's encoding decodes to it with every field at every value, every word that decodes is the encoding of what it decodes
to, and the fields of a word lie where R40 puts them: OP in 31:24, SRCA in 23:19, SRCB in 18:14, DSTA in 13:9, DSTB in 8:4, TAGACT in 3:0. -/
def Obligations.EncodingIsExact : Prop :=
  (∀ (i : Instr) (w : Word), encode i = some w → decode w = some i)
    ∧ (∀ (w : Word) (i : Instr), decode w = some i → encode i = some w)
    ∧ ∀ (op : Byte) (a b d e : BitVec 5) (t : BitVec 4), let w := mkWord op a b d e t
      w.toNat = op.toNat * 2 ^ 24 + a.toNat * 2 ^ 19 + b.toNat * 2 ^ 14 + d.toNat * 2 ^ 9 + e.toNat * 2 ^ 4 + t.toNat
      ∧ fieldOp w = op ∧ fieldA w = a ∧ fieldB w = b ∧ fieldD w = d ∧ fieldE w = e ∧ fieldT w = t

/-- Words that the spec writes out decode to the instructions it gives beside them: ADD, SHL and CMP of R68's example, and forms of the other
groups; 0x21 is unassigned. -/
def Obligations.WordsDecode : Prop :=
  decode 0x00014241 = some (.add 0 5 1 4 1) ∧ decode 0x0F0087F3 = some (.shl 0 2 3 0x1F 3) ∧ decode 0x18048B60 = some (.cmp 0 0x12 5 0x16 0)
    ∧ decode 0x020007F3 = some (.mul 0 0 3 0x1F 3) ∧ decode 0x580045F0 = some (.vmask 0 1 2 0x1F 0) ∧ decode 0x92204010 = some (.ldx 4 1 0 1 0)
    ∧ decode 0x8507C010 = some (.scale 0 0x1F 0 1 0) ∧ decode 0xC10041F0 = some (.ordj 0 1 0 0x1F 0) ∧ decode 0xD9104010 = some (.edens 2 1 0 1 0)
    ∧ decode 0xE2004850 = some (.fulfil 0 1 4 5 0) ∧ decode 0xF51847F0 = some (.csrw 3 1 3 0x1F 0) ∧ decode 0x21014241 = none

/-- R24, R54, R68: a step that gives an element the turn takes its lowest-stamped set, reads the word of its slot, and runs the instruction that
the word decodes to; an event's turn runs the event; every instruction leads to a next state; an unassigned opcode raises ILLEGAL with the
word. A word placed by withFetchWord is what the next step runs (log 8). Readings of the model's own: logs 1 and 8. -/
def Obligations.StepRunsDecoded : Prop :=
  (∀ (s : State) (el : Nat) (x : MSet) (f : Fabric) (w : Word) (i : Instr), s.mod.thermtrip = false → nextTurn s.fab = some (.issue el) →
      takeSet (tick s.fab) el = some (x, f) → fetchWord f el x = some w → decode w = some i → step s = exec i { s with fab := f })
    ∧ (∀ (s : State) (el : Nat) (x : MSet) (f : Fabric) (w : Word), s.mod.thermtrip = false → nextTurn s.fab = some (.issue el) →
      takeSet (tick s.fab) el = some (x, f) → fetchWord f el x = some w → Sys2Proof.assigned (fieldOp w).toNat = false →
      step s = .next { s with fab := takeTrap f f.cur f.fire .illegal w })
    ∧ (∀ (s : State) (k : Nat) (v : Ev) (f : Fabric), s.mod.thermtrip = false → nextTurn s.fab = some (.event k) → takeEvent (tick s.fab) k = some (v, f) →
      step s = exec v.instr { s with fab := f })
    ∧ (∀ (i : Instr) (s : State), ∃ t, exec i s = .next t)
    ∧ (∀ (s : State) (w : Word) (i : Instr), decode w = some i → ∃ t : State, step (s.withFetchWord 32 w.toNat) = exec i t
      ∧ t.fab.cur = 0 ∧ t.fab.fire.slot = 0 ∧ Image.instr ((t.fab.el 0).imageOf t.fab.fire.ctx) 0 = w)

/-- R449, R450, R451, R453: a step keeps the boot sequencer legal, and leaves fuses, secret, straps and flash as they are; an instruction word
changes nothing of the module; a tripped module takes no step but that of a power cycle (R442). Readings of the model's own: logs 18 and 36. -/
def Obligations.ModuleKept : Prop :=
  (∀ s t : State, step s = .next t → ModuleOk s → ModuleOk t)
    ∧ (∀ s t : State, step s = .next t → SameFuses s t)
    ∧ (∀ (i : Instr) (s t : State), (encode i).isSome = true → exec i s = .next t → t.mod = s.mod)
    ∧ ∀ s : State, s.mod.thermtrip = true →
      (powersDown s.fab = false → step s = .fault .clockStopped)
      ∧ (powersDown s.fab = true → ∃ t, step s = .next t ∧ t.mod.thermtrip = false)

/-- R21, R34, R39, R88, R90, R148, R325, R345, R427, R432, R434, R449: after reset the sequencer is in RESET without a failure and its state is
legal, stamps start at 0, SRSTATE is 1, flags and counters are 0, no bank has an owner, the slab is cold, 64 launch places are free, every
channel is in service and every module up, and every memory is in canonical form. Readings of the model's own: logs 3, 4, 5 and 6. -/
def Obligations.ResetHolds : Prop :=
  ModuleOk State.reset ∧ State.reset.mod.seqState = 0 ∧ State.reset.mod.seqFail = 0 ∧ State.reset.mod.thermtrip = false
    ∧ (∀ el, let x := State.reset.fab.el el
      x.arrivals = 0 ∧ x.srstate = 1 ∧ x.aflags = 0 ∧ x.aftrap = 0 ∧ x.stray = 0 ∧ x.badtok = 0 ∧ x.mismatch = 0 ∧ x.mxWarm = false ∧ x.mxOn = false
        ∧ x.mem.wf = true ∧ x.ready = [] ∧ x.store = [] ∧ x.slots = [] ∧ x.owners = [])
    ∧ (∀ part, State.reset.fab.launchStatus part = 64 * 2 ^ 24)
    ∧ (∀ sd, (∀ c, c < 32 → State.reset.fab.inService sd c = true) ∧ fld (State.reset.fab.bd sd 0x220) 41 32 = 0x3FF
      ∧ State.reset.fab.linkDead sd = false ∧ (State.reset.fab.die sd).mem.wf = true)
    ∧ State.reset.fab.agenda = [] ∧ State.reset.fab.hostMem.wf = true

/-- R8: multi-byte values in memory are stored least significant byte first, bit 0 of a value being bit 0 of the byte at its lowest address:
byte i of a value written is its bits 8i + 7 to 8i, and reading n bytes gives the value of which that holds. -/
def Obligations.BytesLowFirst : Prop :=
  (∀ (m : Memory) (a v n i : Nat), m.wf = true → i < n → ((m.writeN a v n).read (a + i)).toNat = v / 2 ^ (8 * i) % 2 ^ 8)
    ∧ (∀ (m : Memory) (a n i : Nat), i < n → m.readN a n / 2 ^ (8 * i) % 2 ^ 8 = (m.read (a + i)).toNat)
    ∧ (∀ (m : Memory) (a n : Nat), m.readN a n < 2 ^ (8 * n))
    ∧ (∀ (m : Memory) (a v n : Nat), m.wf = true → (m.writeN a v n).readN a n = v % 2 ^ (8 * n) ∧ (m.writeN a v n).wf = true)
    ∧ (∀ (m : Memory) (a v n j : Nat), m.wf = true → j < a ∨ a + n ≤ j → (m.writeN a v n).read j = m.read j)
    ∧ (∀ m k : Memory, m.wf = true → k.wf = true → (∀ a, m.read a = k.read a) → m = k)

/-- R11, R27, R54, R137, R393, R394, R395: a word form that a check stops takes that trap: its set parks with the cause and the word that raised
it, and the record leaves for the trap destination of its context, with the firing tag in lane 0 and cause, element, slot and information in
lane 1; nothing else of the element changes. A value of another format than the slot's, a run under a tag action and a depth that the action
cannot take raise FORMAT with the slot. Readings of the model's own: logs 19 and 27. -/
def Obligations.TrapsAreTaken : Prop :=
  (∀ (i : Instr) (op : Byte) (a b d e : BitVec 5) (t : BitVec 4) (s : State) (k : Cause) (info : Word), encode i = some (mkWord op a b d e t) →
      Fresh (firing s op.toNat a b d e t) →
      (firing s op.toNat a b d e t).stops = some (.trap k info) → Traps i s s.fab.fire k info)
    ∧ (∀ (f : Fabric) (el : Nat) (x : MSet) (k : Cause) (info : Word), isFatik el = false → k ≠ .hcall →
      let entry := f.recordTarget el (Image.trapd ((f.el el).imageOf x.ctx))
      let word := (Image.instr ((f.el el).imageOf x.ctx) x.slot).toNat
      ∃ r : Tok, takeTrap f el x k info = (if fld entry 31 30 = 1
          then (f.modEl el fun u => { u with parked := u.parked ++ [⟨x, .trap, k, info, word⟩] }).post (.tokenArrive (fld entry 27 12) .signal r)
          else f.modEl el fun u => { u with parked := u.parked ++ [⟨x, .trap, k, info, word⟩] })
        ∧ r.trapTok = true ∧ r.valid = 7 ∧ r.lanes.length = 3 ∧ r.lane 0 = x.tag ∧ r.lane 2 = 0
        ∧ (x.slot < 32 → fld (r.lane 1) 63 56 = k.code ∧ fld (r.lane 1) 55 40 = el % 65536 ∧ fld (r.lane 1) 39 35 = x.slot
          ∧ fld (r.lane 1) 32 32 = 0 ∧ fld (r.lane 1) 31 0 = info.toNat))
    ∧ (∀ (s : State) (op : Byte) (a b d e : BitVec 5) (t : BitVec 4), op ∈ [(0x00 : Byte), 0x01, 0x0B, 0x0C, 0x0D] →
      let c := firing s op.toNat a b d e t
      c.img.lazy = false → t.toNat ∈ [0, 1, 6, 7] →
      (∃ x, c.tok c.a = some x ∧ x.fmt ≠ c.fin) ∨ (c.vec = true ∧ t ≠ 0) ∨ (t ≠ 0 ∧ depth c.tag = 0) →
      c.stops = some (.trap .format (w32 s.fab.fire.slot)))
end

