-- ==== Sys2Proof/Laws/Memory.lean ====
section
/-! SUPPORT. Byte memory: every operation keeps the canonical form, a byte reads as it was last written, and a write leaves
every other byte alone. -/

namespace Sys2Proof.Machine

theorem Memory.wf_tail {x : Host.Cell} {m : Memory} (h : Memory.wf (x :: m) = true) : Memory.wf m = true := by
  cases m with
  | nil => rfl
  | cons y r => simp only [Memory.wf, Bool.and_eq_true] at h; exact h.2

theorem Memory.wf_head {x : Host.Cell} {m : Memory} (h : Memory.wf (x :: m) = true) : x.2 ≠ 0 := by
  cases m with
  | nil => simpa [Memory.wf] using h
  | cons y r => simp only [Memory.wf, Bool.and_eq_true, bne_iff_ne] at h; exact h.1.1

/-- Every listed address of a canonical tail lies above the head's. -/
theorem Memory.wf_lt {x : Host.Cell} {m : Memory} (h : Memory.wf (x :: m) = true) : ∀ c ∈ m, x.1 < c.1 := by
  induction m generalizing x with
  | nil => simp
  | cons y r ih =>
    simp only [Memory.wf, Bool.and_eq_true, decide_eq_true_eq] at h
    intro c hc
    rcases List.mem_cons.1 hc with rfl | hc
    · exact h.1.2
    · exact lt_trans h.1.2 (ih h.2 c hc)

theorem Memory.wf_cons {x : Host.Cell} {m : Memory} (hx : x.2 ≠ 0) (hl : ∀ c ∈ m, x.1 < c.1) (h : Memory.wf m = true) :
    Memory.wf (x :: m) = true := by
  cases m with
  | nil => simpa [Memory.wf] using hx
  | cons y r => simp only [Memory.wf, Bool.and_eq_true, bne_iff_ne, decide_eq_true_eq]; exact ⟨⟨hx, hl y (by simp)⟩, h⟩

/-- An address below every listed one reads 0. -/
theorem Memory.read_of_lt {m : Memory} {a : Nat} (h : ∀ c ∈ m, a < c.1) : m.read a = 0 := by
  cases m with
  | nil => rfl
  | cons y r => have := h y (by simp); simp [Memory.read, this, Nat.ne_of_gt this]

/-- A written memory lists only what it listed and the address written. -/
theorem Memory.mem_write {m : Memory} {a : Nat} {v : Byte} : ∀ c ∈ m.write a v, c.1 = a ∨ c ∈ m := by
  induction m with
  | nil => intro c; simp only [Memory.write]; split <;> simp +contextual
  | cons y r ih =>
    obtain ⟨x, b⟩ := y
    intro c
    simp only [Memory.write]
    split
    · simp only [List.mem_cons]
      rintro (rfl | h)
      · exact .inr (.inl rfl)
      · rcases ih c h with h | h <;> simp [h]
    · split
      · rename_i hx
        split
        · exact fun h => .inr (List.mem_cons_of_mem _ h)
        · intro h
          rcases List.mem_cons.1 h with rfl | h
          · exact .inl rfl
          · exact .inr (List.mem_cons_of_mem _ h)
      · split
        · exact .inr
        · intro h
          rcases List.mem_cons.1 h with rfl | h
          · exact .inl rfl
          · exact .inr h

theorem Memory.write_wf (m : Memory) (a : Nat) (v : Byte) (h : m.wf = true) : (m.write a v).wf = true := by
  induction m with
  | nil => simp only [Memory.write]; split <;> simp_all [Memory.wf]
  | cons y r ih =>
    obtain ⟨x, b⟩ := y
    have hb := Memory.wf_head h
    have ht := Memory.wf_tail h
    have hl := Memory.wf_lt h
    simp only [Memory.write]
    split
    · rename_i hxa
      refine Memory.wf_cons hb ?_ (ih ht)
      intro c hc
      rcases Memory.mem_write c hc with h | h
      · simpa [h] using hxa
      · exact hl c h
    · split
      · rename_i hxa; subst hxa
        split
        · exact ht
        · exact Memory.wf_cons (by assumption) hl ht
      · split
        · exact h
        · refine Memory.wf_cons (by assumption) ?_ h
          intro c hc
          rcases List.mem_cons.1 hc with rfl | hc
          · simp; omega
          · have := hl c hc; simp at this ⊢; omega

theorem Memory.read_write_self (m : Memory) (a : Nat) (v : Byte) (h : m.wf = true) : (m.write a v).read a = v := by
  induction m with
  | nil => simp only [Memory.write]; split <;> simp_all [Memory.read]
  | cons y r ih =>
    obtain ⟨x, b⟩ := y
    have hl := Memory.wf_lt h
    simp only [Memory.write]
    split
    · rename_i hxa
      simp [Memory.read, Nat.ne_of_lt hxa, Nat.not_lt.2 (Nat.le_of_lt hxa), ih (Memory.wf_tail h)]
    · split
      · rename_i hxa; subst hxa
        split
        · rename_i hv; rw [Memory.read_of_lt hl, hv]
        · simp [Memory.read]
      · split
        · rename_i h1 h2 hv
          simp [Memory.read, h2, hv]; omega
        · simp [Memory.read]

theorem Memory.read_write_ne (m : Memory) {a j : Nat} (v : Byte) (hj : j ≠ a) (h : m.wf = true) : (m.write a v).read j = m.read j := by
  induction m with
  | nil => simp only [Memory.write]; split <;> simp [Memory.read, hj.symm]
  | cons y r ih =>
    obtain ⟨x, b⟩ := y
    have hl := Memory.wf_lt h
    simp only [Memory.write]
    split
    · simp only [Memory.read, ih (Memory.wf_tail h)]
    · split
      · rename_i hxa; subst hxa
        split
        · simp only [Memory.read]
          rw [if_neg hj.symm]
          split
          · exact Memory.read_of_lt fun c hc => lt_trans ‹_› (hl c hc)
          · rfl
        · simp [Memory.read, hj.symm]
      · split
        · rfl
        · rename_i h1 h2 _
          simp only [Memory.read]
          rw [if_neg hj.symm]
          split
          · rw [if_neg (by omega), if_pos (by omega)]
          · rfl

theorem Memory.writeN_wf (m : Memory) (a v n : Nat) (h : m.wf = true) : (m.writeN a v n).wf = true := by
  induction n generalizing m a v with
  | zero => exact h
  | succ n ih => exact ih _ _ _ (Memory.write_wf _ _ _ h)

/-- A write of n bytes leaves every byte outside them alone. -/
theorem Memory.read_writeN_out (m : Memory) (a v n j : Nat) (hj : j < a ∨ a + n ≤ j) (h : m.wf = true) :
    (m.writeN a v n).read j = m.read j := by
  induction n generalizing m a v with
  | zero => rfl
  | succ n ih =>
    rw [Memory.writeN, ih _ _ _ (by omega) (Memory.write_wf _ _ _ h), Memory.read_write_ne _ _ (by omega) h]

theorem Memory.setWord_wf (m : Memory) (a : Nat) (v : DWord) (h : m.wf = true) : (m.setWord a v).wf = true :=
  Memory.writeN_wf _ _ _ _ h

theorem Memory.setWords_wf (m : Memory) (a : Nat) (ws : List DWord) (h : m.wf = true) : (m.setWords a ws).wf = true := by
  induction ws generalizing m a with
  | nil => exact h
  | cons w r ih => exact ih _ _ (Memory.setWord_wf _ _ _ h)

theorem Memory.filter_wf (m : Memory) (p : Host.Cell → Bool) (h : m.wf = true) : Memory.wf (m.filter p) = true := by
  induction m with
  | nil => rfl
  | cons y r ih =>
    have ht := ih (Memory.wf_tail h)
    simp only [List.filter_cons]
    split
    · exact Memory.wf_cons (Memory.wf_head h) (fun c hc => Memory.wf_lt h c (List.mem_filter.1 hc).1) ht
    · exact ht

theorem Memory.clear_wf (m : Memory) (a n : Nat) (h : m.wf = true) : (m.clear a n).wf = true := Memory.filter_wf _ _ h

theorem Element.putN_wf (e : Element) (a v n : Nat) (h : e.mem.wf = true) : (e.putN a v n).mem.wf = true := Memory.writeN_wf _ _ _ _ h
theorem Element.putByte_wf (e : Element) (a : Nat) (v : Byte) (h : e.mem.wf = true) : (e.putByte a v).mem.wf = true := Memory.writeN_wf _ _ _ _ h
theorem Element.putWord_wf (e : Element) (a : Nat) (v : DWord) (h : e.mem.wf = true) : (e.putWord a v).mem.wf = true := Memory.writeN_wf _ _ _ _ h
theorem Element.zeroMem_wf (e : Element) (a n : Nat) (h : e.mem.wf = true) : (e.zeroMem a n).mem.wf = true := Memory.clear_wf _ _ _ h

theorem Element.putWords_wf (e : Element) (a : Nat) (ws : List DWord) (h : e.mem.wf = true) : (e.putWords a ws).mem.wf = true := by
  induction ws generalizing e a with
  | nil => exact h
  | cons w r ih => exact ih _ _ (Element.putWord_wf _ _ _ h)

/-- Memory is canonical after reset: of every element, every stack, the host and the flash. -/
theorem reset_mem_wf : (∀ k, (State.reset.fab.el k).mem.wf = true) ∧ (∀ k, (State.reset.fab.die k).mem.wf = true)
    ∧ State.reset.fab.hostMem.wf = true ∧ State.reset.mod.flash.wf = true :=
  ⟨fun _ => rfl, fun _ => rfl, rfl, rfl⟩

end Sys2Proof.Machine
end

