-- ==== Sys2Proof/Laws/Slh.lean ====
section
/-! SUPPORT. A signature that `slhSign` makes verifies under its key (FIPS 205): a condition of R451 that can be met. -/

namespace Sys2Proof.Machine

theorem chiIota_length (rc : DWord) (a : List DWord) : (chiIota rc a).length = 25 := by simp only [chiIota, state25, List.length_map, List.length_range]

theorem keccakF_length (a : List DWord) : 17 ≤ (keccakF a).length := by
  have step : ∀ (l : List DWord) (a : List DWord), 17 ≤ a.length → 17 ≤ (l.foldl (fun a rc => chiIota rc (rhoPi (theta a))) a).length := by
    intro l
    induction l with
    | nil => exact fun _ h => h
    | cons rc r ih => exact fun a _ => ih _ (by rw [chiIota_length]; omega)
  unfold keccakF roundConstants
  rw [List.foldl_cons]
  exact step _ _ (by rw [chiIota_length]; omega)

theorem squeeze_length (n : Nat) (a : List DWord) (h : 17 ≤ a.length) : (squeeze n a).length = 136 * n := by
  induction n generalizing a with
  | zero => rfl
  | succ n ih =>
    have hk := keccakF_length a
    simp only [squeeze, List.length_append, List.length_flatMap, ih _ hk]
    have : ((a.take 17).map fun w => (toBytes w.toNat 8).length) = List.replicate 17 8 := by
      rw [List.eq_replicate_iff]
      simp [toBytes, h]
    rw [this]
    simp
    omega

theorem absorb_length (n : Nat) (m : List Byte) (a : List DWord) (h : 17 ≤ a.length) : 17 ≤ (absorb n m a).length := by
  induction n generalizing m a with
  | zero => exact h
  | succ n ih => exact ih _ _ (keccakF_length _)

theorem shake_length (m : List Byte) (n : Nat) : (shake m n).length = n := by
  simp only [shake, List.length_take]
  rw [squeeze_length _ _ (absorb_length _ _ _ (by simp))]
  omega

theorem slhHash_length (seed : List Byte) (x : Adrs) (m : List Byte) : (slhHash seed x m).length = 32 := shake_length _ _

theorem chain_length (seed : List Byte) (x : Adrs) (n i : Nat) (v : List Byte) (h : v.length = 32) : (chain seed x n i v).length = 32 := by
  induction n generalizing i v with
  | zero => exact h
  | succ n ih => exact ih _ _ (slhHash_length _ _ _)

theorem chain_add (seed : List Byte) (x : Adrs) (n k i : Nat) (v : List Byte) :
    chain seed x k (i + n) (chain seed x n i v) = chain seed x (n + k) i v := by
  induction n generalizing i v with
  | zero => simp [chain]
  | succ n ih => rw [show n + 1 + k = (n + k) + 1 by omega, chain, chain, ← ih]; congr 1; omega

theorem wotsDigits_length (m : List Byte) : (wotsDigits m).length = wotsLen := by simp [wotsDigits, base2b]

theorem wotsDigits_le (m : List Byte) : ∀ v ∈ wotsDigits m, v ≤ 15 := by
  intro v h
  simp only [wotsDigits, base2b, List.mem_append, List.mem_map] at h
  rcases h with ⟨_, _, rfl⟩ | ⟨_, _, rfl⟩ <;> exact Nat.le_of_lt_succ (Nat.mod_lt _ (by decide))

theorem wotsSign_length (sk seed : List Byte) (x : Adrs) (kp : Nat) (m : List Byte) : (wotsSign sk seed x kp m).length = wotsLen := by
  simp [wotsSign, wotsDigits_length]

/-- A signature of a message leads to the public key. -/
theorem wotsFromSig_sign (sk seed : List Byte) (x : Adrs) (kp : Nat) (m : List Byte) :
    wotsFromSig seed x kp (wotsSign sk seed x kp m) m = wotsPk sk seed x kp := by
  unfold wotsFromSig wotsPk
  congr 1
  refine List.ext_getElem (by simp [wotsDigits_length]) fun n h₁ h₂ => ?_
  have hn : n < (wotsDigits m).length := by simpa using h₁
  have hd := wotsDigits_le m _ (List.getElem_mem hn)
  simp only [wotsSign, List.getElem_map, List.getElem_zipIdx, List.getElem_range, Nat.zero_add, List.getD_eq_getElem?_getD]
  rw [List.getElem?_eq_getElem (by simpa using hn)]
  simp only [List.getElem_map, List.getElem_zipIdx, Option.getD_some, Nat.zero_add]
  have := chain_add seed (x.as 0 kp n 0) (wotsDigits m)[n] (15 - (wotsDigits m)[n]) 0 (wotsSecret sk seed x kp n)
  rw [Nat.zero_add] at this
  rw [this]
  congr 1
  omega

/-- A node and the siblings above it lead to the node n levels up. -/
theorem climb_authPath (seed : List Byte) (x : Adrs) (t w : Nat) (leaf : Nat → List Byte) (n z i : Nat) :
    climb seed x t w ((List.range n).map fun j => treeNode seed x t w leaf (z + j) (i / 2 ^ j ^^^ 1)) z i (treeNode seed x t w leaf z i)
      = treeNode seed x t w leaf (z + n) (i / 2 ^ n) := by
  induction n generalizing z i with
  | zero => simp [climb]
  | succ n ih =>
    rw [List.range_succ_eq_map, List.map_cons, List.map_map, climb]
    have hnode : slhHash seed (x.as t w (z + 1) (i / 2))
        (if i % 2 = 0 then treeNode seed x t w leaf z i ++ treeNode seed x t w leaf (z + 0) (i / 2 ^ 0 ^^^ 1)
          else treeNode seed x t w leaf (z + 0) (i / 2 ^ 0 ^^^ 1) ++ treeNode seed x t w leaf z i) = treeNode seed x t w leaf (z + 1) (i / 2) := by
      rw [treeNode]
      simp only [Nat.add_zero, Nat.pow_zero, Nat.div_one]
      have hx : i ^^^ 1 = if i % 2 = 0 then i + 1 else i - 1 := by
        split
        · rename_i h; exact Nat.xor_one_of_even (Nat.even_iff.2 h)
        · rename_i h; exact Nat.xor_one_of_odd (Nat.odd_iff.2 (by omega))
      rw [hx]
      split
      · rw [show 2 * (i / 2) = i by omega]
      · rw [show 2 * (i / 2) = i - 1 by omega, show i - 1 + 1 = i by omega]
    rw [hnode]
    have := ih (z + 1) (i / 2)
    rw [show z + (n + 1) = z + 1 + n by omega, show i / 2 ^ (n + 1) = i / 2 / 2 ^ n by rw [Nat.div_div_eq_div_mul, Nat.pow_succ']]
    rw [← this]
    congr 1
    apply List.map_congr_left
    intro j _
    simp only [Function.comp, Nat.succ_eq_add_one]
    rw [show z + (j + 1) = z + 1 + j by omega, show i / 2 ^ (j + 1) = i / 2 / 2 ^ j by rw [Nat.div_div_eq_div_mul, Nat.pow_succ']]

theorem climb_root (p : SlhParams) (sk seed : List Byte) (x : Adrs) (i : Nat) (h : i < 2 ^ p.hp) (m : List Byte) :
    climb seed x 2 0 (authPath seed x 2 0 (wotsPk sk seed x) p.hp i) 0 i (wotsFromSig seed x i (wotsSign sk seed x i m) m)
      = treeNode seed x 2 0 (wotsPk sk seed x) p.hp 0 := by
  have := climb_authPath seed x 2 0 (wotsPk sk seed x) p.hp 0 i
  simp only [treeNode, Nat.zero_add, Nat.div_eq_of_lt h] at this
  rw [wotsFromSig_sign]
  exact this

/-- A hypertree signature leads to the root of its last tree. -/
theorem htFromSig_sign (p : SlhParams) (sk seed : List Byte) (x : Adrs) (i : Nat) :
    ∀ (l : List (Adrs × Nat)) (m : List Byte), (∀ y ∈ l ++ [(x, i)], y.2 < 2 ^ p.hp) →
      htFromSig p seed (l ++ [(x, i)]) (htSign p sk seed (l ++ [(x, i)]) m) m = treeNode seed x 2 0 (wotsPk sk seed x) p.hp 0
  | [], m, h => by
    have hi : i < 2 ^ p.hp := h (x, i) (by simp)
    simp only [List.nil_append, htSign, htFromSig, List.append_nil]
    rw [List.take_left' (wotsSign_length _ _ _ _ _), List.drop_left' (wotsSign_length _ _ _ _ _), List.take_of_length_le (by simp [authPath])]
    exact climb_root p sk seed x i hi m
  | (y, j) :: r, m, h => by
    have hj : j < 2 ^ p.hp := h (y, j) (by simp)
    simp only [List.cons_append, htSign, htFromSig]
    have hlen : (wotsSign sk seed y j m ++ authPath seed y 2 0 (wotsPk sk seed y) p.hp j).length = wotsLen + p.hp := by
      simp [wotsSign_length, authPath]
    rw [List.drop_left' hlen, List.append_assoc, List.take_left' (wotsSign_length _ _ _ _ _), List.drop_left' (wotsSign_length _ _ _ _ _),
      List.take_left' (by simp [authPath])]
    exact htFromSig_sign p sk seed x i r _ fun z hz => h z (by simp only [List.cons_append, List.mem_cons]; exact .inr hz)

theorem pieces32_flatten (l : List (List Byte)) (h : ∀ x ∈ l, x.length = 32) : pieces32 l.flatten = l := by
  induction l with
  | nil => rfl
  | cons x r ih =>
    have hx : x.length = 32 := h x (by simp)
    have ih := ih fun y hy => h y (by simp [hy])
    unfold pieces32 at ih ⊢
    rw [List.flatten_cons, List.length_append, hx, show (32 + r.flatten.length) / 32 = r.flatten.length / 32 + 1 by omega,
      List.range_succ_eq_map, List.map_cons, List.map_map]
    congr 1
    · simp [List.take_left' hx]
    · refine Eq.trans ?_ ih
      apply List.map_congr_left
      intro i _
      simp only [Function.comp]
      rw [show 32 * i.succ = x.length + 32 * i by omega, List.drop_append, List.drop_of_length_le (by omega)]
      simp

theorem treeNode_length (seed : List Byte) (x : Adrs) (t w : Nat) (leaf : Nat → List Byte) (h : ∀ i, (leaf i).length = 32) (z i : Nat) :
    (treeNode seed x t w leaf z i).length = 32 := by
  cases z with
  | zero => exact h i
  | succ z => exact slhHash_length _ _ _

theorem authPath_length (seed : List Byte) (x : Adrs) (t w : Nat) (leaf : Nat → List Byte) (h : ∀ i, (leaf i).length = 32) (n i : Nat) :
    ∀ y ∈ authPath seed x t w leaf n i, y.length = 32 := by
  intro y m
  simp only [authPath, List.mem_map] at m
  obtain ⟨j, _, rfl⟩ := m
  exact treeNode_length _ _ _ _ _ h _ _

theorem htSign_pieces (p : SlhParams) (sk seed : List Byte) : ∀ (l : List (Adrs × Nat)) (m : List Byte),
    (htSign p sk seed l m).length = l.length * (wotsLen + p.hp) ∧ ∀ y ∈ htSign p sk seed l m, y.length = 32
  | [], _ => by simp [htSign]
  | (x, i) :: r, m => by
    have ⟨h₁, h₂⟩ := htSign_pieces p sk seed r (climb seed x 2 0 (authPath seed x 2 0 (wotsPk sk seed x) p.hp i) 0 i
      (wotsFromSig seed x i (wotsSign sk seed x i m) m))
    refine ⟨?_, ?_⟩
    · simp only [htSign, List.length_append, h₁, wotsSign_length, List.length_cons]
      simp [authPath]
      ring
    · intro y hy
      simp only [htSign, List.mem_append] at hy
      rcases hy with (hy | hy) | hy
      · simp only [wotsSign, List.mem_map] at hy
        obtain ⟨v, _, rfl⟩ := hy
        exact chain_length _ _ _ _ _ (slhHash_length _ _ _)
      · exact authPath_length _ _ _ _ _ (fun _ => slhHash_length _ _ _) _ _ y hy
      · exact h₂ y hy

theorem forsSign_pieces (p : SlhParams) (sk seed : List Byte) (x : Adrs) (kp : Nat) (ds : List Nat) :
    (forsSign p sk seed x kp ds).length = ds.length * (p.a + 1) ∧ ∀ y ∈ forsSign p sk seed x kp ds, y.length = 32 := by
  refine ⟨?_, ?_⟩
  · simp [forsSign, List.length_flatMap, authPath, List.map_const']
  · intro y hy
    simp only [forsSign, List.mem_flatMap, List.mem_cons] at hy
    obtain ⟨v, _, rfl | hy⟩ := hy
    · exact slhHash_length _ _ _
    · exact authPath_length _ _ _ _ _ (fun _ => slhHash_length _ _ _) _ _ y hy

/-- The last place of a hypertree signature is its topmost tree, and every leaf number is below the leaves of a tree. -/
theorem htPlaces_last (p : SlhParams) (tree leaf : Nat) (hd : 2 ≤ p.d) (ht : tree < 2 ^ (p.hp * (p.d - 1))) (hl : leaf < 2 ^ p.hp) :
    ∃ l i, htPlaces p tree leaf = l ++ [(⟨p.d - 1, 0, 0, 0, 0, 0⟩, i)] ∧ l.length + 1 = p.d ∧ ∀ y ∈ htPlaces p tree leaf, y.2 < 2 ^ p.hp := by
  obtain ⟨n, hn⟩ : ∃ n, p.d = n + 1 := ⟨p.d - 1, by omega⟩
  refine ⟨((List.range n).map fun j =>
    if j = 0 then (⟨0, tree, 0, 0, 0, 0⟩, leaf) else (⟨j, tree / 2 ^ (p.hp * j), 0, 0, 0, 0⟩, tree / 2 ^ (p.hp * (j - 1)) % 2 ^ p.hp)),
    tree / 2 ^ (p.hp * (n - 1)) % 2 ^ p.hp, ?_, by simp [hn], ?_⟩
  · have : n ≠ 0 := by omega
    rw [hn, Nat.add_sub_cancel] at ht
    simp [htPlaces, hn, List.range_succ, this, Nat.div_eq_of_lt ht]
  · intro y hy
    simp only [htPlaces, List.mem_map] at hy
    obtain ⟨j, _, rfl⟩ := hy
    split
    · exact hl
    · exact Nat.mod_lt _ (by positivity)

/-- A signature verifies under its public key. -/
theorem slhVerify_sign (p : SlhParams) (hd : 2 ≤ p.d) (sk prf seed msg : List Byte) :
    (slhSign p sk prf seed msg).length = p.sigLen ∧ slhVerify p seed (slhRoot p sk seed) msg (slhSign p sk prf seed msg) = true := by
  set root := slhRoot p sk seed with hroot
  set r := shake (prf ++ seed ++ slhMessage msg) 32 with hr
  obtain ⟨ds, tree, leaf, hx⟩ : ∃ ds tree leaf, slhSelect p r seed root (slhMessage msg) = (ds, tree, leaf) := ⟨_, _, _, rfl⟩
  have hds : ds.length = p.k := by
    have := congrArg (fun x : List Nat × Nat × Nat => x.1.length) hx
    simp [slhSelect, base2b] at this
    omega
  have htree : tree < 2 ^ (p.hp * (p.d - 1)) := by
    have := congrArg (fun x : List Nat × Nat × Nat => x.2.1) hx
    simp only [slhSelect] at this
    rw [← this]; exact Nat.mod_lt _ (by positivity)
  have hleaf : leaf < 2 ^ p.hp := by
    have := congrArg (fun x : List Nat × Nat × Nat => x.2.2) hx
    simp only [slhSelect] at this
    rw [← this]; exact Nat.mod_lt _ (by positivity)
  obtain ⟨l, i, hpl, hlen, hlt⟩ := htPlaces_last p tree leaf hd htree hleaf
  set fs := forsSign p sk seed ⟨0, tree, 3, leaf, 0, 0⟩ leaf ds with hfs
  set pk := forsFromSig p seed ⟨0, tree, 3, leaf, 0, 0⟩ leaf fs ds with hpk
  set ht := htSign p sk seed (htPlaces p tree leaf) pk with hht
  have hsig : slhSign p sk prf seed msg = (r :: (fs ++ ht)).flatten := by
    rw [List.flatten_cons, List.flatten_append, ← List.append_assoc]
    simp only [slhSign, ← hroot, ← hr, hx, ← hfs, ← hpk, ← hht]
  obtain ⟨f₁, f₂⟩ := forsSign_pieces p sk seed ⟨0, tree, 3, leaf, 0, 0⟩ leaf ds
  obtain ⟨h₁, h₂⟩ := htSign_pieces p sk seed (htPlaces p tree leaf) pk
  rw [hds] at f₁
  have hall : ∀ y ∈ r :: (fs ++ ht), y.length = 32 := by
    intro y hy
    simp only [List.mem_cons, List.mem_append] at hy
    rcases hy with rfl | hy | hy
    · exact shake_length _ _
    · exact f₂ y hy
    · exact h₂ y hy
  have hflat : (r :: (fs ++ ht)).flatten.length = p.sigLen := by
    rw [List.length_flatten, List.map_congr_left hall, List.map_const', List.sum_replicate, List.length_cons, List.length_append, f₁, h₁,
      show (htPlaces p tree leaf).length = p.d by simp [htPlaces]]
    simp only [SlhParams.sigLen, smul_eq_mul]
    ring
  refine ⟨by rw [hsig, hflat], ?_⟩
  rw [hsig, slhVerify, if_neg (not_not.2 hflat), pieces32_flatten _ hall]
  simp only [List.headD_cons, hx, List.drop_one, List.tail_cons]
  rw [List.take_left' (by rw [f₁, Nat.mul_comm]), ← hpk, show 1 + p.k * (p.a + 1) = p.k * (p.a + 1) + 1 by omega, List.drop_succ_cons,
    List.drop_left' (by rw [f₁, Nat.mul_comm]), hht, hpl, htFromSig_sign p sk seed _ i l pk (by rw [← hpl]; exact hlt)]
  simp [hroot, slhRoot]

end Sys2Proof.Machine
end

