-- ==== Sys2Proof/Laws/Boot.lean ====
section
/-! SUPPORT. A memory cut down to some addresses, a flash copied to a stack, and an image that passes its check (R450, R451). -/

namespace Sys2Proof.Machine

theorem Memory.read_unlisted (m : Memory) (a : Nat) (h : m.all (fun c => decide (c.1 ≠ a)) = true) : m.read a = 0 := by
  induction m with
  | nil => rfl
  | cons y r ih =>
    simp only [List.all_cons, Bool.and_eq_true, decide_eq_true_eq] at h
    simp only [Memory.read, if_neg h.1, ih h.2, ite_self]

/-- What is left of a memory at the addresses that pass a test. -/
theorem Memory.read_filter (m : Memory) (q : Nat → Bool) (a : Nat) (h : m.wf = true) :
    Memory.read (m.filter fun c => q c.1) a = if q a then m.read a else 0 := by
  induction m with
  | nil => simp [Memory.read]
  | cons y r ih =>
    obtain ⟨x, b⟩ := y
    have ih := ih (Memory.wf_tail h)
    have hl := Memory.wf_lt h
    by_cases hq : q x
    · simp only [List.filter_cons, hq, if_true, Memory.read]
      by_cases hx : x = a
      · subst hx; simp [hq]
      · simp only [if_neg hx]
        by_cases ha : a < x
        · simp [ha]
        · simp [ha, ih]
    · simp only [List.filter_cons, hq, Bool.false_eq_true, if_false, ih, Memory.read]
      by_cases hx : x = a
      · subst hx; simp [hq]
      · simp only [if_neg hx]
        by_cases ha : a < x
        · have : Memory.read r a = 0 := Memory.read_of_lt fun c hc => lt_trans ha (hl c hc)
          simp [ha, this]
        · simp [ha]

theorem Memory.read_clear (m : Memory) (a n j : Nat) (h : m.wf = true) :
    (m.clear a n).read j = if a ≤ j ∧ j < a + n then 0 else m.read j := by
  have := Memory.read_filter m (fun x => decide (x < a) || decide (a + n ≤ x)) j h
  rw [Memory.clear, this]
  simp only [Bool.or_eq_true, decide_eq_true_eq]
  by_cases hj : a ≤ j ∧ j < a + n
  · rw [if_neg (by omega), if_pos hj]
  · rw [if_pos (by omega), if_neg hj]

/-- Cells written one after another at a shift. -/
theorem Memory.read_shifted (src dst : Nat) : ∀ (l m : Memory), l.wf = true → (∀ c ∈ l, src ≤ c.1) → m.wf = true →
    let t := l.foldl (fun (m : Memory) c => m.write (dst + (c.1 - src)) c.2) m
    Memory.wf t = true ∧ (∀ i, l.all (fun c => decide (c.1 ≠ src + i)) = false → t.read (dst + i) = l.read (src + i))
      ∧ ∀ j, (∀ c ∈ l, j ≠ dst + (c.1 - src)) → t.read j = m.read j
  | [], m, _, _, hm => by simp [hm]
  | (x, b) :: r, m, h, hs, hm => by
    have hl := Memory.wf_lt h
    have hx : src ≤ x := hs (x, b) (by simp)
    have hm' := Memory.write_wf m (dst + (x - src)) b hm
    obtain ⟨w, h₁, h₂⟩ := Memory.read_shifted src dst r (m.write (dst + (x - src)) b) (Memory.wf_tail h) (fun c hc => hs c (by simp [hc])) hm'
    refine ⟨w, fun i hi => ?_, fun j hj => ?_⟩
    · by_cases hxi : x = src + i
      · have hrest : ∀ c ∈ r, dst + i ≠ dst + (c.1 - src) := fun c hc => by have := hl c hc; have := hs c (by simp [hc]); simp at *; omega
        simp only [List.foldl_cons] at h₂ ⊢
        rw [h₂ _ hrest, show dst + i = dst + (x - src) by omega, Memory.read_write_self _ _ _ hm]
        simp [Memory.read, hxi]
      · simp only [List.all_cons, Bool.and_eq_false_iff, decide_eq_false_iff_not, not_not] at hi
        have hi := hi.resolve_left hxi
        simp only [List.foldl_cons]
        rw [h₁ i hi]
        simp only [Memory.read, if_neg hxi]
        rw [if_neg]
        intro hlt
        rw [List.all_eq_false] at hi
        obtain ⟨c, hc, hc'⟩ := hi
        have := hl c hc
        simp at hc' this
        omega
    · simp only [List.foldl_cons]
      rw [h₂ j fun c hc => hj c (by simp [hc]), Memory.read_write_ne _ _ (hj (x, b) (by simp)) hm]

/-- A flash copied to a stack: the bytes of the copy, and every other byte as before. -/
theorem copyFlash_read (flash m : Memory) (src dst n : Nat) (hf : flash.wf = true) (hm : m.wf = true) :
    (∀ i, i < n → (copyFlash flash m src dst n).read (dst + i) = flash.read (src + i))
      ∧ ∀ j, j < dst ∨ dst + n ≤ j → (copyFlash flash m src dst n).read j = m.read j := by
  set q : Nat → Bool := fun x => decide (src ≤ x) && decide (x < src + n) with hq
  have hr := fun a => Memory.read_filter flash q a hf
  obtain ⟨-, h₁, h₂⟩ := Memory.read_shifted src dst (flash.filter fun c => q c.1) (m.clear dst n) (Memory.filter_wf _ _ hf)
    (fun c hc => by have := (List.mem_filter.1 hc).2; simp [hq] at this; exact this.1) (Memory.clear_wf _ _ _ hm)
  refine ⟨fun i hi => ?_, fun j hj => ?_⟩
  · have hqi : q (src + i) = true := by simp [hq]; omega
    cases hall : (flash.filter fun c => q c.1).all fun c => decide (c.1 ≠ src + i) with
    | false => exact (h₁ i hall).trans ((hr _).trans (if_pos hqi))
    | true =>
      have hz := Memory.read_unlisted _ _ hall
      rw [hr, if_pos hqi] at hz
      rw [hz]
      refine (h₂ (dst + i) fun c hc => ?_).trans ?_
      · have h₃ := List.all_eq_true.1 hall c hc
        have h₄ := (List.mem_filter.1 hc).2
        simp [hq] at h₃ h₄
        omega
      · rw [Memory.read_clear _ _ _ _ hm, if_pos (by omega)]
  · refine (h₂ j fun c hc => ?_).trans ?_
    · have h₄ := (List.mem_filter.1 hc).2
      simp [hq] at h₄
      omega
    · rw [Memory.read_clear _ _ _ _ hm, if_neg (by omega)]

/-! ## Bytes in a memory -/

/-- The memory that holds a byte string at an address. -/
def cellsAt : Nat → List Byte → Memory
  | _, [] => []
  | a, b :: r => if b = 0 then cellsAt (a + 1) r else (a, b) :: cellsAt (a + 1) r

theorem cellsAt_lt : ∀ (a : Nat) (bs : List Byte), ∀ c ∈ cellsAt a bs, a ≤ c.1
  | _, [] => by simp [cellsAt]
  | a, b :: r => by
    intro c hc
    simp only [cellsAt] at hc
    split at hc
    · exact Nat.le_of_succ_le (cellsAt_lt (a + 1) r c hc)
    · rcases List.mem_cons.1 hc with rfl | hc
      · exact Nat.le_refl _
      · exact Nat.le_of_succ_le (cellsAt_lt (a + 1) r c hc)

theorem cellsAt_wf : ∀ (a : Nat) (bs : List Byte), (cellsAt a bs).wf = true
  | _, [] => rfl
  | a, b :: r => by
    simp only [cellsAt]
    split
    · exact cellsAt_wf (a + 1) r
    · exact Memory.wf_cons ‹_› (cellsAt_lt (a + 1) r) (cellsAt_wf (a + 1) r)

theorem cellsAt_read : ∀ (a : Nat) (bs : List Byte) (i : Nat), (cellsAt a bs).read (a + i) = bs.getD i 0
  | _, [], _ => rfl
  | a, b :: r, i => by
    have hlow : (cellsAt (a + 1) r).read a = 0 := Memory.read_of_lt (cellsAt_lt (a + 1) r)
    cases i with
    | zero =>
      simp only [cellsAt]
      split
      · simp_all
      · simp [Memory.read]
    | succ i =>
      have ih := cellsAt_read (a + 1) r i
      rw [show a + 1 + i = a + (i + 1) by omega] at ih
      simp only [cellsAt, List.getD_cons_succ]
      split
      · exact ih
      · simp only [Memory.read, if_neg (show a ≠ a + (i + 1) by omega), if_neg (show ¬ a + (i + 1) < a by omega), ih]

/-! ## An image in form -/

/-- The first 128 bytes of an image with no body: magic, kind, partition, zeros and the key. -/
def imageHeader (kind part : Byte) (key : List Byte) : List Byte := [0x1F, 0x5B, kind, part] ++ List.replicate 60 0 ++ key

/-- A key of 64 bytes and a signature under it. -/
def SignedBy (kind part : Byte) (key sig : List Byte) : Prop :=
  key.length = 64 ∧ sig.length = sigBytes ∧ imageSigOk key (imageHeader kind part key) sig = true

theorem slhRoot_length (p : SlhParams) (sk seed : List Byte) : (slhRoot p sk seed).length = 32 :=
  treeNode_length _ _ _ _ _ (fun _ => slhHash_length _ _ _) _ _

/-- Every seed of 32 bytes and every secret give a key and a signature of the image that holds the key (FIPS 205). -/
theorem signed_by (kind part : Byte) (sk prf seed : List Byte) (h : seed.length = 32) :
    ∃ key sig, SignedBy kind part key sig := by
  refine ⟨seed ++ slhRoot slh256s sk seed, slhSign slh256s sk prf seed (imageHeader kind part (seed ++ slhRoot slh256s sk seed)), ?_, ?_, ?_⟩
  · rw [List.length_append, h, slhRoot_length]
  · rw [(slhVerify_sign slh256s (by decide) _ _ _ _).1]
    rfl
  · rw [imageSigOk, List.take_left' h, List.drop_left' h]
    exact (slhVerify_sign slh256s (by decide) _ _ _ _).2

theorem imageHeader_length (kind part : Byte) (key : List Byte) (h : key.length = 64) : (imageHeader kind part key).length = 128 := by
  rw [imageHeader, List.length_append, List.length_append, List.length_replicate, h]
  rfl

/-- A memory that holds an image at an address. -/
def HoldsImage (m : Memory) (a : Nat) (kind part : Byte) (key sig : List Byte) : Prop :=
  ∀ i, i < 128 + sigBytes → m.read (a + i) = (imageHeader kind part key ++ sig).getD i 0

section
variable (m : Memory) (a : Nat) (kind part : Byte) (key sig : List Byte)

theorem holdsImage_bytes (s : SignedBy kind part key sig) (h : HoldsImage m a kind part key sig) (k n : Nat) (hk : k + n ≤ 128 + sigBytes) :
    m.bytes (a + k) n = ((imageHeader kind part key ++ sig).drop k).take n := by
  have hlen : (imageHeader kind part key ++ sig).length = 128 + sigBytes := by
    rw [List.length_append, imageHeader_length _ _ _ s.1, s.2.1]
  refine List.ext_getElem (by rw [Memory.bytes, List.length_map, List.length_range, List.length_take, List.length_drop, hlen]; omega) fun i h₁ h₂ => ?_
  have hi : i < n := by rwa [Memory.bytes, List.length_map, List.length_range] at h₁
  simp only [Memory.bytes, List.getElem_map, List.getElem_range, List.getElem_take, List.getElem_drop]
  rw [Nat.add_assoc, h _ (by omega), List.getD_eq_getElem?_getD, List.getElem?_eq_getElem (by omega)]
  rfl

theorem holdsImage_low (h : HoldsImage m a kind part key sig) (i : Nat) (hi : i < 64) :
    m.read (a + i) = ([0x1F, 0x5B, kind, part] ++ List.replicate 60 0 : List Byte).getD i 0 := by
  rw [h i (by have : sigBytes = 29792 := rfl; omega), imageHeader, List.append_assoc]
  simp only [List.getD_eq_getElem?_getD]
  rw [List.getElem?_append_left (by simp only [List.length_append, List.length_replicate, List.length_cons, List.length_nil]; omega)]

/-- The image passes its check: its key, its version and its signature are right (R451). -/
theorem holdsImage_check (s : SignedBy kind part key sig) (h : HoldsImage m a kind part key sig) (hash : BitVec 512)
    (hh : kind.toNat = 3 ∨ shake256 key = hash) :
    headerOk m a kind.toNat = true ∧ bodyLen m a = 0 ∧ m.read (a + 3) = part ∧ imageCheck m a kind.toNat hash 0 = 0 := by
  have low := holdsImage_low m a kind part key sig h
  have h0 : m.read a = 0x1F := low 0 (by decide)
  have h1 : m.read (a + 1) = 0x5B := low 1 (by decide)
  have h2 : m.read (a + 2) = kind := low 2 (by decide)
  have h3 : m.read (a + 3) = part := low 3 (by decide)
  have hok : headerOk m a kind.toNat = true := by simp [headerOk, Memory.readN, h0, h1, h2]
  have hz : ∀ n k, k + n ≤ 60 → m.readN (a + (4 + k)) n = 0 := by
    intro n
    induction n with
    | zero => exact fun _ _ => rfl
    | succ n ih =>
      intro k hk
      have hk0 : m.read (a + (4 + k)) = 0 := by
        rw [low _ (by omega), List.getD_eq_getElem?_getD, List.getElem?_append_right (by simp), List.getElem?_replicate]
        split <;> rfl
      rw [Memory.readN, hk0, show a + (4 + k) + 1 = a + (4 + (k + 1)) by omega, ih _ (by omega)]
      rfl
  have hlen : bodyLen m a = 0 := hz 8 4 (by decide)
  have hkey : m.bytes (a + 0x40) 64 = key := by
    rw [holdsImage_bytes m a kind part key sig s h 64 64 (by decide), imageHeader, List.append_assoc, List.drop_left' (by rfl),
      List.take_left' s.1]
  have hmsg : signedBytes m a = imageHeader kind part key := by
    have := holdsImage_bytes m a kind part key sig s h 0 128 (by decide)
    rw [List.drop_zero, List.take_left' (imageHeader_length _ _ _ s.1)] at this
    rw [signedBytes, hlen]
    exact this
  have hsig : m.bytes (a + 0x80 + bodyLen m a) sigBytes = sig := by
    rw [hlen, Nat.add_zero, holdsImage_bytes m a kind part key sig s h 128 sigBytes (by omega), List.drop_left' (imageHeader_length _ _ _ s.1),
      List.take_of_length_le (by rw [s.2.1])]
  refine ⟨hok, hlen, h3, ?_⟩
  rw [imageCheck, hkey, hmsg, hsig, s.2.2, hok]
  rcases hh with hh | hh <;> simp [hh]

end

/-- A memory that holds nothing but an image. -/
def imageAt (a : Nat) (kind part : Byte) (key sig : List Byte) : Memory := cellsAt a (imageHeader kind part key ++ sig)

theorem imageAt_holds (a : Nat) (kind part : Byte) (key sig : List Byte) : HoldsImage (imageAt a kind part key sig) a kind part key sig :=
  fun _ _ => cellsAt_read _ _ _

end Sys2Proof.Machine
end

