-- ==== Sys2Proof/Laws/Tables.lean ====
section
/-! SUPPORT. Sparse tables: a value read after a write, and what a write leaves alone. No lemma needs the keys to rise. -/

namespace Sys2Proof.Machine

theorem tfind_tset_self {α : Type} (t : Table α) (k : Nat) (v : α) : tfind (tset t k v) k = some v := by
  induction t with
  | nil => simp [tset, tfind]
  | cons p r ih =>
    obtain ⟨j, w⟩ := p
    simp only [tset]
    split
    · simp only [tfind, ih]; rw [if_neg (by omega)]
    · split <;> simp [tfind]

theorem tfind_tset_ne {α : Type} (t : Table α) {j k : Nat} (v : α) (h : j ≠ k) : tfind (tset t k v) j = tfind t j := by
  induction t with
  | nil => simp [tset, tfind, h.symm]
  | cons p r ih =>
    obtain ⟨i, w⟩ := p
    simp only [tset]
    split
    · simp only [tfind, ih]
    · split
      · rename_i hik; subst hik; simp [tfind, h.symm]
      · simp [tfind, h.symm]

theorem tget_tset_self {α : Type} (d : α) (t : Table α) (k : Nat) (v : α) : tget d (tset t k v) k = v := by
  simp [tget, tfind_tset_self]

theorem tget_tset_ne {α : Type} (d : α) (t : Table α) {j k : Nat} (v : α) (h : j ≠ k) : tget d (tset t k v) j = tget d t j := by
  simp [tget, tfind_tset_ne t v h]

theorem tset_tset {α : Type} (t : Table α) (k : Nat) (v w : α) : tset (tset t k v) k w = tset t k w := by
  induction t with
  | nil => simp [tset]
  | cons p r ih =>
    obtain ⟨i, x⟩ := p
    simp only [tset]
    split
    · rename_i h; simp [tset, h, ih]
    · split <;> simp [tset]

theorem tfind_tdel_self {α : Type} (t : Table α) (k : Nat) : tfind (tdel t k) k = none := by
  induction t with
  | nil => rfl
  | cons p r ih =>
    obtain ⟨i, x⟩ := p
    by_cases h : i = k
    · simpa [tdel, h] using ih
    · simpa [tdel, tfind, h] using ih

theorem tget_tdel_self {α : Type} (d : α) (t : Table α) (k : Nat) : tget d (tdel t k) k = d := by
  simp [tget, tfind_tdel_self]

theorem tfind_tdel_ne {α : Type} (t : Table α) {j k : Nat} (h : j ≠ k) : tfind (tdel t k) j = tfind t j := by
  induction t with
  | nil => rfl
  | cons p r ih =>
    obtain ⟨i, x⟩ := p
    have hc : tdel ((i, x) :: r) k = if i = k then tdel r k else (i, x) :: tdel r k := by
      by_cases hi : i = k <;> simp [tdel, hi]
    rw [hc]
    by_cases hi : i = k
    · subst hi; simp [tfind, h.symm, ih]
    · simp only [hi, if_false, tfind, ih]

end Sys2Proof.Machine
end

