-- ==== Sys2Proof/Laws/State.lean ====
section
/-! SUPPORT. The fields that each named update of the state leaves alone and those it writes, each by rfl. -/

namespace Sys2Proof.Machine

/-! ### Fabric.setEl -/

@[simp] theorem Fabric.setEl_blks (f : Fabric) (k : Nat) (e : Element) : (f.setEl k e).blks = f.blks := rfl
@[simp] theorem Fabric.setEl_dies (f : Fabric) (k : Nat) (e : Element) : (f.setEl k e).dies = f.dies := rfl
@[simp] theorem Fabric.setEl_lode (f : Fabric) (k : Nat) (e : Element) : (f.setEl k e).lode = f.lode := rfl
@[simp] theorem Fabric.setEl_ports (f : Fabric) (k : Nat) (e : Element) : (f.setEl k e).ports = f.ports := rfl
@[simp] theorem Fabric.setEl_launch (f : Fabric) (k : Nat) (e : Element) : (f.setEl k e).launch = f.launch := rfl
@[simp] theorem Fabric.setEl_hostMem (f : Fabric) (k : Nat) (e : Element) : (f.setEl k e).hostMem = f.hostMem := rfl
@[simp] theorem Fabric.setEl_rels (f : Fabric) (k : Nat) (e : Element) : (f.setEl k e).rels = f.rels := rfl
@[simp] theorem Fabric.setEl_diePart (f : Fabric) (k : Nat) (e : Element) : (f.setEl k e).diePart = f.diePart := rfl
@[simp] theorem Fabric.setEl_stackPart (f : Fabric) (k : Nat) (e : Element) : (f.setEl k e).stackPart = f.stackPart := rfl
@[simp] theorem Fabric.setEl_portPart (f : Fabric) (k : Nat) (e : Element) : (f.setEl k e).portPart = f.portPart := rfl
@[simp] theorem Fabric.setEl_pkg (f : Fabric) (k : Nat) (e : Element) : (f.setEl k e).pkg = f.pkg := rfl
@[simp] theorem Fabric.setEl_lpc (f : Fabric) (k : Nat) (e : Element) : (f.setEl k e).lpc = f.lpc := rfl
@[simp] theorem Fabric.setEl_sigStat (f : Fabric) (k : Nat) (e : Element) : (f.setEl k e).sigStat = f.sigStat := rfl
@[simp] theorem Fabric.setEl_sigMeas (f : Fabric) (k : Nat) (e : Element) : (f.setEl k e).sigMeas = f.sigMeas := rfl
@[simp] theorem Fabric.setEl_peers (f : Fabric) (k : Nat) (e : Element) : (f.setEl k e).peers = f.peers := rfl
@[simp] theorem Fabric.setEl_raws (f : Fabric) (k : Nat) (e : Element) : (f.setEl k e).raws = f.raws := rfl
@[simp] theorem Fabric.setEl_agenda (f : Fabric) (k : Nat) (e : Element) : (f.setEl k e).agenda = f.agenda := rfl
@[simp] theorem Fabric.setEl_sched (f : Fabric) (k : Nat) (e : Element) : (f.setEl k e).sched = f.sched := rfl
@[simp] theorem Fabric.setEl_clock (f : Fabric) (k : Nat) (e : Element) : (f.setEl k e).clock = f.clock := rfl
@[simp] theorem Fabric.setEl_cur (f : Fabric) (k : Nat) (e : Element) : (f.setEl k e).cur = f.cur := rfl
@[simp] theorem Fabric.setEl_fire (f : Fabric) (k : Nat) (e : Element) : (f.setEl k e).fire = f.fire := rfl

/-! ### Fabric.modEl -/

@[simp] theorem Fabric.modEl_blks (f : Fabric) (k : Nat) (g : Element → Element) : (f.modEl k g).blks = f.blks := rfl
@[simp] theorem Fabric.modEl_dies (f : Fabric) (k : Nat) (g : Element → Element) : (f.modEl k g).dies = f.dies := rfl
@[simp] theorem Fabric.modEl_lode (f : Fabric) (k : Nat) (g : Element → Element) : (f.modEl k g).lode = f.lode := rfl
@[simp] theorem Fabric.modEl_ports (f : Fabric) (k : Nat) (g : Element → Element) : (f.modEl k g).ports = f.ports := rfl
@[simp] theorem Fabric.modEl_launch (f : Fabric) (k : Nat) (g : Element → Element) : (f.modEl k g).launch = f.launch := rfl
@[simp] theorem Fabric.modEl_hostMem (f : Fabric) (k : Nat) (g : Element → Element) : (f.modEl k g).hostMem = f.hostMem := rfl
@[simp] theorem Fabric.modEl_rels (f : Fabric) (k : Nat) (g : Element → Element) : (f.modEl k g).rels = f.rels := rfl
@[simp] theorem Fabric.modEl_diePart (f : Fabric) (k : Nat) (g : Element → Element) : (f.modEl k g).diePart = f.diePart := rfl
@[simp] theorem Fabric.modEl_stackPart (f : Fabric) (k : Nat) (g : Element → Element) : (f.modEl k g).stackPart = f.stackPart := rfl
@[simp] theorem Fabric.modEl_portPart (f : Fabric) (k : Nat) (g : Element → Element) : (f.modEl k g).portPart = f.portPart := rfl
@[simp] theorem Fabric.modEl_pkg (f : Fabric) (k : Nat) (g : Element → Element) : (f.modEl k g).pkg = f.pkg := rfl
@[simp] theorem Fabric.modEl_lpc (f : Fabric) (k : Nat) (g : Element → Element) : (f.modEl k g).lpc = f.lpc := rfl
@[simp] theorem Fabric.modEl_sigStat (f : Fabric) (k : Nat) (g : Element → Element) : (f.modEl k g).sigStat = f.sigStat := rfl
@[simp] theorem Fabric.modEl_sigMeas (f : Fabric) (k : Nat) (g : Element → Element) : (f.modEl k g).sigMeas = f.sigMeas := rfl
@[simp] theorem Fabric.modEl_peers (f : Fabric) (k : Nat) (g : Element → Element) : (f.modEl k g).peers = f.peers := rfl
@[simp] theorem Fabric.modEl_raws (f : Fabric) (k : Nat) (g : Element → Element) : (f.modEl k g).raws = f.raws := rfl
@[simp] theorem Fabric.modEl_agenda (f : Fabric) (k : Nat) (g : Element → Element) : (f.modEl k g).agenda = f.agenda := rfl
@[simp] theorem Fabric.modEl_sched (f : Fabric) (k : Nat) (g : Element → Element) : (f.modEl k g).sched = f.sched := rfl
@[simp] theorem Fabric.modEl_clock (f : Fabric) (k : Nat) (g : Element → Element) : (f.modEl k g).clock = f.clock := rfl
@[simp] theorem Fabric.modEl_cur (f : Fabric) (k : Nat) (g : Element → Element) : (f.modEl k g).cur = f.cur := rfl
@[simp] theorem Fabric.modEl_fire (f : Fabric) (k : Nat) (g : Element → Element) : (f.modEl k g).fire = f.fire := rfl

/-! ### Fabric.setBlk -/

@[simp] theorem Fabric.setBlk_els (f : Fabric) (k : Nat) (b : Block) : (f.setBlk k b).els = f.els := rfl
@[simp] theorem Fabric.setBlk_dies (f : Fabric) (k : Nat) (b : Block) : (f.setBlk k b).dies = f.dies := rfl
@[simp] theorem Fabric.setBlk_lode (f : Fabric) (k : Nat) (b : Block) : (f.setBlk k b).lode = f.lode := rfl
@[simp] theorem Fabric.setBlk_ports (f : Fabric) (k : Nat) (b : Block) : (f.setBlk k b).ports = f.ports := rfl
@[simp] theorem Fabric.setBlk_launch (f : Fabric) (k : Nat) (b : Block) : (f.setBlk k b).launch = f.launch := rfl
@[simp] theorem Fabric.setBlk_hostMem (f : Fabric) (k : Nat) (b : Block) : (f.setBlk k b).hostMem = f.hostMem := rfl
@[simp] theorem Fabric.setBlk_rels (f : Fabric) (k : Nat) (b : Block) : (f.setBlk k b).rels = f.rels := rfl
@[simp] theorem Fabric.setBlk_diePart (f : Fabric) (k : Nat) (b : Block) : (f.setBlk k b).diePart = f.diePart := rfl
@[simp] theorem Fabric.setBlk_stackPart (f : Fabric) (k : Nat) (b : Block) : (f.setBlk k b).stackPart = f.stackPart := rfl
@[simp] theorem Fabric.setBlk_portPart (f : Fabric) (k : Nat) (b : Block) : (f.setBlk k b).portPart = f.portPart := rfl
@[simp] theorem Fabric.setBlk_pkg (f : Fabric) (k : Nat) (b : Block) : (f.setBlk k b).pkg = f.pkg := rfl
@[simp] theorem Fabric.setBlk_lpc (f : Fabric) (k : Nat) (b : Block) : (f.setBlk k b).lpc = f.lpc := rfl
@[simp] theorem Fabric.setBlk_sigStat (f : Fabric) (k : Nat) (b : Block) : (f.setBlk k b).sigStat = f.sigStat := rfl
@[simp] theorem Fabric.setBlk_sigMeas (f : Fabric) (k : Nat) (b : Block) : (f.setBlk k b).sigMeas = f.sigMeas := rfl
@[simp] theorem Fabric.setBlk_peers (f : Fabric) (k : Nat) (b : Block) : (f.setBlk k b).peers = f.peers := rfl
@[simp] theorem Fabric.setBlk_raws (f : Fabric) (k : Nat) (b : Block) : (f.setBlk k b).raws = f.raws := rfl
@[simp] theorem Fabric.setBlk_agenda (f : Fabric) (k : Nat) (b : Block) : (f.setBlk k b).agenda = f.agenda := rfl
@[simp] theorem Fabric.setBlk_sched (f : Fabric) (k : Nat) (b : Block) : (f.setBlk k b).sched = f.sched := rfl
@[simp] theorem Fabric.setBlk_clock (f : Fabric) (k : Nat) (b : Block) : (f.setBlk k b).clock = f.clock := rfl
@[simp] theorem Fabric.setBlk_cur (f : Fabric) (k : Nat) (b : Block) : (f.setBlk k b).cur = f.cur := rfl
@[simp] theorem Fabric.setBlk_fire (f : Fabric) (k : Nat) (b : Block) : (f.setBlk k b).fire = f.fire := rfl

/-! ### Fabric.modBlk -/

@[simp] theorem Fabric.modBlk_els (f : Fabric) (k : Nat) (g : Block → Block) : (f.modBlk k g).els = f.els := rfl
@[simp] theorem Fabric.modBlk_dies (f : Fabric) (k : Nat) (g : Block → Block) : (f.modBlk k g).dies = f.dies := rfl
@[simp] theorem Fabric.modBlk_lode (f : Fabric) (k : Nat) (g : Block → Block) : (f.modBlk k g).lode = f.lode := rfl
@[simp] theorem Fabric.modBlk_ports (f : Fabric) (k : Nat) (g : Block → Block) : (f.modBlk k g).ports = f.ports := rfl
@[simp] theorem Fabric.modBlk_launch (f : Fabric) (k : Nat) (g : Block → Block) : (f.modBlk k g).launch = f.launch := rfl
@[simp] theorem Fabric.modBlk_hostMem (f : Fabric) (k : Nat) (g : Block → Block) : (f.modBlk k g).hostMem = f.hostMem := rfl
@[simp] theorem Fabric.modBlk_rels (f : Fabric) (k : Nat) (g : Block → Block) : (f.modBlk k g).rels = f.rels := rfl
@[simp] theorem Fabric.modBlk_diePart (f : Fabric) (k : Nat) (g : Block → Block) : (f.modBlk k g).diePart = f.diePart := rfl
@[simp] theorem Fabric.modBlk_stackPart (f : Fabric) (k : Nat) (g : Block → Block) : (f.modBlk k g).stackPart = f.stackPart := rfl
@[simp] theorem Fabric.modBlk_portPart (f : Fabric) (k : Nat) (g : Block → Block) : (f.modBlk k g).portPart = f.portPart := rfl
@[simp] theorem Fabric.modBlk_pkg (f : Fabric) (k : Nat) (g : Block → Block) : (f.modBlk k g).pkg = f.pkg := rfl
@[simp] theorem Fabric.modBlk_lpc (f : Fabric) (k : Nat) (g : Block → Block) : (f.modBlk k g).lpc = f.lpc := rfl
@[simp] theorem Fabric.modBlk_sigStat (f : Fabric) (k : Nat) (g : Block → Block) : (f.modBlk k g).sigStat = f.sigStat := rfl
@[simp] theorem Fabric.modBlk_sigMeas (f : Fabric) (k : Nat) (g : Block → Block) : (f.modBlk k g).sigMeas = f.sigMeas := rfl
@[simp] theorem Fabric.modBlk_peers (f : Fabric) (k : Nat) (g : Block → Block) : (f.modBlk k g).peers = f.peers := rfl
@[simp] theorem Fabric.modBlk_raws (f : Fabric) (k : Nat) (g : Block → Block) : (f.modBlk k g).raws = f.raws := rfl
@[simp] theorem Fabric.modBlk_agenda (f : Fabric) (k : Nat) (g : Block → Block) : (f.modBlk k g).agenda = f.agenda := rfl
@[simp] theorem Fabric.modBlk_sched (f : Fabric) (k : Nat) (g : Block → Block) : (f.modBlk k g).sched = f.sched := rfl
@[simp] theorem Fabric.modBlk_clock (f : Fabric) (k : Nat) (g : Block → Block) : (f.modBlk k g).clock = f.clock := rfl
@[simp] theorem Fabric.modBlk_cur (f : Fabric) (k : Nat) (g : Block → Block) : (f.modBlk k g).cur = f.cur := rfl
@[simp] theorem Fabric.modBlk_fire (f : Fabric) (k : Nat) (g : Block → Block) : (f.modBlk k g).fire = f.fire := rfl

/-! ### Fabric.setDie -/

@[simp] theorem Fabric.setDie_els (f : Fabric) (k : Nat) (d : BaseDie) : (f.setDie k d).els = f.els := rfl
@[simp] theorem Fabric.setDie_blks (f : Fabric) (k : Nat) (d : BaseDie) : (f.setDie k d).blks = f.blks := rfl
@[simp] theorem Fabric.setDie_lode (f : Fabric) (k : Nat) (d : BaseDie) : (f.setDie k d).lode = f.lode := rfl
@[simp] theorem Fabric.setDie_ports (f : Fabric) (k : Nat) (d : BaseDie) : (f.setDie k d).ports = f.ports := rfl
@[simp] theorem Fabric.setDie_launch (f : Fabric) (k : Nat) (d : BaseDie) : (f.setDie k d).launch = f.launch := rfl
@[simp] theorem Fabric.setDie_hostMem (f : Fabric) (k : Nat) (d : BaseDie) : (f.setDie k d).hostMem = f.hostMem := rfl
@[simp] theorem Fabric.setDie_rels (f : Fabric) (k : Nat) (d : BaseDie) : (f.setDie k d).rels = f.rels := rfl
@[simp] theorem Fabric.setDie_diePart (f : Fabric) (k : Nat) (d : BaseDie) : (f.setDie k d).diePart = f.diePart := rfl
@[simp] theorem Fabric.setDie_stackPart (f : Fabric) (k : Nat) (d : BaseDie) : (f.setDie k d).stackPart = f.stackPart := rfl
@[simp] theorem Fabric.setDie_portPart (f : Fabric) (k : Nat) (d : BaseDie) : (f.setDie k d).portPart = f.portPart := rfl
@[simp] theorem Fabric.setDie_pkg (f : Fabric) (k : Nat) (d : BaseDie) : (f.setDie k d).pkg = f.pkg := rfl
@[simp] theorem Fabric.setDie_lpc (f : Fabric) (k : Nat) (d : BaseDie) : (f.setDie k d).lpc = f.lpc := rfl
@[simp] theorem Fabric.setDie_sigStat (f : Fabric) (k : Nat) (d : BaseDie) : (f.setDie k d).sigStat = f.sigStat := rfl
@[simp] theorem Fabric.setDie_sigMeas (f : Fabric) (k : Nat) (d : BaseDie) : (f.setDie k d).sigMeas = f.sigMeas := rfl
@[simp] theorem Fabric.setDie_peers (f : Fabric) (k : Nat) (d : BaseDie) : (f.setDie k d).peers = f.peers := rfl
@[simp] theorem Fabric.setDie_raws (f : Fabric) (k : Nat) (d : BaseDie) : (f.setDie k d).raws = f.raws := rfl
@[simp] theorem Fabric.setDie_agenda (f : Fabric) (k : Nat) (d : BaseDie) : (f.setDie k d).agenda = f.agenda := rfl
@[simp] theorem Fabric.setDie_sched (f : Fabric) (k : Nat) (d : BaseDie) : (f.setDie k d).sched = f.sched := rfl
@[simp] theorem Fabric.setDie_clock (f : Fabric) (k : Nat) (d : BaseDie) : (f.setDie k d).clock = f.clock := rfl
@[simp] theorem Fabric.setDie_cur (f : Fabric) (k : Nat) (d : BaseDie) : (f.setDie k d).cur = f.cur := rfl
@[simp] theorem Fabric.setDie_fire (f : Fabric) (k : Nat) (d : BaseDie) : (f.setDie k d).fire = f.fire := rfl

/-! ### Fabric.modDie -/

@[simp] theorem Fabric.modDie_els (f : Fabric) (k : Nat) (g : BaseDie → BaseDie) : (f.modDie k g).els = f.els := rfl
@[simp] theorem Fabric.modDie_blks (f : Fabric) (k : Nat) (g : BaseDie → BaseDie) : (f.modDie k g).blks = f.blks := rfl
@[simp] theorem Fabric.modDie_lode (f : Fabric) (k : Nat) (g : BaseDie → BaseDie) : (f.modDie k g).lode = f.lode := rfl
@[simp] theorem Fabric.modDie_ports (f : Fabric) (k : Nat) (g : BaseDie → BaseDie) : (f.modDie k g).ports = f.ports := rfl
@[simp] theorem Fabric.modDie_launch (f : Fabric) (k : Nat) (g : BaseDie → BaseDie) : (f.modDie k g).launch = f.launch := rfl
@[simp] theorem Fabric.modDie_hostMem (f : Fabric) (k : Nat) (g : BaseDie → BaseDie) : (f.modDie k g).hostMem = f.hostMem := rfl
@[simp] theorem Fabric.modDie_rels (f : Fabric) (k : Nat) (g : BaseDie → BaseDie) : (f.modDie k g).rels = f.rels := rfl
@[simp] theorem Fabric.modDie_diePart (f : Fabric) (k : Nat) (g : BaseDie → BaseDie) : (f.modDie k g).diePart = f.diePart := rfl
@[simp] theorem Fabric.modDie_stackPart (f : Fabric) (k : Nat) (g : BaseDie → BaseDie) : (f.modDie k g).stackPart = f.stackPart := rfl
@[simp] theorem Fabric.modDie_portPart (f : Fabric) (k : Nat) (g : BaseDie → BaseDie) : (f.modDie k g).portPart = f.portPart := rfl
@[simp] theorem Fabric.modDie_pkg (f : Fabric) (k : Nat) (g : BaseDie → BaseDie) : (f.modDie k g).pkg = f.pkg := rfl
@[simp] theorem Fabric.modDie_lpc (f : Fabric) (k : Nat) (g : BaseDie → BaseDie) : (f.modDie k g).lpc = f.lpc := rfl
@[simp] theorem Fabric.modDie_sigStat (f : Fabric) (k : Nat) (g : BaseDie → BaseDie) : (f.modDie k g).sigStat = f.sigStat := rfl
@[simp] theorem Fabric.modDie_sigMeas (f : Fabric) (k : Nat) (g : BaseDie → BaseDie) : (f.modDie k g).sigMeas = f.sigMeas := rfl
@[simp] theorem Fabric.modDie_peers (f : Fabric) (k : Nat) (g : BaseDie → BaseDie) : (f.modDie k g).peers = f.peers := rfl
@[simp] theorem Fabric.modDie_raws (f : Fabric) (k : Nat) (g : BaseDie → BaseDie) : (f.modDie k g).raws = f.raws := rfl
@[simp] theorem Fabric.modDie_agenda (f : Fabric) (k : Nat) (g : BaseDie → BaseDie) : (f.modDie k g).agenda = f.agenda := rfl
@[simp] theorem Fabric.modDie_sched (f : Fabric) (k : Nat) (g : BaseDie → BaseDie) : (f.modDie k g).sched = f.sched := rfl
@[simp] theorem Fabric.modDie_clock (f : Fabric) (k : Nat) (g : BaseDie → BaseDie) : (f.modDie k g).clock = f.clock := rfl
@[simp] theorem Fabric.modDie_cur (f : Fabric) (k : Nat) (g : BaseDie → BaseDie) : (f.modDie k g).cur = f.cur := rfl
@[simp] theorem Fabric.modDie_fire (f : Fabric) (k : Nat) (g : BaseDie → BaseDie) : (f.modDie k g).fire = f.fire := rfl

/-! ### Fabric.modRoot -/

@[simp] theorem Fabric.modRoot_els (f : Fabric) (n : Nat) (g : LodeRoot → LodeRoot) : (f.modRoot n g).els = f.els := rfl
@[simp] theorem Fabric.modRoot_blks (f : Fabric) (n : Nat) (g : LodeRoot → LodeRoot) : (f.modRoot n g).blks = f.blks := rfl
@[simp] theorem Fabric.modRoot_dies (f : Fabric) (n : Nat) (g : LodeRoot → LodeRoot) : (f.modRoot n g).dies = f.dies := rfl
@[simp] theorem Fabric.modRoot_ports (f : Fabric) (n : Nat) (g : LodeRoot → LodeRoot) : (f.modRoot n g).ports = f.ports := rfl
@[simp] theorem Fabric.modRoot_launch (f : Fabric) (n : Nat) (g : LodeRoot → LodeRoot) : (f.modRoot n g).launch = f.launch := rfl
@[simp] theorem Fabric.modRoot_hostMem (f : Fabric) (n : Nat) (g : LodeRoot → LodeRoot) : (f.modRoot n g).hostMem = f.hostMem := rfl
@[simp] theorem Fabric.modRoot_rels (f : Fabric) (n : Nat) (g : LodeRoot → LodeRoot) : (f.modRoot n g).rels = f.rels := rfl
@[simp] theorem Fabric.modRoot_diePart (f : Fabric) (n : Nat) (g : LodeRoot → LodeRoot) : (f.modRoot n g).diePart = f.diePart := rfl
@[simp] theorem Fabric.modRoot_stackPart (f : Fabric) (n : Nat) (g : LodeRoot → LodeRoot) : (f.modRoot n g).stackPart = f.stackPart := rfl
@[simp] theorem Fabric.modRoot_portPart (f : Fabric) (n : Nat) (g : LodeRoot → LodeRoot) : (f.modRoot n g).portPart = f.portPart := rfl
@[simp] theorem Fabric.modRoot_pkg (f : Fabric) (n : Nat) (g : LodeRoot → LodeRoot) : (f.modRoot n g).pkg = f.pkg := rfl
@[simp] theorem Fabric.modRoot_lpc (f : Fabric) (n : Nat) (g : LodeRoot → LodeRoot) : (f.modRoot n g).lpc = f.lpc := rfl
@[simp] theorem Fabric.modRoot_sigStat (f : Fabric) (n : Nat) (g : LodeRoot → LodeRoot) : (f.modRoot n g).sigStat = f.sigStat := rfl
@[simp] theorem Fabric.modRoot_sigMeas (f : Fabric) (n : Nat) (g : LodeRoot → LodeRoot) : (f.modRoot n g).sigMeas = f.sigMeas := rfl
@[simp] theorem Fabric.modRoot_peers (f : Fabric) (n : Nat) (g : LodeRoot → LodeRoot) : (f.modRoot n g).peers = f.peers := rfl
@[simp] theorem Fabric.modRoot_raws (f : Fabric) (n : Nat) (g : LodeRoot → LodeRoot) : (f.modRoot n g).raws = f.raws := rfl
@[simp] theorem Fabric.modRoot_agenda (f : Fabric) (n : Nat) (g : LodeRoot → LodeRoot) : (f.modRoot n g).agenda = f.agenda := rfl
@[simp] theorem Fabric.modRoot_sched (f : Fabric) (n : Nat) (g : LodeRoot → LodeRoot) : (f.modRoot n g).sched = f.sched := rfl
@[simp] theorem Fabric.modRoot_clock (f : Fabric) (n : Nat) (g : LodeRoot → LodeRoot) : (f.modRoot n g).clock = f.clock := rfl
@[simp] theorem Fabric.modRoot_cur (f : Fabric) (n : Nat) (g : LodeRoot → LodeRoot) : (f.modRoot n g).cur = f.cur := rfl
@[simp] theorem Fabric.modRoot_fire (f : Fabric) (n : Nat) (g : LodeRoot → LodeRoot) : (f.modRoot n g).fire = f.fire := rfl

/-! ### Fabric.modPort -/

@[simp] theorem Fabric.modPort_els (f : Fabric) (n : Nat) (g : OutPort → OutPort) : (f.modPort n g).els = f.els := rfl
@[simp] theorem Fabric.modPort_blks (f : Fabric) (n : Nat) (g : OutPort → OutPort) : (f.modPort n g).blks = f.blks := rfl
@[simp] theorem Fabric.modPort_dies (f : Fabric) (n : Nat) (g : OutPort → OutPort) : (f.modPort n g).dies = f.dies := rfl
@[simp] theorem Fabric.modPort_lode (f : Fabric) (n : Nat) (g : OutPort → OutPort) : (f.modPort n g).lode = f.lode := rfl
@[simp] theorem Fabric.modPort_launch (f : Fabric) (n : Nat) (g : OutPort → OutPort) : (f.modPort n g).launch = f.launch := rfl
@[simp] theorem Fabric.modPort_hostMem (f : Fabric) (n : Nat) (g : OutPort → OutPort) : (f.modPort n g).hostMem = f.hostMem := rfl
@[simp] theorem Fabric.modPort_rels (f : Fabric) (n : Nat) (g : OutPort → OutPort) : (f.modPort n g).rels = f.rels := rfl
@[simp] theorem Fabric.modPort_diePart (f : Fabric) (n : Nat) (g : OutPort → OutPort) : (f.modPort n g).diePart = f.diePart := rfl
@[simp] theorem Fabric.modPort_stackPart (f : Fabric) (n : Nat) (g : OutPort → OutPort) : (f.modPort n g).stackPart = f.stackPart := rfl
@[simp] theorem Fabric.modPort_portPart (f : Fabric) (n : Nat) (g : OutPort → OutPort) : (f.modPort n g).portPart = f.portPart := rfl
@[simp] theorem Fabric.modPort_pkg (f : Fabric) (n : Nat) (g : OutPort → OutPort) : (f.modPort n g).pkg = f.pkg := rfl
@[simp] theorem Fabric.modPort_lpc (f : Fabric) (n : Nat) (g : OutPort → OutPort) : (f.modPort n g).lpc = f.lpc := rfl
@[simp] theorem Fabric.modPort_sigStat (f : Fabric) (n : Nat) (g : OutPort → OutPort) : (f.modPort n g).sigStat = f.sigStat := rfl
@[simp] theorem Fabric.modPort_sigMeas (f : Fabric) (n : Nat) (g : OutPort → OutPort) : (f.modPort n g).sigMeas = f.sigMeas := rfl
@[simp] theorem Fabric.modPort_peers (f : Fabric) (n : Nat) (g : OutPort → OutPort) : (f.modPort n g).peers = f.peers := rfl
@[simp] theorem Fabric.modPort_raws (f : Fabric) (n : Nat) (g : OutPort → OutPort) : (f.modPort n g).raws = f.raws := rfl
@[simp] theorem Fabric.modPort_agenda (f : Fabric) (n : Nat) (g : OutPort → OutPort) : (f.modPort n g).agenda = f.agenda := rfl
@[simp] theorem Fabric.modPort_sched (f : Fabric) (n : Nat) (g : OutPort → OutPort) : (f.modPort n g).sched = f.sched := rfl
@[simp] theorem Fabric.modPort_clock (f : Fabric) (n : Nat) (g : OutPort → OutPort) : (f.modPort n g).clock = f.clock := rfl
@[simp] theorem Fabric.modPort_cur (f : Fabric) (n : Nat) (g : OutPort → OutPort) : (f.modPort n g).cur = f.cur := rfl
@[simp] theorem Fabric.modPort_fire (f : Fabric) (n : Nat) (g : OutPort → OutPort) : (f.modPort n g).fire = f.fire := rfl

/-! ### Fabric.modLaunch -/

@[simp] theorem Fabric.modLaunch_els (f : Fabric) (p : Nat) (g : Launch → Launch) : (f.modLaunch p g).els = f.els := rfl
@[simp] theorem Fabric.modLaunch_blks (f : Fabric) (p : Nat) (g : Launch → Launch) : (f.modLaunch p g).blks = f.blks := rfl
@[simp] theorem Fabric.modLaunch_dies (f : Fabric) (p : Nat) (g : Launch → Launch) : (f.modLaunch p g).dies = f.dies := rfl
@[simp] theorem Fabric.modLaunch_lode (f : Fabric) (p : Nat) (g : Launch → Launch) : (f.modLaunch p g).lode = f.lode := rfl
@[simp] theorem Fabric.modLaunch_ports (f : Fabric) (p : Nat) (g : Launch → Launch) : (f.modLaunch p g).ports = f.ports := rfl
@[simp] theorem Fabric.modLaunch_hostMem (f : Fabric) (p : Nat) (g : Launch → Launch) : (f.modLaunch p g).hostMem = f.hostMem := rfl
@[simp] theorem Fabric.modLaunch_rels (f : Fabric) (p : Nat) (g : Launch → Launch) : (f.modLaunch p g).rels = f.rels := rfl
@[simp] theorem Fabric.modLaunch_diePart (f : Fabric) (p : Nat) (g : Launch → Launch) : (f.modLaunch p g).diePart = f.diePart := rfl
@[simp] theorem Fabric.modLaunch_stackPart (f : Fabric) (p : Nat) (g : Launch → Launch) : (f.modLaunch p g).stackPart = f.stackPart := rfl
@[simp] theorem Fabric.modLaunch_portPart (f : Fabric) (p : Nat) (g : Launch → Launch) : (f.modLaunch p g).portPart = f.portPart := rfl
@[simp] theorem Fabric.modLaunch_pkg (f : Fabric) (p : Nat) (g : Launch → Launch) : (f.modLaunch p g).pkg = f.pkg := rfl
@[simp] theorem Fabric.modLaunch_lpc (f : Fabric) (p : Nat) (g : Launch → Launch) : (f.modLaunch p g).lpc = f.lpc := rfl
@[simp] theorem Fabric.modLaunch_sigStat (f : Fabric) (p : Nat) (g : Launch → Launch) : (f.modLaunch p g).sigStat = f.sigStat := rfl
@[simp] theorem Fabric.modLaunch_sigMeas (f : Fabric) (p : Nat) (g : Launch → Launch) : (f.modLaunch p g).sigMeas = f.sigMeas := rfl
@[simp] theorem Fabric.modLaunch_peers (f : Fabric) (p : Nat) (g : Launch → Launch) : (f.modLaunch p g).peers = f.peers := rfl
@[simp] theorem Fabric.modLaunch_raws (f : Fabric) (p : Nat) (g : Launch → Launch) : (f.modLaunch p g).raws = f.raws := rfl
@[simp] theorem Fabric.modLaunch_agenda (f : Fabric) (p : Nat) (g : Launch → Launch) : (f.modLaunch p g).agenda = f.agenda := rfl
@[simp] theorem Fabric.modLaunch_sched (f : Fabric) (p : Nat) (g : Launch → Launch) : (f.modLaunch p g).sched = f.sched := rfl
@[simp] theorem Fabric.modLaunch_clock (f : Fabric) (p : Nat) (g : Launch → Launch) : (f.modLaunch p g).clock = f.clock := rfl
@[simp] theorem Fabric.modLaunch_cur (f : Fabric) (p : Nat) (g : Launch → Launch) : (f.modLaunch p g).cur = f.cur := rfl
@[simp] theorem Fabric.modLaunch_fire (f : Fabric) (p : Nat) (g : Launch → Launch) : (f.modLaunch p g).fire = f.fire := rfl

/-! ### Fabric.post -/

@[simp] theorem Fabric.post_els (f : Fabric) (i : Ev) : (f.post i).els = f.els := rfl
@[simp] theorem Fabric.post_blks (f : Fabric) (i : Ev) : (f.post i).blks = f.blks := rfl
@[simp] theorem Fabric.post_dies (f : Fabric) (i : Ev) : (f.post i).dies = f.dies := rfl
@[simp] theorem Fabric.post_lode (f : Fabric) (i : Ev) : (f.post i).lode = f.lode := rfl
@[simp] theorem Fabric.post_ports (f : Fabric) (i : Ev) : (f.post i).ports = f.ports := rfl
@[simp] theorem Fabric.post_launch (f : Fabric) (i : Ev) : (f.post i).launch = f.launch := rfl
@[simp] theorem Fabric.post_hostMem (f : Fabric) (i : Ev) : (f.post i).hostMem = f.hostMem := rfl
@[simp] theorem Fabric.post_rels (f : Fabric) (i : Ev) : (f.post i).rels = f.rels := rfl
@[simp] theorem Fabric.post_diePart (f : Fabric) (i : Ev) : (f.post i).diePart = f.diePart := rfl
@[simp] theorem Fabric.post_stackPart (f : Fabric) (i : Ev) : (f.post i).stackPart = f.stackPart := rfl
@[simp] theorem Fabric.post_portPart (f : Fabric) (i : Ev) : (f.post i).portPart = f.portPart := rfl
@[simp] theorem Fabric.post_pkg (f : Fabric) (i : Ev) : (f.post i).pkg = f.pkg := rfl
@[simp] theorem Fabric.post_lpc (f : Fabric) (i : Ev) : (f.post i).lpc = f.lpc := rfl
@[simp] theorem Fabric.post_sigStat (f : Fabric) (i : Ev) : (f.post i).sigStat = f.sigStat := rfl
@[simp] theorem Fabric.post_sigMeas (f : Fabric) (i : Ev) : (f.post i).sigMeas = f.sigMeas := rfl
@[simp] theorem Fabric.post_peers (f : Fabric) (i : Ev) : (f.post i).peers = f.peers := rfl
@[simp] theorem Fabric.post_raws (f : Fabric) (i : Ev) : (f.post i).raws = f.raws := rfl
@[simp] theorem Fabric.post_sched (f : Fabric) (i : Ev) : (f.post i).sched = f.sched := rfl
@[simp] theorem Fabric.post_clock (f : Fabric) (i : Ev) : (f.post i).clock = f.clock := rfl
@[simp] theorem Fabric.post_cur (f : Fabric) (i : Ev) : (f.post i).cur = f.cur := rfl
@[simp] theorem Fabric.post_fire (f : Fabric) (i : Ev) : (f.post i).fire = f.fire := rfl

@[simp] theorem Fabric.post_agenda (f : Fabric) (i : Ev) : (f.post i).agenda = f.agenda ++ [i] := rfl

/-! ### Fabric.postAll -/

@[simp] theorem Fabric.postAll_els (f : Fabric) (is : List Ev) : (f.postAll is).els = f.els := rfl
@[simp] theorem Fabric.postAll_blks (f : Fabric) (is : List Ev) : (f.postAll is).blks = f.blks := rfl
@[simp] theorem Fabric.postAll_dies (f : Fabric) (is : List Ev) : (f.postAll is).dies = f.dies := rfl
@[simp] theorem Fabric.postAll_lode (f : Fabric) (is : List Ev) : (f.postAll is).lode = f.lode := rfl
@[simp] theorem Fabric.postAll_ports (f : Fabric) (is : List Ev) : (f.postAll is).ports = f.ports := rfl
@[simp] theorem Fabric.postAll_launch (f : Fabric) (is : List Ev) : (f.postAll is).launch = f.launch := rfl
@[simp] theorem Fabric.postAll_hostMem (f : Fabric) (is : List Ev) : (f.postAll is).hostMem = f.hostMem := rfl
@[simp] theorem Fabric.postAll_rels (f : Fabric) (is : List Ev) : (f.postAll is).rels = f.rels := rfl
@[simp] theorem Fabric.postAll_diePart (f : Fabric) (is : List Ev) : (f.postAll is).diePart = f.diePart := rfl
@[simp] theorem Fabric.postAll_stackPart (f : Fabric) (is : List Ev) : (f.postAll is).stackPart = f.stackPart := rfl
@[simp] theorem Fabric.postAll_portPart (f : Fabric) (is : List Ev) : (f.postAll is).portPart = f.portPart := rfl
@[simp] theorem Fabric.postAll_pkg (f : Fabric) (is : List Ev) : (f.postAll is).pkg = f.pkg := rfl
@[simp] theorem Fabric.postAll_lpc (f : Fabric) (is : List Ev) : (f.postAll is).lpc = f.lpc := rfl
@[simp] theorem Fabric.postAll_sigStat (f : Fabric) (is : List Ev) : (f.postAll is).sigStat = f.sigStat := rfl
@[simp] theorem Fabric.postAll_sigMeas (f : Fabric) (is : List Ev) : (f.postAll is).sigMeas = f.sigMeas := rfl
@[simp] theorem Fabric.postAll_peers (f : Fabric) (is : List Ev) : (f.postAll is).peers = f.peers := rfl
@[simp] theorem Fabric.postAll_raws (f : Fabric) (is : List Ev) : (f.postAll is).raws = f.raws := rfl
@[simp] theorem Fabric.postAll_sched (f : Fabric) (is : List Ev) : (f.postAll is).sched = f.sched := rfl
@[simp] theorem Fabric.postAll_clock (f : Fabric) (is : List Ev) : (f.postAll is).clock = f.clock := rfl
@[simp] theorem Fabric.postAll_cur (f : Fabric) (is : List Ev) : (f.postAll is).cur = f.cur := rfl
@[simp] theorem Fabric.postAll_fire (f : Fabric) (is : List Ev) : (f.postAll is).fire = f.fire := rfl

@[simp] theorem Fabric.postAll_agenda (f : Fabric) (is : List Ev) : (f.postAll is).agenda = f.agenda ++ is := rfl

/-! ### Fabric.setBk -/

@[simp] theorem Fabric.setBk_els (f : Fabric) (b n : Nat) (v : DWord) : (f.setBk b n v).els = f.els := rfl
@[simp] theorem Fabric.setBk_dies (f : Fabric) (b n : Nat) (v : DWord) : (f.setBk b n v).dies = f.dies := rfl
@[simp] theorem Fabric.setBk_lode (f : Fabric) (b n : Nat) (v : DWord) : (f.setBk b n v).lode = f.lode := rfl
@[simp] theorem Fabric.setBk_ports (f : Fabric) (b n : Nat) (v : DWord) : (f.setBk b n v).ports = f.ports := rfl
@[simp] theorem Fabric.setBk_launch (f : Fabric) (b n : Nat) (v : DWord) : (f.setBk b n v).launch = f.launch := rfl
@[simp] theorem Fabric.setBk_hostMem (f : Fabric) (b n : Nat) (v : DWord) : (f.setBk b n v).hostMem = f.hostMem := rfl
@[simp] theorem Fabric.setBk_rels (f : Fabric) (b n : Nat) (v : DWord) : (f.setBk b n v).rels = f.rels := rfl
@[simp] theorem Fabric.setBk_diePart (f : Fabric) (b n : Nat) (v : DWord) : (f.setBk b n v).diePart = f.diePart := rfl
@[simp] theorem Fabric.setBk_stackPart (f : Fabric) (b n : Nat) (v : DWord) : (f.setBk b n v).stackPart = f.stackPart := rfl
@[simp] theorem Fabric.setBk_portPart (f : Fabric) (b n : Nat) (v : DWord) : (f.setBk b n v).portPart = f.portPart := rfl
@[simp] theorem Fabric.setBk_pkg (f : Fabric) (b n : Nat) (v : DWord) : (f.setBk b n v).pkg = f.pkg := rfl
@[simp] theorem Fabric.setBk_lpc (f : Fabric) (b n : Nat) (v : DWord) : (f.setBk b n v).lpc = f.lpc := rfl
@[simp] theorem Fabric.setBk_sigStat (f : Fabric) (b n : Nat) (v : DWord) : (f.setBk b n v).sigStat = f.sigStat := rfl
@[simp] theorem Fabric.setBk_sigMeas (f : Fabric) (b n : Nat) (v : DWord) : (f.setBk b n v).sigMeas = f.sigMeas := rfl
@[simp] theorem Fabric.setBk_peers (f : Fabric) (b n : Nat) (v : DWord) : (f.setBk b n v).peers = f.peers := rfl
@[simp] theorem Fabric.setBk_raws (f : Fabric) (b n : Nat) (v : DWord) : (f.setBk b n v).raws = f.raws := rfl
@[simp] theorem Fabric.setBk_agenda (f : Fabric) (b n : Nat) (v : DWord) : (f.setBk b n v).agenda = f.agenda := rfl
@[simp] theorem Fabric.setBk_sched (f : Fabric) (b n : Nat) (v : DWord) : (f.setBk b n v).sched = f.sched := rfl
@[simp] theorem Fabric.setBk_clock (f : Fabric) (b n : Nat) (v : DWord) : (f.setBk b n v).clock = f.clock := rfl
@[simp] theorem Fabric.setBk_cur (f : Fabric) (b n : Nat) (v : DWord) : (f.setBk b n v).cur = f.cur := rfl
@[simp] theorem Fabric.setBk_fire (f : Fabric) (b n : Nat) (v : DWord) : (f.setBk b n v).fire = f.fire := rfl

/-! ### Fabric.setBd -/

@[simp] theorem Fabric.setBd_els (f : Fabric) (sd n : Nat) (v : DWord) : (f.setBd sd n v).els = f.els := rfl
@[simp] theorem Fabric.setBd_blks (f : Fabric) (sd n : Nat) (v : DWord) : (f.setBd sd n v).blks = f.blks := rfl
@[simp] theorem Fabric.setBd_lode (f : Fabric) (sd n : Nat) (v : DWord) : (f.setBd sd n v).lode = f.lode := rfl
@[simp] theorem Fabric.setBd_ports (f : Fabric) (sd n : Nat) (v : DWord) : (f.setBd sd n v).ports = f.ports := rfl
@[simp] theorem Fabric.setBd_launch (f : Fabric) (sd n : Nat) (v : DWord) : (f.setBd sd n v).launch = f.launch := rfl
@[simp] theorem Fabric.setBd_hostMem (f : Fabric) (sd n : Nat) (v : DWord) : (f.setBd sd n v).hostMem = f.hostMem := rfl
@[simp] theorem Fabric.setBd_rels (f : Fabric) (sd n : Nat) (v : DWord) : (f.setBd sd n v).rels = f.rels := rfl
@[simp] theorem Fabric.setBd_diePart (f : Fabric) (sd n : Nat) (v : DWord) : (f.setBd sd n v).diePart = f.diePart := rfl
@[simp] theorem Fabric.setBd_stackPart (f : Fabric) (sd n : Nat) (v : DWord) : (f.setBd sd n v).stackPart = f.stackPart := rfl
@[simp] theorem Fabric.setBd_portPart (f : Fabric) (sd n : Nat) (v : DWord) : (f.setBd sd n v).portPart = f.portPart := rfl
@[simp] theorem Fabric.setBd_pkg (f : Fabric) (sd n : Nat) (v : DWord) : (f.setBd sd n v).pkg = f.pkg := rfl
@[simp] theorem Fabric.setBd_lpc (f : Fabric) (sd n : Nat) (v : DWord) : (f.setBd sd n v).lpc = f.lpc := rfl
@[simp] theorem Fabric.setBd_sigStat (f : Fabric) (sd n : Nat) (v : DWord) : (f.setBd sd n v).sigStat = f.sigStat := rfl
@[simp] theorem Fabric.setBd_sigMeas (f : Fabric) (sd n : Nat) (v : DWord) : (f.setBd sd n v).sigMeas = f.sigMeas := rfl
@[simp] theorem Fabric.setBd_peers (f : Fabric) (sd n : Nat) (v : DWord) : (f.setBd sd n v).peers = f.peers := rfl
@[simp] theorem Fabric.setBd_raws (f : Fabric) (sd n : Nat) (v : DWord) : (f.setBd sd n v).raws = f.raws := rfl
@[simp] theorem Fabric.setBd_agenda (f : Fabric) (sd n : Nat) (v : DWord) : (f.setBd sd n v).agenda = f.agenda := rfl
@[simp] theorem Fabric.setBd_sched (f : Fabric) (sd n : Nat) (v : DWord) : (f.setBd sd n v).sched = f.sched := rfl
@[simp] theorem Fabric.setBd_clock (f : Fabric) (sd n : Nat) (v : DWord) : (f.setBd sd n v).clock = f.clock := rfl
@[simp] theorem Fabric.setBd_cur (f : Fabric) (sd n : Nat) (v : DWord) : (f.setBd sd n v).cur = f.cur := rfl
@[simp] theorem Fabric.setBd_fire (f : Fabric) (sd n : Nat) (v : DWord) : (f.setBd sd n v).fire = f.fire := rfl

/-! ### A unit read after a unit is written -/

@[simp] theorem Fabric.el_setEl (f : Fabric) (k : Nat) (e : Element) : (f.setEl k e).el k = e := tget_tset_self _ _ _ _
theorem Fabric.el_setEl_ne (f : Fabric) {j k : Nat} (e : Element) (h : j ≠ k) : (f.setEl k e).el j = f.el j := tget_tset_ne _ _ _ h
@[simp] theorem Fabric.el_modEl (f : Fabric) (k : Nat) (g : Element → Element) : (f.modEl k g).el k = g (f.el k) := tget_tset_self _ _ _ _
theorem Fabric.el_modEl_ne (f : Fabric) {j k : Nat} (g : Element → Element) (h : j ≠ k) : (f.modEl k g).el j = f.el j := tget_tset_ne _ _ _ h
@[simp] theorem Fabric.el_post (f : Fabric) (i : Ev) (k : Nat) : (f.post i).el k = f.el k := rfl
@[simp] theorem Fabric.el_postAll (f : Fabric) (is : List Ev) (k : Nat) : (f.postAll is).el k = f.el k := rfl
@[simp] theorem Fabric.modEl_modEl (f : Fabric) (k : Nat) (g h : Element → Element) : (f.modEl k g).modEl k h = f.modEl k fun e => h (g e) := by
  simp [Fabric.modEl, Fabric.setEl, Fabric.el, tget_tset_self, tset_tset]
@[simp] theorem Fabric.blk_modBlk (f : Fabric) (k : Nat) (g : Block → Block) : (f.modBlk k g).blk k = g (f.blk k) := tget_tset_self _ _ _ _
theorem Fabric.blk_modBlk_ne (f : Fabric) {j k : Nat} (g : Block → Block) (h : j ≠ k) : (f.modBlk k g).blk j = f.blk j := tget_tset_ne _ _ _ h
@[simp] theorem Fabric.die_modDie (f : Fabric) (k : Nat) (g : BaseDie → BaseDie) : (f.modDie k g).die k = g (f.die k) := tget_tset_self _ _ _ _
theorem Fabric.die_modDie_ne (f : Fabric) {j k : Nat} (g : BaseDie → BaseDie) (h : j ≠ k) : (f.modDie k g).die j = f.die j := tget_tset_ne _ _ _ h
@[simp] theorem Fabric.root_modRoot (f : Fabric) (k : Nat) (g : LodeRoot → LodeRoot) : (f.modRoot k g).root k = g (f.root k) := tget_tset_self _ _ _ _
@[simp] theorem Fabric.portAt_modPort (f : Fabric) (k : Nat) (g : OutPort → OutPort) : (f.modPort k g).portAt k = g (f.portAt k) := tget_tset_self _ _ _ _
@[simp] theorem Fabric.launchOf_modLaunch (f : Fabric) (k : Nat) (g : Launch → Launch) : (f.modLaunch k g).launchOf k = g (f.launchOf k) := tget_tset_self _ _ _ _
@[simp] theorem Fabric.bk_setBk (f : Fabric) (b n : Nat) (v : DWord) : (f.setBk b n v).bk b n = v := by
  simp [Fabric.setBk, Fabric.bk, tget_tset_self]
@[simp] theorem Fabric.bd_setBd (f : Fabric) (sd n : Nat) (v : DWord) : (f.setBd sd n v).bd sd n = v := by
  simp [Fabric.setBd, Fabric.bd, tget_tset_self]

/-! ### Element.addFlags -/

@[simp] theorem Element.addFlags_slots (e : Element) (fl : Flags) : (e.addFlags fl).slots = e.slots := rfl
@[simp] theorem Element.addFlags_store (e : Element) (fl : Flags) : (e.addFlags fl).store = e.store := rfl
@[simp] theorem Element.addFlags_parked (e : Element) (fl : Flags) : (e.addFlags fl).parked = e.parked := rfl
@[simp] theorem Element.addFlags_parkedToks (e : Element) (fl : Flags) : (e.addFlags fl).parkedToks = e.parkedToks := rfl
@[simp] theorem Element.addFlags_ready (e : Element) (fl : Flags) : (e.addFlags fl).ready = e.ready := rfl
@[simp] theorem Element.addFlags_probes (e : Element) (fl : Flags) : (e.addFlags fl).probes = e.probes := rfl
@[simp] theorem Element.addFlags_missBuf (e : Element) (fl : Flags) : (e.addFlags fl).missBuf = e.missBuf := rfl
@[simp] theorem Element.addFlags_arrivals (e : Element) (fl : Flags) : (e.addFlags fl).arrivals = e.arrivals := rfl
@[simp] theorem Element.addFlags_mem (e : Element) (fl : Flags) : (e.addFlags fl).mem = e.mem := rfl
@[simp] theorem Element.addFlags_framedir (e : Element) (fl : Flags) : (e.addFlags fl).framedir = e.framedir := rfl
@[simp] theorem Element.addFlags_stray (e : Element) (fl : Flags) : (e.addFlags fl).stray = e.stray := rfl
@[simp] theorem Element.addFlags_badtok (e : Element) (fl : Flags) : (e.addFlags fl).badtok = e.badtok := rfl
@[simp] theorem Element.addFlags_mismatch (e : Element) (fl : Flags) : (e.addFlags fl).mismatch = e.mismatch := rfl
@[simp] theorem Element.addFlags_aftrap (e : Element) (fl : Flags) : (e.addFlags fl).aftrap = e.aftrap := rfl
@[simp] theorem Element.addFlags_srstate (e : Element) (fl : Flags) : (e.addFlags fl).srstate = e.srstate := rfl
@[simp] theorem Element.addFlags_wins (e : Element) (fl : Flags) : (e.addFlags fl).wins = e.wins := rfl
@[simp] theorem Element.addFlags_gens (e : Element) (fl : Flags) : (e.addFlags fl).gens = e.gens := rfl
@[simp] theorem Element.addFlags_lodeen0 (e : Element) (fl : Flags) : (e.addFlags fl).lodeen0 = e.lodeen0 := rfl
@[simp] theorem Element.addFlags_lodeen1 (e : Element) (fl : Flags) : (e.addFlags fl).lodeen1 = e.lodeen1 := rfl
@[simp] theorem Element.addFlags_weights (e : Element) (fl : Flags) : (e.addFlags fl).weights = e.weights := rfl
@[simp] theorem Element.addFlags_sw (e : Element) (fl : Flags) : (e.addFlags fl).sw = e.sw := rfl
@[simp] theorem Element.addFlags_acc (e : Element) (fl : Flags) : (e.addFlags fl).acc = e.acc := rfl
@[simp] theorem Element.addFlags_landing (e : Element) (fl : Flags) : (e.addFlags fl).landing = e.landing := rfl
@[simp] theorem Element.addFlags_mxOn (e : Element) (fl : Flags) : (e.addFlags fl).mxOn = e.mxOn := rfl
@[simp] theorem Element.addFlags_mxWarm (e : Element) (fl : Flags) : (e.addFlags fl).mxWarm = e.mxWarm := rfl
@[simp] theorem Element.addFlags_mxBurst (e : Element) (fl : Flags) : (e.addFlags fl).mxBurst = e.mxBurst := rfl
@[simp] theorem Element.addFlags_mxFmt (e : Element) (fl : Flags) : (e.addFlags fl).mxFmt = e.mxFmt := rfl
@[simp] theorem Element.addFlags_mxWarming (e : Element) (fl : Flags) : (e.addFlags fl).mxWarming = e.mxWarming := rfl
@[simp] theorem Element.addFlags_mxSince (e : Element) (fl : Flags) : (e.addFlags fl).mxSince = e.mxSince := rfl
@[simp] theorem Element.addFlags_scales (e : Element) (fl : Flags) : (e.addFlags fl).scales = e.scales := rfl
@[simp] theorem Element.addFlags_hist (e : Element) (fl : Flags) : (e.addFlags fl).hist = e.hist := rfl
@[simp] theorem Element.addFlags_selctl (e : Element) (fl : Flags) : (e.addFlags fl).selctl = e.selctl := rfl
@[simp] theorem Element.addFlags_selk (e : Element) (fl : Flags) : (e.addFlags fl).selk = e.selk := rfl
@[simp] theorem Element.addFlags_selpfx (e : Element) (fl : Flags) : (e.addFlags fl).selpfx = e.selpfx := rfl
@[simp] theorem Element.addFlags_delays (e : Element) (fl : Flags) : (e.addFlags fl).delays = e.delays := rfl
@[simp] theorem Element.addFlags_loops (e : Element) (fl : Flags) : (e.addFlags fl).loops = e.loops := rfl
@[simp] theorem Element.addFlags_commits (e : Element) (fl : Flags) : (e.addFlags fl).commits = e.commits := rfl
@[simp] theorem Element.addFlags_pend (e : Element) (fl : Flags) : (e.addFlags fl).pend = e.pend := rfl
@[simp] theorem Element.addFlags_nextId (e : Element) (fl : Flags) : (e.addFlags fl).nextId = e.nextId := rfl
@[simp] theorem Element.addFlags_sink (e : Element) (fl : Flags) : (e.addFlags fl).sink = e.sink := rfl
@[simp] theorem Element.addFlags_rmw (e : Element) (fl : Flags) : (e.addFlags fl).rmw = e.rmw := rfl
@[simp] theorem Element.addFlags_defers (e : Element) (fl : Flags) : (e.addFlags fl).defers = e.defers := rfl
@[simp] theorem Element.addFlags_owners (e : Element) (fl : Flags) : (e.addFlags fl).owners = e.owners := rfl
@[simp] theorem Element.addFlags_dirty (e : Element) (fl : Flags) : (e.addFlags fl).dirty = e.dirty := rfl
@[simp] theorem Element.addFlags_arrived (e : Element) (fl : Flags) : (e.addFlags fl).arrived = e.arrived := rfl
@[simp] theorem Element.addFlags_arrivedBy (e : Element) (fl : Flags) : (e.addFlags fl).arrivedBy = e.arrivedBy := rfl
@[simp] theorem Element.addFlags_sentAt (e : Element) (fl : Flags) : (e.addFlags fl).sentAt = e.sentAt := rfl
@[simp] theorem Element.addFlags_routes (e : Element) (fl : Flags) : (e.addFlags fl).routes = e.routes := rfl
@[simp] theorem Element.addFlags_area (e : Element) (fl : Flags) : (e.addFlags fl).area = e.area := rfl
@[simp] theorem Element.addFlags_offered (e : Element) (fl : Flags) : (e.addFlags fl).offered = e.offered := rfl
@[simp] theorem Element.addFlags_outq (e : Element) (fl : Flags) : (e.addFlags fl).outq = e.outq := rfl
@[simp] theorem Element.addFlags_cmds (e : Element) (fl : Flags) : (e.addFlags fl).cmds = e.cmds := rfl
@[simp] theorem Element.addFlags_halted (e : Element) (fl : Flags) : (e.addFlags fl).halted = e.halted := rfl

@[simp] theorem Element.addFlags_aflags (e : Element) (fl : Flags) : (e.addFlags fl).aflags = e.aflags ||| fl.setWidth 32 := rfl

/-! ### Element.putN -/

@[simp] theorem Element.putN_slots (e : Element) (a v n : Nat) : (e.putN a v n).slots = e.slots := rfl
@[simp] theorem Element.putN_store (e : Element) (a v n : Nat) : (e.putN a v n).store = e.store := rfl
@[simp] theorem Element.putN_parked (e : Element) (a v n : Nat) : (e.putN a v n).parked = e.parked := rfl
@[simp] theorem Element.putN_parkedToks (e : Element) (a v n : Nat) : (e.putN a v n).parkedToks = e.parkedToks := rfl
@[simp] theorem Element.putN_ready (e : Element) (a v n : Nat) : (e.putN a v n).ready = e.ready := rfl
@[simp] theorem Element.putN_probes (e : Element) (a v n : Nat) : (e.putN a v n).probes = e.probes := rfl
@[simp] theorem Element.putN_missBuf (e : Element) (a v n : Nat) : (e.putN a v n).missBuf = e.missBuf := rfl
@[simp] theorem Element.putN_arrivals (e : Element) (a v n : Nat) : (e.putN a v n).arrivals = e.arrivals := rfl
@[simp] theorem Element.putN_framedir (e : Element) (a v n : Nat) : (e.putN a v n).framedir = e.framedir := rfl
@[simp] theorem Element.putN_stray (e : Element) (a v n : Nat) : (e.putN a v n).stray = e.stray := rfl
@[simp] theorem Element.putN_badtok (e : Element) (a v n : Nat) : (e.putN a v n).badtok = e.badtok := rfl
@[simp] theorem Element.putN_mismatch (e : Element) (a v n : Nat) : (e.putN a v n).mismatch = e.mismatch := rfl
@[simp] theorem Element.putN_aflags (e : Element) (a v n : Nat) : (e.putN a v n).aflags = e.aflags := rfl
@[simp] theorem Element.putN_aftrap (e : Element) (a v n : Nat) : (e.putN a v n).aftrap = e.aftrap := rfl
@[simp] theorem Element.putN_srstate (e : Element) (a v n : Nat) : (e.putN a v n).srstate = e.srstate := rfl
@[simp] theorem Element.putN_wins (e : Element) (a v n : Nat) : (e.putN a v n).wins = e.wins := rfl
@[simp] theorem Element.putN_gens (e : Element) (a v n : Nat) : (e.putN a v n).gens = e.gens := rfl
@[simp] theorem Element.putN_lodeen0 (e : Element) (a v n : Nat) : (e.putN a v n).lodeen0 = e.lodeen0 := rfl
@[simp] theorem Element.putN_lodeen1 (e : Element) (a v n : Nat) : (e.putN a v n).lodeen1 = e.lodeen1 := rfl
@[simp] theorem Element.putN_weights (e : Element) (a v n : Nat) : (e.putN a v n).weights = e.weights := rfl
@[simp] theorem Element.putN_sw (e : Element) (a v n : Nat) : (e.putN a v n).sw = e.sw := rfl
@[simp] theorem Element.putN_acc (e : Element) (a v n : Nat) : (e.putN a v n).acc = e.acc := rfl
@[simp] theorem Element.putN_landing (e : Element) (a v n : Nat) : (e.putN a v n).landing = e.landing := rfl
@[simp] theorem Element.putN_mxOn (e : Element) (a v n : Nat) : (e.putN a v n).mxOn = e.mxOn := rfl
@[simp] theorem Element.putN_mxWarm (e : Element) (a v n : Nat) : (e.putN a v n).mxWarm = e.mxWarm := rfl
@[simp] theorem Element.putN_mxBurst (e : Element) (a v n : Nat) : (e.putN a v n).mxBurst = e.mxBurst := rfl
@[simp] theorem Element.putN_mxFmt (e : Element) (a v n : Nat) : (e.putN a v n).mxFmt = e.mxFmt := rfl
@[simp] theorem Element.putN_mxWarming (e : Element) (a v n : Nat) : (e.putN a v n).mxWarming = e.mxWarming := rfl
@[simp] theorem Element.putN_mxSince (e : Element) (a v n : Nat) : (e.putN a v n).mxSince = e.mxSince := rfl
@[simp] theorem Element.putN_scales (e : Element) (a v n : Nat) : (e.putN a v n).scales = e.scales := rfl
@[simp] theorem Element.putN_hist (e : Element) (a v n : Nat) : (e.putN a v n).hist = e.hist := rfl
@[simp] theorem Element.putN_selctl (e : Element) (a v n : Nat) : (e.putN a v n).selctl = e.selctl := rfl
@[simp] theorem Element.putN_selk (e : Element) (a v n : Nat) : (e.putN a v n).selk = e.selk := rfl
@[simp] theorem Element.putN_selpfx (e : Element) (a v n : Nat) : (e.putN a v n).selpfx = e.selpfx := rfl
@[simp] theorem Element.putN_delays (e : Element) (a v n : Nat) : (e.putN a v n).delays = e.delays := rfl
@[simp] theorem Element.putN_loops (e : Element) (a v n : Nat) : (e.putN a v n).loops = e.loops := rfl
@[simp] theorem Element.putN_commits (e : Element) (a v n : Nat) : (e.putN a v n).commits = e.commits := rfl
@[simp] theorem Element.putN_pend (e : Element) (a v n : Nat) : (e.putN a v n).pend = e.pend := rfl
@[simp] theorem Element.putN_nextId (e : Element) (a v n : Nat) : (e.putN a v n).nextId = e.nextId := rfl
@[simp] theorem Element.putN_sink (e : Element) (a v n : Nat) : (e.putN a v n).sink = e.sink := rfl
@[simp] theorem Element.putN_rmw (e : Element) (a v n : Nat) : (e.putN a v n).rmw = e.rmw := rfl
@[simp] theorem Element.putN_defers (e : Element) (a v n : Nat) : (e.putN a v n).defers = e.defers := rfl
@[simp] theorem Element.putN_owners (e : Element) (a v n : Nat) : (e.putN a v n).owners = e.owners := rfl
@[simp] theorem Element.putN_arrived (e : Element) (a v n : Nat) : (e.putN a v n).arrived = e.arrived := rfl
@[simp] theorem Element.putN_arrivedBy (e : Element) (a v n : Nat) : (e.putN a v n).arrivedBy = e.arrivedBy := rfl
@[simp] theorem Element.putN_sentAt (e : Element) (a v n : Nat) : (e.putN a v n).sentAt = e.sentAt := rfl
@[simp] theorem Element.putN_routes (e : Element) (a v n : Nat) : (e.putN a v n).routes = e.routes := rfl
@[simp] theorem Element.putN_area (e : Element) (a v n : Nat) : (e.putN a v n).area = e.area := rfl
@[simp] theorem Element.putN_offered (e : Element) (a v n : Nat) : (e.putN a v n).offered = e.offered := rfl
@[simp] theorem Element.putN_outq (e : Element) (a v n : Nat) : (e.putN a v n).outq = e.outq := rfl
@[simp] theorem Element.putN_cmds (e : Element) (a v n : Nat) : (e.putN a v n).cmds = e.cmds := rfl
@[simp] theorem Element.putN_halted (e : Element) (a v n : Nat) : (e.putN a v n).halted = e.halted := rfl

@[simp] theorem Element.putN_mem (e : Element) (a v n : Nat) : (e.putN a v n).mem = e.mem.writeN a v n := rfl

/-! ### Element.setPend -/

@[simp] theorem Element.setPend_slots (e : Element) (p : Pend) : (e.setPend p).slots = e.slots := rfl
@[simp] theorem Element.setPend_store (e : Element) (p : Pend) : (e.setPend p).store = e.store := rfl
@[simp] theorem Element.setPend_parked (e : Element) (p : Pend) : (e.setPend p).parked = e.parked := rfl
@[simp] theorem Element.setPend_parkedToks (e : Element) (p : Pend) : (e.setPend p).parkedToks = e.parkedToks := rfl
@[simp] theorem Element.setPend_ready (e : Element) (p : Pend) : (e.setPend p).ready = e.ready := rfl
@[simp] theorem Element.setPend_probes (e : Element) (p : Pend) : (e.setPend p).probes = e.probes := rfl
@[simp] theorem Element.setPend_missBuf (e : Element) (p : Pend) : (e.setPend p).missBuf = e.missBuf := rfl
@[simp] theorem Element.setPend_arrivals (e : Element) (p : Pend) : (e.setPend p).arrivals = e.arrivals := rfl
@[simp] theorem Element.setPend_mem (e : Element) (p : Pend) : (e.setPend p).mem = e.mem := rfl
@[simp] theorem Element.setPend_framedir (e : Element) (p : Pend) : (e.setPend p).framedir = e.framedir := rfl
@[simp] theorem Element.setPend_stray (e : Element) (p : Pend) : (e.setPend p).stray = e.stray := rfl
@[simp] theorem Element.setPend_badtok (e : Element) (p : Pend) : (e.setPend p).badtok = e.badtok := rfl
@[simp] theorem Element.setPend_mismatch (e : Element) (p : Pend) : (e.setPend p).mismatch = e.mismatch := rfl
@[simp] theorem Element.setPend_aflags (e : Element) (p : Pend) : (e.setPend p).aflags = e.aflags := rfl
@[simp] theorem Element.setPend_aftrap (e : Element) (p : Pend) : (e.setPend p).aftrap = e.aftrap := rfl
@[simp] theorem Element.setPend_srstate (e : Element) (p : Pend) : (e.setPend p).srstate = e.srstate := rfl
@[simp] theorem Element.setPend_wins (e : Element) (p : Pend) : (e.setPend p).wins = e.wins := rfl
@[simp] theorem Element.setPend_gens (e : Element) (p : Pend) : (e.setPend p).gens = e.gens := rfl
@[simp] theorem Element.setPend_lodeen0 (e : Element) (p : Pend) : (e.setPend p).lodeen0 = e.lodeen0 := rfl
@[simp] theorem Element.setPend_lodeen1 (e : Element) (p : Pend) : (e.setPend p).lodeen1 = e.lodeen1 := rfl
@[simp] theorem Element.setPend_weights (e : Element) (p : Pend) : (e.setPend p).weights = e.weights := rfl
@[simp] theorem Element.setPend_sw (e : Element) (p : Pend) : (e.setPend p).sw = e.sw := rfl
@[simp] theorem Element.setPend_acc (e : Element) (p : Pend) : (e.setPend p).acc = e.acc := rfl
@[simp] theorem Element.setPend_landing (e : Element) (p : Pend) : (e.setPend p).landing = e.landing := rfl
@[simp] theorem Element.setPend_mxOn (e : Element) (p : Pend) : (e.setPend p).mxOn = e.mxOn := rfl
@[simp] theorem Element.setPend_mxWarm (e : Element) (p : Pend) : (e.setPend p).mxWarm = e.mxWarm := rfl
@[simp] theorem Element.setPend_mxBurst (e : Element) (p : Pend) : (e.setPend p).mxBurst = e.mxBurst := rfl
@[simp] theorem Element.setPend_mxFmt (e : Element) (p : Pend) : (e.setPend p).mxFmt = e.mxFmt := rfl
@[simp] theorem Element.setPend_mxWarming (e : Element) (p : Pend) : (e.setPend p).mxWarming = e.mxWarming := rfl
@[simp] theorem Element.setPend_mxSince (e : Element) (p : Pend) : (e.setPend p).mxSince = e.mxSince := rfl
@[simp] theorem Element.setPend_scales (e : Element) (p : Pend) : (e.setPend p).scales = e.scales := rfl
@[simp] theorem Element.setPend_hist (e : Element) (p : Pend) : (e.setPend p).hist = e.hist := rfl
@[simp] theorem Element.setPend_selctl (e : Element) (p : Pend) : (e.setPend p).selctl = e.selctl := rfl
@[simp] theorem Element.setPend_selk (e : Element) (p : Pend) : (e.setPend p).selk = e.selk := rfl
@[simp] theorem Element.setPend_selpfx (e : Element) (p : Pend) : (e.setPend p).selpfx = e.selpfx := rfl
@[simp] theorem Element.setPend_delays (e : Element) (p : Pend) : (e.setPend p).delays = e.delays := rfl
@[simp] theorem Element.setPend_loops (e : Element) (p : Pend) : (e.setPend p).loops = e.loops := rfl
@[simp] theorem Element.setPend_commits (e : Element) (p : Pend) : (e.setPend p).commits = e.commits := rfl
@[simp] theorem Element.setPend_nextId (e : Element) (p : Pend) : (e.setPend p).nextId = e.nextId := rfl
@[simp] theorem Element.setPend_sink (e : Element) (p : Pend) : (e.setPend p).sink = e.sink := rfl
@[simp] theorem Element.setPend_rmw (e : Element) (p : Pend) : (e.setPend p).rmw = e.rmw := rfl
@[simp] theorem Element.setPend_defers (e : Element) (p : Pend) : (e.setPend p).defers = e.defers := rfl
@[simp] theorem Element.setPend_owners (e : Element) (p : Pend) : (e.setPend p).owners = e.owners := rfl
@[simp] theorem Element.setPend_dirty (e : Element) (p : Pend) : (e.setPend p).dirty = e.dirty := rfl
@[simp] theorem Element.setPend_arrived (e : Element) (p : Pend) : (e.setPend p).arrived = e.arrived := rfl
@[simp] theorem Element.setPend_arrivedBy (e : Element) (p : Pend) : (e.setPend p).arrivedBy = e.arrivedBy := rfl
@[simp] theorem Element.setPend_sentAt (e : Element) (p : Pend) : (e.setPend p).sentAt = e.sentAt := rfl
@[simp] theorem Element.setPend_routes (e : Element) (p : Pend) : (e.setPend p).routes = e.routes := rfl
@[simp] theorem Element.setPend_area (e : Element) (p : Pend) : (e.setPend p).area = e.area := rfl
@[simp] theorem Element.setPend_offered (e : Element) (p : Pend) : (e.setPend p).offered = e.offered := rfl
@[simp] theorem Element.setPend_outq (e : Element) (p : Pend) : (e.setPend p).outq = e.outq := rfl
@[simp] theorem Element.setPend_cmds (e : Element) (p : Pend) : (e.setPend p).cmds = e.cmds := rfl
@[simp] theorem Element.setPend_halted (e : Element) (p : Pend) : (e.setPend p).halted = e.halted := rfl

/-! ### Element.dropPend -/

@[simp] theorem Element.dropPend_slots (e : Element) (id : Nat) : (e.dropPend id).slots = e.slots := rfl
@[simp] theorem Element.dropPend_store (e : Element) (id : Nat) : (e.dropPend id).store = e.store := rfl
@[simp] theorem Element.dropPend_parked (e : Element) (id : Nat) : (e.dropPend id).parked = e.parked := rfl
@[simp] theorem Element.dropPend_parkedToks (e : Element) (id : Nat) : (e.dropPend id).parkedToks = e.parkedToks := rfl
@[simp] theorem Element.dropPend_ready (e : Element) (id : Nat) : (e.dropPend id).ready = e.ready := rfl
@[simp] theorem Element.dropPend_probes (e : Element) (id : Nat) : (e.dropPend id).probes = e.probes := rfl
@[simp] theorem Element.dropPend_missBuf (e : Element) (id : Nat) : (e.dropPend id).missBuf = e.missBuf := rfl
@[simp] theorem Element.dropPend_arrivals (e : Element) (id : Nat) : (e.dropPend id).arrivals = e.arrivals := rfl
@[simp] theorem Element.dropPend_mem (e : Element) (id : Nat) : (e.dropPend id).mem = e.mem := rfl
@[simp] theorem Element.dropPend_framedir (e : Element) (id : Nat) : (e.dropPend id).framedir = e.framedir := rfl
@[simp] theorem Element.dropPend_stray (e : Element) (id : Nat) : (e.dropPend id).stray = e.stray := rfl
@[simp] theorem Element.dropPend_badtok (e : Element) (id : Nat) : (e.dropPend id).badtok = e.badtok := rfl
@[simp] theorem Element.dropPend_mismatch (e : Element) (id : Nat) : (e.dropPend id).mismatch = e.mismatch := rfl
@[simp] theorem Element.dropPend_aflags (e : Element) (id : Nat) : (e.dropPend id).aflags = e.aflags := rfl
@[simp] theorem Element.dropPend_aftrap (e : Element) (id : Nat) : (e.dropPend id).aftrap = e.aftrap := rfl
@[simp] theorem Element.dropPend_srstate (e : Element) (id : Nat) : (e.dropPend id).srstate = e.srstate := rfl
@[simp] theorem Element.dropPend_wins (e : Element) (id : Nat) : (e.dropPend id).wins = e.wins := rfl
@[simp] theorem Element.dropPend_gens (e : Element) (id : Nat) : (e.dropPend id).gens = e.gens := rfl
@[simp] theorem Element.dropPend_lodeen0 (e : Element) (id : Nat) : (e.dropPend id).lodeen0 = e.lodeen0 := rfl
@[simp] theorem Element.dropPend_lodeen1 (e : Element) (id : Nat) : (e.dropPend id).lodeen1 = e.lodeen1 := rfl
@[simp] theorem Element.dropPend_weights (e : Element) (id : Nat) : (e.dropPend id).weights = e.weights := rfl
@[simp] theorem Element.dropPend_sw (e : Element) (id : Nat) : (e.dropPend id).sw = e.sw := rfl
@[simp] theorem Element.dropPend_acc (e : Element) (id : Nat) : (e.dropPend id).acc = e.acc := rfl
@[simp] theorem Element.dropPend_landing (e : Element) (id : Nat) : (e.dropPend id).landing = e.landing := rfl
@[simp] theorem Element.dropPend_mxOn (e : Element) (id : Nat) : (e.dropPend id).mxOn = e.mxOn := rfl
@[simp] theorem Element.dropPend_mxWarm (e : Element) (id : Nat) : (e.dropPend id).mxWarm = e.mxWarm := rfl
@[simp] theorem Element.dropPend_mxBurst (e : Element) (id : Nat) : (e.dropPend id).mxBurst = e.mxBurst := rfl
@[simp] theorem Element.dropPend_mxFmt (e : Element) (id : Nat) : (e.dropPend id).mxFmt = e.mxFmt := rfl
@[simp] theorem Element.dropPend_mxWarming (e : Element) (id : Nat) : (e.dropPend id).mxWarming = e.mxWarming := rfl
@[simp] theorem Element.dropPend_mxSince (e : Element) (id : Nat) : (e.dropPend id).mxSince = e.mxSince := rfl
@[simp] theorem Element.dropPend_scales (e : Element) (id : Nat) : (e.dropPend id).scales = e.scales := rfl
@[simp] theorem Element.dropPend_hist (e : Element) (id : Nat) : (e.dropPend id).hist = e.hist := rfl
@[simp] theorem Element.dropPend_selctl (e : Element) (id : Nat) : (e.dropPend id).selctl = e.selctl := rfl
@[simp] theorem Element.dropPend_selk (e : Element) (id : Nat) : (e.dropPend id).selk = e.selk := rfl
@[simp] theorem Element.dropPend_selpfx (e : Element) (id : Nat) : (e.dropPend id).selpfx = e.selpfx := rfl
@[simp] theorem Element.dropPend_delays (e : Element) (id : Nat) : (e.dropPend id).delays = e.delays := rfl
@[simp] theorem Element.dropPend_loops (e : Element) (id : Nat) : (e.dropPend id).loops = e.loops := rfl
@[simp] theorem Element.dropPend_commits (e : Element) (id : Nat) : (e.dropPend id).commits = e.commits := rfl
@[simp] theorem Element.dropPend_nextId (e : Element) (id : Nat) : (e.dropPend id).nextId = e.nextId := rfl
@[simp] theorem Element.dropPend_sink (e : Element) (id : Nat) : (e.dropPend id).sink = e.sink := rfl
@[simp] theorem Element.dropPend_rmw (e : Element) (id : Nat) : (e.dropPend id).rmw = e.rmw := rfl
@[simp] theorem Element.dropPend_defers (e : Element) (id : Nat) : (e.dropPend id).defers = e.defers := rfl
@[simp] theorem Element.dropPend_owners (e : Element) (id : Nat) : (e.dropPend id).owners = e.owners := rfl
@[simp] theorem Element.dropPend_dirty (e : Element) (id : Nat) : (e.dropPend id).dirty = e.dirty := rfl
@[simp] theorem Element.dropPend_arrived (e : Element) (id : Nat) : (e.dropPend id).arrived = e.arrived := rfl
@[simp] theorem Element.dropPend_arrivedBy (e : Element) (id : Nat) : (e.dropPend id).arrivedBy = e.arrivedBy := rfl
@[simp] theorem Element.dropPend_sentAt (e : Element) (id : Nat) : (e.dropPend id).sentAt = e.sentAt := rfl
@[simp] theorem Element.dropPend_routes (e : Element) (id : Nat) : (e.dropPend id).routes = e.routes := rfl
@[simp] theorem Element.dropPend_area (e : Element) (id : Nat) : (e.dropPend id).area = e.area := rfl
@[simp] theorem Element.dropPend_offered (e : Element) (id : Nat) : (e.dropPend id).offered = e.offered := rfl
@[simp] theorem Element.dropPend_outq (e : Element) (id : Nat) : (e.dropPend id).outq = e.outq := rfl
@[simp] theorem Element.dropPend_cmds (e : Element) (id : Nat) : (e.dropPend id).cmds = e.cmds := rfl
@[simp] theorem Element.dropPend_halted (e : Element) (id : Nat) : (e.dropPend id).halted = e.halted := rfl

/-! ### Element.wake -/

@[simp] theorem Element.wake_slots (e : Element) (p : Parked → Bool) : (e.wake p).slots = e.slots := rfl
@[simp] theorem Element.wake_store (e : Element) (p : Parked → Bool) : (e.wake p).store = e.store := rfl
@[simp] theorem Element.wake_parkedToks (e : Element) (p : Parked → Bool) : (e.wake p).parkedToks = e.parkedToks := rfl
@[simp] theorem Element.wake_probes (e : Element) (p : Parked → Bool) : (e.wake p).probes = e.probes := rfl
@[simp] theorem Element.wake_missBuf (e : Element) (p : Parked → Bool) : (e.wake p).missBuf = e.missBuf := rfl
@[simp] theorem Element.wake_arrivals (e : Element) (p : Parked → Bool) : (e.wake p).arrivals = e.arrivals := rfl
@[simp] theorem Element.wake_mem (e : Element) (p : Parked → Bool) : (e.wake p).mem = e.mem := rfl
@[simp] theorem Element.wake_framedir (e : Element) (p : Parked → Bool) : (e.wake p).framedir = e.framedir := rfl
@[simp] theorem Element.wake_stray (e : Element) (p : Parked → Bool) : (e.wake p).stray = e.stray := rfl
@[simp] theorem Element.wake_badtok (e : Element) (p : Parked → Bool) : (e.wake p).badtok = e.badtok := rfl
@[simp] theorem Element.wake_mismatch (e : Element) (p : Parked → Bool) : (e.wake p).mismatch = e.mismatch := rfl
@[simp] theorem Element.wake_aflags (e : Element) (p : Parked → Bool) : (e.wake p).aflags = e.aflags := rfl
@[simp] theorem Element.wake_aftrap (e : Element) (p : Parked → Bool) : (e.wake p).aftrap = e.aftrap := rfl
@[simp] theorem Element.wake_srstate (e : Element) (p : Parked → Bool) : (e.wake p).srstate = e.srstate := rfl
@[simp] theorem Element.wake_wins (e : Element) (p : Parked → Bool) : (e.wake p).wins = e.wins := rfl
@[simp] theorem Element.wake_gens (e : Element) (p : Parked → Bool) : (e.wake p).gens = e.gens := rfl
@[simp] theorem Element.wake_lodeen0 (e : Element) (p : Parked → Bool) : (e.wake p).lodeen0 = e.lodeen0 := rfl
@[simp] theorem Element.wake_lodeen1 (e : Element) (p : Parked → Bool) : (e.wake p).lodeen1 = e.lodeen1 := rfl
@[simp] theorem Element.wake_weights (e : Element) (p : Parked → Bool) : (e.wake p).weights = e.weights := rfl
@[simp] theorem Element.wake_sw (e : Element) (p : Parked → Bool) : (e.wake p).sw = e.sw := rfl
@[simp] theorem Element.wake_acc (e : Element) (p : Parked → Bool) : (e.wake p).acc = e.acc := rfl
@[simp] theorem Element.wake_landing (e : Element) (p : Parked → Bool) : (e.wake p).landing = e.landing := rfl
@[simp] theorem Element.wake_mxOn (e : Element) (p : Parked → Bool) : (e.wake p).mxOn = e.mxOn := rfl
@[simp] theorem Element.wake_mxWarm (e : Element) (p : Parked → Bool) : (e.wake p).mxWarm = e.mxWarm := rfl
@[simp] theorem Element.wake_mxBurst (e : Element) (p : Parked → Bool) : (e.wake p).mxBurst = e.mxBurst := rfl
@[simp] theorem Element.wake_mxFmt (e : Element) (p : Parked → Bool) : (e.wake p).mxFmt = e.mxFmt := rfl
@[simp] theorem Element.wake_mxWarming (e : Element) (p : Parked → Bool) : (e.wake p).mxWarming = e.mxWarming := rfl
@[simp] theorem Element.wake_mxSince (e : Element) (p : Parked → Bool) : (e.wake p).mxSince = e.mxSince := rfl
@[simp] theorem Element.wake_scales (e : Element) (p : Parked → Bool) : (e.wake p).scales = e.scales := rfl
@[simp] theorem Element.wake_hist (e : Element) (p : Parked → Bool) : (e.wake p).hist = e.hist := rfl
@[simp] theorem Element.wake_selctl (e : Element) (p : Parked → Bool) : (e.wake p).selctl = e.selctl := rfl
@[simp] theorem Element.wake_selk (e : Element) (p : Parked → Bool) : (e.wake p).selk = e.selk := rfl
@[simp] theorem Element.wake_selpfx (e : Element) (p : Parked → Bool) : (e.wake p).selpfx = e.selpfx := rfl
@[simp] theorem Element.wake_delays (e : Element) (p : Parked → Bool) : (e.wake p).delays = e.delays := rfl
@[simp] theorem Element.wake_loops (e : Element) (p : Parked → Bool) : (e.wake p).loops = e.loops := rfl
@[simp] theorem Element.wake_commits (e : Element) (p : Parked → Bool) : (e.wake p).commits = e.commits := rfl
@[simp] theorem Element.wake_pend (e : Element) (p : Parked → Bool) : (e.wake p).pend = e.pend := rfl
@[simp] theorem Element.wake_nextId (e : Element) (p : Parked → Bool) : (e.wake p).nextId = e.nextId := rfl
@[simp] theorem Element.wake_sink (e : Element) (p : Parked → Bool) : (e.wake p).sink = e.sink := rfl
@[simp] theorem Element.wake_rmw (e : Element) (p : Parked → Bool) : (e.wake p).rmw = e.rmw := rfl
@[simp] theorem Element.wake_defers (e : Element) (p : Parked → Bool) : (e.wake p).defers = e.defers := rfl
@[simp] theorem Element.wake_owners (e : Element) (p : Parked → Bool) : (e.wake p).owners = e.owners := rfl
@[simp] theorem Element.wake_dirty (e : Element) (p : Parked → Bool) : (e.wake p).dirty = e.dirty := rfl
@[simp] theorem Element.wake_arrived (e : Element) (p : Parked → Bool) : (e.wake p).arrived = e.arrived := rfl
@[simp] theorem Element.wake_arrivedBy (e : Element) (p : Parked → Bool) : (e.wake p).arrivedBy = e.arrivedBy := rfl
@[simp] theorem Element.wake_sentAt (e : Element) (p : Parked → Bool) : (e.wake p).sentAt = e.sentAt := rfl
@[simp] theorem Element.wake_routes (e : Element) (p : Parked → Bool) : (e.wake p).routes = e.routes := rfl
@[simp] theorem Element.wake_area (e : Element) (p : Parked → Bool) : (e.wake p).area = e.area := rfl
@[simp] theorem Element.wake_offered (e : Element) (p : Parked → Bool) : (e.wake p).offered = e.offered := rfl
@[simp] theorem Element.wake_outq (e : Element) (p : Parked → Bool) : (e.wake p).outq = e.outq := rfl
@[simp] theorem Element.wake_cmds (e : Element) (p : Parked → Bool) : (e.wake p).cmds = e.cmds := rfl
@[simp] theorem Element.wake_halted (e : Element) (p : Parked → Bool) : (e.wake p).halted = e.halted := rfl

/-! ### Element.toReady -/

@[simp] theorem Element.toReady_slots (e : Element) (x : MSet) : (e.toReady x).slots = e.slots := rfl
@[simp] theorem Element.toReady_store (e : Element) (x : MSet) : (e.toReady x).store = e.store := rfl
@[simp] theorem Element.toReady_parked (e : Element) (x : MSet) : (e.toReady x).parked = e.parked := rfl
@[simp] theorem Element.toReady_parkedToks (e : Element) (x : MSet) : (e.toReady x).parkedToks = e.parkedToks := rfl
@[simp] theorem Element.toReady_probes (e : Element) (x : MSet) : (e.toReady x).probes = e.probes := rfl
@[simp] theorem Element.toReady_missBuf (e : Element) (x : MSet) : (e.toReady x).missBuf = e.missBuf := rfl
@[simp] theorem Element.toReady_arrivals (e : Element) (x : MSet) : (e.toReady x).arrivals = e.arrivals := rfl
@[simp] theorem Element.toReady_mem (e : Element) (x : MSet) : (e.toReady x).mem = e.mem := rfl
@[simp] theorem Element.toReady_framedir (e : Element) (x : MSet) : (e.toReady x).framedir = e.framedir := rfl
@[simp] theorem Element.toReady_stray (e : Element) (x : MSet) : (e.toReady x).stray = e.stray := rfl
@[simp] theorem Element.toReady_badtok (e : Element) (x : MSet) : (e.toReady x).badtok = e.badtok := rfl
@[simp] theorem Element.toReady_mismatch (e : Element) (x : MSet) : (e.toReady x).mismatch = e.mismatch := rfl
@[simp] theorem Element.toReady_aflags (e : Element) (x : MSet) : (e.toReady x).aflags = e.aflags := rfl
@[simp] theorem Element.toReady_aftrap (e : Element) (x : MSet) : (e.toReady x).aftrap = e.aftrap := rfl
@[simp] theorem Element.toReady_srstate (e : Element) (x : MSet) : (e.toReady x).srstate = e.srstate := rfl
@[simp] theorem Element.toReady_wins (e : Element) (x : MSet) : (e.toReady x).wins = e.wins := rfl
@[simp] theorem Element.toReady_gens (e : Element) (x : MSet) : (e.toReady x).gens = e.gens := rfl
@[simp] theorem Element.toReady_lodeen0 (e : Element) (x : MSet) : (e.toReady x).lodeen0 = e.lodeen0 := rfl
@[simp] theorem Element.toReady_lodeen1 (e : Element) (x : MSet) : (e.toReady x).lodeen1 = e.lodeen1 := rfl
@[simp] theorem Element.toReady_weights (e : Element) (x : MSet) : (e.toReady x).weights = e.weights := rfl
@[simp] theorem Element.toReady_sw (e : Element) (x : MSet) : (e.toReady x).sw = e.sw := rfl
@[simp] theorem Element.toReady_acc (e : Element) (x : MSet) : (e.toReady x).acc = e.acc := rfl
@[simp] theorem Element.toReady_landing (e : Element) (x : MSet) : (e.toReady x).landing = e.landing := rfl
@[simp] theorem Element.toReady_mxOn (e : Element) (x : MSet) : (e.toReady x).mxOn = e.mxOn := rfl
@[simp] theorem Element.toReady_mxWarm (e : Element) (x : MSet) : (e.toReady x).mxWarm = e.mxWarm := rfl
@[simp] theorem Element.toReady_mxBurst (e : Element) (x : MSet) : (e.toReady x).mxBurst = e.mxBurst := rfl
@[simp] theorem Element.toReady_mxFmt (e : Element) (x : MSet) : (e.toReady x).mxFmt = e.mxFmt := rfl
@[simp] theorem Element.toReady_mxWarming (e : Element) (x : MSet) : (e.toReady x).mxWarming = e.mxWarming := rfl
@[simp] theorem Element.toReady_mxSince (e : Element) (x : MSet) : (e.toReady x).mxSince = e.mxSince := rfl
@[simp] theorem Element.toReady_scales (e : Element) (x : MSet) : (e.toReady x).scales = e.scales := rfl
@[simp] theorem Element.toReady_hist (e : Element) (x : MSet) : (e.toReady x).hist = e.hist := rfl
@[simp] theorem Element.toReady_selctl (e : Element) (x : MSet) : (e.toReady x).selctl = e.selctl := rfl
@[simp] theorem Element.toReady_selk (e : Element) (x : MSet) : (e.toReady x).selk = e.selk := rfl
@[simp] theorem Element.toReady_selpfx (e : Element) (x : MSet) : (e.toReady x).selpfx = e.selpfx := rfl
@[simp] theorem Element.toReady_delays (e : Element) (x : MSet) : (e.toReady x).delays = e.delays := rfl
@[simp] theorem Element.toReady_loops (e : Element) (x : MSet) : (e.toReady x).loops = e.loops := rfl
@[simp] theorem Element.toReady_commits (e : Element) (x : MSet) : (e.toReady x).commits = e.commits := rfl
@[simp] theorem Element.toReady_pend (e : Element) (x : MSet) : (e.toReady x).pend = e.pend := rfl
@[simp] theorem Element.toReady_nextId (e : Element) (x : MSet) : (e.toReady x).nextId = e.nextId := rfl
@[simp] theorem Element.toReady_sink (e : Element) (x : MSet) : (e.toReady x).sink = e.sink := rfl
@[simp] theorem Element.toReady_rmw (e : Element) (x : MSet) : (e.toReady x).rmw = e.rmw := rfl
@[simp] theorem Element.toReady_defers (e : Element) (x : MSet) : (e.toReady x).defers = e.defers := rfl
@[simp] theorem Element.toReady_owners (e : Element) (x : MSet) : (e.toReady x).owners = e.owners := rfl
@[simp] theorem Element.toReady_dirty (e : Element) (x : MSet) : (e.toReady x).dirty = e.dirty := rfl
@[simp] theorem Element.toReady_arrived (e : Element) (x : MSet) : (e.toReady x).arrived = e.arrived := rfl
@[simp] theorem Element.toReady_arrivedBy (e : Element) (x : MSet) : (e.toReady x).arrivedBy = e.arrivedBy := rfl
@[simp] theorem Element.toReady_sentAt (e : Element) (x : MSet) : (e.toReady x).sentAt = e.sentAt := rfl
@[simp] theorem Element.toReady_routes (e : Element) (x : MSet) : (e.toReady x).routes = e.routes := rfl
@[simp] theorem Element.toReady_area (e : Element) (x : MSet) : (e.toReady x).area = e.area := rfl
@[simp] theorem Element.toReady_offered (e : Element) (x : MSet) : (e.toReady x).offered = e.offered := rfl
@[simp] theorem Element.toReady_outq (e : Element) (x : MSet) : (e.toReady x).outq = e.outq := rfl
@[simp] theorem Element.toReady_cmds (e : Element) (x : MSet) : (e.toReady x).cmds = e.cmds := rfl
@[simp] theorem Element.toReady_halted (e : Element) (x : MSet) : (e.toReady x).halted = e.halted := rfl

end Sys2Proof.Machine
end

