-- ==== Sys2Proof/Laws/Firing.lean ====
section
/-! SUPPORT. What a firing does that goes through the checks: it sends its tokens at once, or waits with a record. Cited
instead of unfolding issue, emission and retirement. -/

namespace Sys2Proof.Machine

/-- A fabric with one element and the agenda replaced. -/
abbrev withEl (f : Fabric) (el : Nat) (e : Element) (ag : List Ev) : Fabric := { f with els := tset f.els el e, agenda := ag }

theorem with_el (f : Fabric) (el : Nat) (e : Element) (ag : List Ev) : (withEl f el e ag).el el = e := tget_tset_self _ _ _ _

theorem with_modEl (f : Fabric) (el : Nat) (e : Element) (ag : List Ev) (g : Element → Element) :
    (withEl f el e ag).modEl el g = withEl f el (g e) ag := by
  simp only [Fabric.modEl, Fabric.setEl, with_el, withEl, tset_tset]

theorem with_post (f : Fabric) (el : Nat) (e : Element) (ag : List Ev) (i : Ev) : (withEl f el e ag).post i = withEl f el e (ag ++ [i]) := rfl

theorem with_postAll (f : Fabric) (el : Nat) (e : Element) (ag : List Ev) (is : List Ev) :
    (withEl f el e ag).postAll is = withEl f el e (ag ++ is) := rfl

theorem with_el_ne {f : Fabric} {el k : Nat} (e : Element) (ag : List Ev) (h : k ≠ el) : (withEl f el e ag).el k = f.el k := tget_tset_ne _ _ _ h

/-- A token for another element's packet port leaves, or waits in the output queue as well. -/
theorem sendPacket_with (f : Fabric) (el tgt : Nat) (e : Element) (ag : List Ev) (t : Tok) (h : tgt ≠ el) :
    (withEl f el e ag).sendPacket el tgt t
      = withEl f el { e with outq := e.outq ++ if (f.el tgt).holdsBack .packet then [(tgt, t)] else [] } (ag ++ [.tokenArrive tgt .packet t]) := by
  unfold Fabric.sendPacket
  rw [with_el_ne e ag h]
  split
  · rw [with_modEl]; rfl
  · simp only [List.append_nil]; rfl

/-- A scale token leaves, and waits in the output queue where its target's store is full. -/
theorem sendScale_with (f : Fabric) (el tgt : Nat) (e : Element) (ag : List Ev) (t : ScaleTok) :
    (withEl f el e ag).sendScale el tgt t
      = withEl f el { e with outq := e.outq ++ if 64 ≤ (if tgt = el then e else f.el tgt).scales.length then [(tgt, scaleAsTok t)] else [] }
          (ag ++ [.scaleTokenArrive tgt t]) := by
  have he : (withEl f el e ag).el tgt = if tgt = el then e else f.el tgt := by
    split
    · rename_i h; rw [h, with_el]
    · rename_i h; exact with_el_ne e ag h
  by_cases hs : 64 ≤ (if tgt = el then e else f.el tgt).scales.length
  · simp only [Fabric.sendScale, he, hs, if_true, with_modEl]; rfl
  · simp only [Fabric.sendScale, he, hs, if_false, List.append_nil]; rfl

/-- One output to its destination, for any code but exits and routes. -/
theorem emitOut_with (c : FCtx) (tag : DWord) (o : Out) (f : Fabric) (e : Element) (ag : List Ev)
    (ho : plainDst c o.dst = true) (hi : e.imageOf c.ctx = c.img) :
    emitOut (withEl f c.el e ag) c.el c.ctx c.slot c.tag tag o = withEl f c.el (keep { c with f := f } tag e o) (ag ++ tokens c tag o) := by
  simp only [plainDst, Bool.and_eq_true, Bool.not_eq_true', Bool.and_eq_false_iff, decide_eq_false_iff_not, Bool.or_eq_true,
    decide_eq_true_eq] at ho
  simp only [emitOut, with_el, hi, keep, tokens]
  by_cases h : o.dst ≤ 0x0F
  · have h2 : destKind (c.img.dest o.dst) ≠ 2 := by
      rcases ho.2 with h' | h'
      · omega
      · exact h'
    simp only [h, if_true, true_and, sendEntry, markSent, with_modEl, heldOut]
    by_cases h1 : destKind (c.img.dest o.dst) = 1
    · simp only [h1, if_true]
      cases hsc : o.scale with
      | some v =>
        simp only [sendScale_with]
        by_cases ht : entryTarget c.el (c.img.dest o.dst) = c.el
        · simp only [ht, if_true]; rfl
        · simp only [ht, if_false]; rfl
      | none =>
        simp only []
        by_cases h3 : bit (c.img.dest o.dst) 3 = true
        · simp [h3]; rfl
        · by_cases h4 : entryTarget c.el (c.img.dest o.dst) = c.el
          · simp [h3, h4]; rfl
          · have h3' : bit (c.img.dest o.dst) 3 = false := by simpa using h3
            simp only [h3', h4, Bool.false_eq_true, if_false]
            rw [sendPacket_with _ _ _ _ _ _ h4]
            congr 2
            simp [h4]; rfl
    · simp [h1, h2]; rfl
  · simp only [h, if_false, false_and, List.append_nil]
    split
    · rfl
    · split
      · cases lowestLane o <;> simp only [with_modEl]
      · split
        · simp only [with_modEl]; rfl
        · split
          · simp only [with_modEl]; rfl
          · rfl

theorem keep_imageOf (c : FCtx) (tag : DWord) (e : Element) (o : Out) (ctx : Nat) : (keep c tag e o).imageOf ctx = e.imageOf ctx := by
  simp only [keep, landAll]
  repeat' split
  all_goals rfl

theorem emitAll_with (c : FCtx) (tag : DWord) (outs : List Out) (f : Fabric) (e : Element) (ag : List Ev)
    (ho : ∀ o ∈ outs, plainDst c o.dst = true) (hi : e.imageOf c.ctx = c.img) :
    outs.foldl (fun f o => emitOut f c.el c.ctx c.slot c.tag tag o) (withEl f c.el e ag)
      = withEl f c.el (outs.foldl (keep { c with f := f } tag) e) (ag ++ outs.flatMap (tokens c tag)) := by
  induction outs generalizing e ag with
  | nil => simp
  | cons o r ih =>
    simp only [List.foldl_cons, List.flatMap_cons]
    rw [emitOut_with c tag o f e ag (ho o (by simp)) hi, ih _ _ (fun x hx => ho x (by simp [hx])) (by rw [keep_imageOf]; exact hi)]
    simp [List.append_assoc]

/-- A route output is none of a plain one. -/
theorem plain_notRoute {c : FCtx} {o : Out} (h : plainDst c o.dst = true) : isRouteOut c.img o = false := by
  simp only [plainDst, Bool.and_eq_true, Bool.or_eq_true, decide_eq_true_eq] at h
  simp only [isRouteOut, Bool.and_eq_false_iff, decide_eq_false_iff_not]
  rcases h.2 with h | h
  · exact .inl (by omega)
  · exact .inr h

/-- An exit is none of a plain one. -/
theorem plain_notExit {c : FCtx} {o : Out} (h : plainDst c o.dst = true) : isExitOut o = false := by
  simp only [plainDst, Bool.and_eq_true, Bool.not_eq_true'] at h
  exact h.1

/-- Plain outputs take no route. -/
theorem plain_noRoutes {c : FCtx} {outs : List Out} (h : ∀ o ∈ outs, plainDst c o.dst = true ∧ o.pool = false) : routesOf c.img outs = [] := by
  have : outs.filter (isRouteOut c.img) = [] := by
    rw [List.filter_eq_nil_iff]
    intro o ho
    simp [plain_notRoute (h o ho).1]
  rw [routesOf, this]; rfl

theorem opens_unmasked {img : Image} {s : Nat} (h : opensEntry img s = false) : bit img.stmask s = false := by
  simp only [opensEntry, Bool.or_eq_false_iff] at h
  exact h.2

theorem noted_imageOf (c : FCtx) (fl : Flags) (e : Element) (ctx : Nat) : (noted c fl e).imageOf ctx = e.imageOf ctx := by
  let g : Nat × Resident → Nat × Resident := fun p => if p.2.ctx = c.ctx then (p.1, { p.2 with last := c.f.clock }) else p
  have hg : ∀ p, (g p).2.ctx = p.2.ctx ∧ (g p).2.image = p.2.image := by
    intro p; simp only [g]; split <;> exact ⟨rfl, rfl⟩
  have hs : (noted c fl e).slots = e.slots.map g := rfl
  simp only [Element.imageOf, Element.residentOf, hs, List.find?_map, Option.map_map]
  have hf : ((fun p : Nat × Resident => decide (p.2.ctx = ctx)) ∘ g) = fun p => decide (p.2.ctx = ctx) := by
    funext p; simp only [Function.comp, (hg p).1]
  have hi : (fun p : Nat × Resident => p.2.image) ∘ g = fun p => p.2.image := by
    funext p; exact (hg p).2
  rw [hf]
  exact congrArg (·.getD []) (congrArg (fun k => Option.map k _) hi)

theorem setFlags_eq (e : Element) (fl : Flags) (c : FCtx) :
    { e.addFlags fl with slots := e.slots.map fun p => if p.2.ctx = c.ctx then (p.1, { p.2 with last := c.f.clock }) else p } = noted c fl e := rfl

/-- RETIREMENT of a firing that holds no exit and is no masked store, where no entry of its tag exists. -/
theorem retire_plain (c : FCtx) (q : Pend) (tag : DWord) (f : Fabric) (e : Element) (ag : List Ev)
    (hset : q.set = c.s) (hid : q.id = c.id) (hord : q.ordered = false) (hm : q.masked = false) (hargs : q.args = [])
    (hout : ∀ o ∈ q.outs, plainDst c o.dst = true ∧ o.pool = false)
    (hi : e.imageOf c.ctx = c.img) (hco : e.commitOf c.ctx c.tag = none)
    (hlate : (q.op ≠ 0x83 ∧ q.op ≠ 0xE0) ∨ q.t ≠ 4) (htag : finalTag c.img q 0 = tag) :
    retire (withEl f c.el e ag) c.el q 0
      = withEl f c.el (((q.outs.foldl (keep { c with f := f } tag) e).dropPend c.id).wake fun x => decide (x.reason = .fence) || decide (x.reason = .queue ∧ x.on = 1))
          (ag ++ q.outs.flatMap (tokens c tag)) := by
  have hctx : q.set.ctx = c.ctx := by rw [hset]; rfl
  have hstag : q.set.tag = c.tag := by rw [hset]; rfl
  have hslot : q.set.slot = c.slot := by rw [hset]; rfl
  have hfill : fillPool c.img 0 q = q := by
    have : q.outs.map (fun (o : Out) => if o.pool then { o with lanes := [(extendLit ((Fmt.ofCode q.fout).getD .n64) c.img.b8mode 1 (w64 0) false false).1] } else o) = q.outs := by
      conv_rhs => rw [← List.map_id q.outs]
      apply List.map_congr_left
      intro o ho
      simp [(hout o ho).2]
    simp only [fillPool, this]
  have hex : q.outs.filter isExitOut = [] := by
    rw [List.filter_eq_nil_iff]
    intro o ho
    simp [plain_notExit (hout o ho).1]
  have hkeep : q.outs.filter (fun (o : Out) => !(decide (0x16 ≤ o.dst) && decide (o.dst ≤ 0x19))) = q.outs := by
    rw [List.filter_eq_self]
    intro o ho
    have := plain_notExit (hout o ho).1
    simp only [isExitOut] at this
    simp [this]
  have h83 : (if q.op = 0x83 then (withEl f c.el e ag).modEl c.el fun e => clearAcc e (q.args.map (·.toNat)) else withEl f c.el e ag) = withEl f c.el e ag := by
    split
    · rw [with_modEl, hargs]; rfl
    · rfl
  have hl : lateOver c.img q tag = false := by
    rcases hlate with h | h
    · simp [lateOver, h]
    · have h' : ¬ q.t = 4#4 := h
      simp [lateOver, h']
  have hnr := plain_noRoutes hout
  unfold retire
  simp only [hl, hnr, List.find?_nil, List.any_nil, Option.isSome_none, Bool.and_false, Bool.false_eq_true, if_false, h83, with_el, hctx, hi, hfill, hex, List.head?_nil, htag]
  have hs : sendOuts (withEl f c.el e ag) c.el q tag = withEl f c.el ((q.outs.foldl (keep { c with f := f } tag) e).dropPend c.id) (ag ++ q.outs.flatMap (tokens c tag)) := by
    have hro : q.outs.any (isRouteOut c.img) = false := by
      rw [List.any_eq_false]
      intro o ho
      simp [plain_notRoute (hout o ho).1]
    unfold sendOuts
    simp only [hord, hkeep, with_el, hctx, hi, hro, Bool.false_and, Bool.or_self, Bool.false_eq_true, if_false, hstag, hslot]
    rw [emitAll_with c tag q.outs f e ag (fun o ho => (hout o ho).1) hi, with_modEl, hid]
  rw [hs]
  simp only [with_modEl, countDone, hm, Bool.false_eq_true, if_false]
  have hk : ∀ (l : List Out) (e : Element), (l.foldl (keep { c with f := f } tag) e).commits = e.commits := by
    intro l
    induction l with
    | nil => intro e; rfl
    | cons o r ih =>
      intro e
      rw [List.foldl_cons, ih]
      simp only [keep, landAll]
      repeat' split
      all_goals rfl
  have hcom : ((q.outs.foldl (keep { c with f := f } tag) e).dropPend c.id).commitOf c.ctx c.tag = none := by
    have : ((q.outs.foldl (keep { c with f := f } tag) e).dropPend c.id).commits = e.commits := by rw [Element.dropPend_commits, hk]
    simp only [Element.commitOf, this]
    exact hco
  unfold tryCommit
  simp only [with_el, hstag, hcom, wakeDone, with_modEl]

/-- What a form may have written for the firing to end as `sent` and `waiting` say: the images, the step counter and the commit
table as they were. -/
def Keeps (c : FCtx) (f : Fabric) : Prop :=
  (f.el c.el).imageOf c.ctx = c.img ∧ f.clock = c.f.clock ∧ (f.el c.el).commits = c.elt.commits

theorem clear_noTrap {c : FCtx} (h : Clear c) (fl : Flags) : (c.elt.traps fl && decide (c.s.note ≠ 3)) = false := by
  simp [Element.traps, h.2.1]

/-- THE END OF AN ISSUE THAT WAITS FOR NOTHING: the tokens leave at once. -/
theorem finish_sends (c : FCtx) (r : Res) (tag : DWord) (h : Ready c) (ht : c.t < 16) (hk : Keeps c r.f) (hw : r.wait = none)
    (hp : c.op ≠ 0xEA ∨ HasPlace c) (hout : ∀ o ∈ r.outs, plainDst c o.dst = true ∧ o.pool = false)
    (htag : finalTag c.img { c.pend with tag := r.tag.getD c.tagNow, outs := r.outs, b := c.vb 0 } 0 = tag) :
    c.finish r = sent c r.f (r.fl ||| c.extFlags) tag r.outs := by
  obtain ⟨hcl, hg⟩ := h
  obtain ⟨_, _, hop, hco, hnr, _⟩ := id hcl
  have hro : r.outs.any (isRouteOut c.img) = false := by
    rw [List.any_eq_false]
    intro o ho
    simp [plain_notRoute (hout o ho).1]
  have hcom : ((noted c (r.fl ||| c.extFlags) (r.f.el c.el)).commitOf c.ctx c.tag) = none := by
    have : (noted c (r.fl ||| c.extFlags) (r.f.el c.el)).commits = c.elt.commits := hk.2.2
    simp only [Element.commitOf, this]
    exact hco
  have hpl : (c.takesPlace r && decide (32 ≤ (c.elt.pend.filter Pend.hasPlace).length)) = false := by
    rcases hp with hp | hp
    · simp [FCtx.takesPlace, hg, hw, hp]
    · have : ¬ 32 ≤ (c.elt.pend.filter Pend.hasPlace).length := by unfold HasPlace at hp; omega
      simp [this]
  unfold FCtx.finish
  simp only [hop, hpl, hg, hw, hnr, hro, clear_noTrap hcl, opens_unmasked hop, Bool.false_eq_true, if_false, Bool.false_and,
    Option.isSome_none, Bool.or_self]
  have hm : (r.f.modEl c.el fun e => { e.addFlags (r.fl ||| c.extFlags) with
      slots := (e.addFlags (r.fl ||| c.extFlags)).slots.map fun p => if p.2.ctx = c.ctx then (p.1, { p.2 with last := c.f.clock }) else p }).postAll c.anchorMsg
      = withEl r.f c.el (noted c (r.fl ||| c.extFlags) (r.f.el c.el)) (r.f.agenda ++ c.anchorMsg) := rfl
  rw [hm]
  refine (retire_plain c _ tag r.f _ _ rfl rfl rfl rfl rfl hout ?_ hcom ?_ htag).trans ?_
  · rw [noted_imageOf]; exact hk.1
  · by_cases h83 : c.op = 0x83 ∨ c.op = 0xE0
    · right
      intro h4
      have h4 : c.t = 4 := by
        have := congrArg BitVec.toNat h4
        simp [FCtx.pend] at this
        omega
      rcases h83 with h83 | h83 <;>
      · simp only [FCtx.granted, FCtx.act, h83, h4] at hg
        exact absurd hg (by decide)
    · exact .inl (not_or.1 h83)
  · rfl

/-- THE END OF AN ISSUE THAT WAITS: its record joins those of the element. -/
theorem finish_waits (c : FCtx) (r : Res) (p : Pend) (h : Clear c) (hw : r.wait = some p) (hp : HasPlace c)
    (hro : r.outs.any (isRouteOut c.img) = false) (ho : r.outs = [] ∨ p.outs ≠ []) (ht : r.tag = none) :
    c.finish r = waiting c r.f (r.fl ||| c.extFlags) p := by
  obtain ⟨_, _, hop, hco, hnr, _⟩ := id h
  have hpl : ¬(32 ≤ (c.elt.pend.filter Pend.hasPlace).length) := by have := hp; unfold HasPlace at this; omega
  have houts : (if p.outs.isEmpty then r.outs else p.outs) = p.outs := by
    rcases ho with ho | ho
    · split
      · rename_i he; rw [ho]; exact (List.isEmpty_iff.1 he).symm
      · rfl
    · rw [if_neg]; simpa [List.isEmpty_iff] using ho
  unfold FCtx.finish
  simp only [hop, hw, hnr, hro, clear_noTrap h, opens_unmasked hop, ht, hpl, houts, Bool.false_eq_true, if_false, Bool.false_and,
    Option.isSome_some, Bool.or_false, Bool.or_true, Bool.or_self, Bool.and_false, decide_false, if_true, Option.getD_none]
  have hm : (r.f.modEl c.el fun e => { e.addFlags (r.fl ||| c.extFlags) with
      slots := (e.addFlags (r.fl ||| c.extFlags)).slots.map fun p => if p.2.ctx = c.ctx then (p.1, { p.2 with last := c.f.clock }) else p }).postAll c.anchorMsg
      = withEl r.f c.el (noted c (r.fl ||| c.extFlags) (r.f.el c.el)) (r.f.agenda ++ c.anchorMsg) := rfl
  rw [hm, with_modEl]
  rfl

/-- THE END OF AN ISSUE THAT NEEDS A GRANT (R137): its record, with the tokens it will send, waits for the anchor's answer. -/
theorem finish_grant (c : FCtx) (r : Res) (h : Clear c) (hg : c.granted = true) (hw : r.wait = none) (hp : HasPlace c)
    (hro : r.outs.any (isRouteOut c.img) = false) (ht : r.tag = none) :
    c.finish r = waiting c r.f (r.fl ||| c.extFlags) { c.pend with outs := r.outs, b := c.vb 0 } := by
  obtain ⟨_, _, hop, hco, hnr, _⟩ := id h
  have hpl : ¬(32 ≤ (c.elt.pend.filter Pend.hasPlace).length) := by have := hp; unfold HasPlace at this; omega
  unfold FCtx.finish
  simp only [hop, hg, hw, hnr, hro, clear_noTrap h, opens_unmasked hop, ht, hpl, Bool.false_eq_true, if_false, Bool.false_and,
    Option.isSome_none, Bool.or_false, Bool.or_self, Bool.and_false, decide_false, if_true, Option.getD_none]
  have hm : (r.f.modEl c.el fun e => { e.addFlags (r.fl ||| c.extFlags) with
      slots := (e.addFlags (r.fl ||| c.extFlags)).slots.map fun p => if p.2.ctx = c.ctx then (p.1, { p.2 with last := c.f.clock }) else p }).postAll c.anchorMsg
      = withEl r.f c.el (noted c (r.fl ||| c.extFlags) (r.f.el c.el)) (r.f.agenda ++ c.anchorMsg) := rfl
  rw [hm, with_modEl]
  simp only [waiting, hg]

/-- A firing whose checks pass and whose form computes ends its issue. -/
theorem fire_ok (op : Nat) (a b d e : BitVec 5) (t : BitVec 4) (body : FCtx → Except Stop Res) (s : State) (r : Res)
    (hs : (firing s op a b d e t).stops = none) (hb : body (firing s op a b d e t) = .ok r) :
    fire op a b d e t body s = .next { s with fab := (firing s op a b d e t).finish r } := by
  simp only [fire, fireIn, hs, hb, ite_self]

/-- A firing whose form stops takes the stop's effect. -/
theorem fire_error (op : Nat) (a b d e : BitVec 5) (t : BitVec 4) (body : FCtx → Except Stop Res) (s : State) (st : Stop)
    (hs : (firing s op a b d e t).stops = none) (hb : body (firing s op a b d e t) = .error st) :
    fire op a b d e t body s = .next { s with fab := applyStop s.fab s.fab.cur s.fab.fire st } := by
  simp only [fire, fireIn, hs, hb, ite_self]

/-- A firing that a check stops takes the stop's effect, and no operand is fetched. -/
theorem fire_stop (op : Nat) (a b d e : BitVec 5) (t : BitVec 4) (body : FCtx → Except Stop Res) (s : State) (st : Stop)
    (hs : (firing s op a b d e t).stops = some st) (hn : s.fab.fire.note ≠ 10) :
    fire op a b d e t body s = .next { s with fab := applyStop s.fab s.fab.cur s.fab.fire st } := by
  simp only [fire, fireIn, hs, hn, if_false]

/-! ## Lane operations -/

/-- The result tag of a form that is no tag form and no loop header (R137). -/
theorem finalTag_result (c : FCtx) (outs : List Out) (hop : c.op < 0x70 ∨ 0x7A < c.op) (hg : c.granted = false) (ht : c.t < 16) :
    finalTag c.img { c.pend with tag := c.tagNow, outs := outs, b := c.vb 0 } 0 = resultTag c outs := by
  have hact : c.act = c.t := by
    unfold FCtx.act
    split <;> first | rfl | omega
  have h24 : c.t ≠ 2 ∧ c.t ≠ 4 := by
    simpa [FCtx.granted, hact] using hg
  have htn : (BitVec.ofNat 4 c.t).toNat = c.t := by simp; omega
  have e1 : c.op ≠ 0x70 := by omega
  have e2 : c.op ≠ 0x72 := by omega
  have e3 : ¬(0x78 ≤ c.op ∧ c.op ≤ 0x7A) := by omega
  have e4 : ¬(0x71 ≤ c.op ∧ c.op ≤ 0x76) := by omega
  unfold finalTag resultTag
  simp only [FCtx.pend, e1, e2, e3, e4, if_false, htn]
  by_cases h6 : c.t = 6
  · simp only [h6, if_true, renameVal, FCtx.tag]
    congr 1
    cases hf : List.find? (fun o => decide (o.dst = c.d) && o.scale.isNone) outs with
    | some o => simp only [Option.map_some, Option.getD_some]
    | none => rfl
  · simp only [h6, if_false]
    split
    · omega
    · omega
    · omega
    · rfl

/-- Lanes computed: one result for each, in order. -/
theorem runLanes_spec (g : Nat → Word → Rounded) (valid : BitVec 32) (off : Nat → DWord) (ks : List Nat) (sr : Word) :
    ∃ (r : List (DWord × Flags)) (srs : List Word), r.length = ks.length ∧ srs.length = ks.length + 1 ∧ srs[0]? = some sr
      ∧ (∀ (j : Nat) (h : j < r.length),
          if bit valid (ks.getD j 0) then
            r[j] = ((g (ks.getD j 0) (srs.getD j 0)).bits, (g (ks.getD j 0) (srs.getD j 0)).fl) ∧ srs.getD (j + 1) 0 = (g (ks.getD j 0) (srs.getD j 0)).sr
          else r[j] = (off (ks.getD j 0), 0) ∧ srs.getD (j + 1) 0 = srs.getD j 0)
      ∧ (runLanes g valid off ks sr).vals = r.map (·.1) ∧ (runLanes g valid off ks sr).fl = orFlags (r.map (·.2))
      ∧ (runLanes g valid off ks sr).sr = srs.getD ks.length 0 := by
  induction ks generalizing sr with
  | nil => exact ⟨[], [sr], rfl, rfl, rfl, fun j h => absurd h (by simp), rfl, rfl, rfl⟩
  | cons k rest ih =>
    by_cases hk : bit valid k
    · obtain ⟨r, srs, h1, h2, h3, h4, h5, h6, h7⟩ := ih (g k sr).sr
      refine ⟨((g k sr).bits, (g k sr).fl) :: r, sr :: srs, by simp [h1], by simp [h2], rfl, ?_, ?_, ?_, ?_⟩
      · intro j hj
        cases j with
        | zero =>
          have : srs.getD 0 0 = (g k sr).sr := by rw [List.getD_eq_getElem?_getD, h3]; rfl
          simp [hk]
          simpa [List.getD_eq_getElem?_getD] using this
        | succ j =>
          have := h4 j (by simpa using hj)
          simpa using this
      · simp [runLanes, hk, h5]
      · simp [runLanes, hk, h6, orFlags]
      · simp [runLanes, hk, h7]
    · obtain ⟨r, srs, h1, h2, h3, h4, h5, h6, h7⟩ := ih sr
      refine ⟨(off k, 0) :: r, sr :: srs, by simp [h1], by simp [h2], rfl, ?_, ?_, ?_, ?_⟩
      · intro j hj
        cases j with
        | zero =>
          have : srs.getD 0 0 = sr := by rw [List.getD_eq_getElem?_getD, h3]; rfl
          simp [hk]
          simpa [List.getD_eq_getElem?_getD] using this
        | succ j =>
          have := h4 j (by simpa using hj)
          simpa using this
      · simp [runLanes, hk, h5]
      · simp [runLanes, hk, h6, orFlags]
      · simp [runLanes, hk, h7]

/-- Both destinations of a firing's own run are plain where its fields are. -/
theorem both_plain {c : FCtx} (h : Clear c) (v : BitVec 32) (vals : List DWord) :
    ∀ o ∈ c.both v vals, plainDst c o.dst = true ∧ o.pool = false := by
  intro o ho
  simp only [FCtx.both, List.mem_cons, List.not_mem_nil, or_false] at ho
  rcases ho with rfl | rfl
  · exact ⟨h.2.2.2.2.2.1, rfl⟩
  · exact ⟨h.2.2.2.2.2.2, rfl⟩

/-- A FORM THAT ONLY SENDS, its own writes in `r.f`. -/
theorem sends_of {i : Instr} {s : State} {op : Nat} {a b d e : BitVec 5} {t : BitVec 4} {body : FCtx → Except Stop Res} (r : Res)
    (hx : exec i s = fire op a b d e t body s) (h : Ready (firing s op a b d e t)) (hop : op < 0x70 ∨ 0x7A < op)
    (hp : op ≠ 0xEA ∨ HasPlace (firing s op a b d e t))
    (hb : body (firing s op a b d e t) = .ok r) (hw : r.wait = none) (ht : r.tag = none) (hk : Keeps (firing s op a b d e t) r.f)
    (hout : ∀ o ∈ r.outs, plainDst (firing s op a b d e t) o.dst = true ∧ o.pool = false) :
    Sends i s (firing s op a b d e t) r.f r.fl r.outs := by
  unfold Sends
  rw [hx, fire_ok op a b d e t body s r h.1.1 hb, finish_sends (firing s op a b d e t) r (resultTag _ r.outs) h t.isLt hk hw hp hout]
  rw [ht]
  exact finalTag_result _ r.outs hop h.2 t.isLt

/-- The fabric of the firing keeps what it must. -/
theorem keeps_self (s : State) (op : Nat) (a b d e : BitVec 5) (t : BitVec 4) : Keeps (firing s op a b d e t) s.fab := ⟨rfl, rfl, rfl⟩

/-- A change of the issuing element that keeps its slots and its commit table. -/
theorem keeps_modEl (s : State) (op : Nat) (a b d e : BitVec 5) (t : BitVec 4) (g : Element → Element)
    (h1 : (g (s.fab.el s.fab.cur)).slots = (s.fab.el s.fab.cur).slots) (h2 : (g (s.fab.el s.fab.cur)).commits = (s.fab.el s.fab.cur).commits) :
    Keeps (firing s op a b d e t) (s.fab.modEl (firing s op a b d e t).el g) := by
  refine ⟨?_, rfl, ?_⟩
  · show ((s.fab.modEl s.fab.cur g).el s.fab.cur).imageOf _ = _
    rw [Fabric.el_modEl, Element.imageOf, Element.residentOf, h1]; rfl
  · show ((s.fab.modEl s.fab.cur g).el s.fab.cur).commits = _
    rw [Fabric.el_modEl, h2]; rfl

/-- What a firing keeps on its element depends on the other elements alone. -/
theorem keep_congr (c : FCtx) (f g : Fabric) (tag : DWord) (h : ∀ k, k ≠ c.el → f.el k = g.el k) (hc : f.clock = g.clock) :
    keep { c with f := f } tag = keep { c with f := g } tag := by
  funext e o
  have hh : heldOut { c with f := f } tag e o = heldOut { c with f := g } tag e o := by
    simp only [heldOut]
    by_cases ht : entryTarget c.el (c.img.dest o.dst) = c.el
    · simp only [ht, if_true, ne_eq, not_true_eq_false, false_and, and_false, if_false]; rfl
    · simp only [ht, if_false, h _ ht]; rfl
  simp only [keep, hh, hc]
  rfl

/-- Writing back what an element holds changes nothing about what the firing leaves. -/
theorem sent_writeBack (c : FCtx) (f : Fabric) (fl : Flags) (tag : DWord) (outs : List Out) (g : Element → Element) (h : g (f.el c.el) = f.el c.el) :
    sent c (f.modEl c.el g) fl tag outs = sent c f fl tag outs := by
  have he : (f.modEl c.el g).el c.el = f.el c.el := by rw [Fabric.el_modEl, h]
  have hk := keep_congr c (f.modEl c.el g) f tag (fun k hk => Fabric.el_modEl_ne f g hk) rfl
  simp only [sent, doneEl, he, hk]
  simp only [Fabric.modEl, Fabric.setEl, tset_tset]

/-- A LANE OPERATION that leaves the stochastic-rounding state as `g` says. -/
theorem lanewiseSR_of {i : Instr} {s : State} {op : Nat} {a b d e : BitVec 5} {t : BitVec 4} {body : FCtx → Except Stop Res}
    (g : Nat → Word → Rounded) (L : Nat → Word → DWord → Flags → Word → Prop)
    (hx : exec i s = fire op a b d e t body s) (h : Ready (firing s op a b d e t)) (hop : op < 0x70 ∨ 0x7A < op ∧ op < 0xEA)
    (hb : body (firing s op a b d e t) = (firing s op a b d e t).lanewise g)
    (hL : ∀ k sr, L k sr (g k sr).bits (g k sr).fl (g k sr).sr) :
    LanewiseSR i s (firing s op a b d e t) L := by
  obtain ⟨r, srs, h1, h2, h3, h4, h5, h6, h7⟩ := runLanes_spec g (firing s op a b d e t).valid (firing s op a b d e t).offLane
    (firing s op a b d e t).lanes (firing s op a b d e t).elt.srstate
  have hlen : (firing s op a b d e t).lanes.length = (firing s op a b d e t).len := by simp [FCtx.lanes]
  have hget : ∀ j, j < r.length → (firing s op a b d e t).lanes.getD j 0 = j := by
    intro j hj
    have : j < (firing s op a b d e t).len := by rw [h1, hlen] at hj; exact hj
    simp [FCtx.lanes, List.getD_eq_getElem?_getD, this]
  refine ⟨r, srs, by rw [h1, hlen], by rw [h2, hlen], h3, ?_, ?_⟩
  · intro k hk
    have := h4 k hk
    rw [hget k hk] at this
    by_cases hv : (firing s op a b d e t).on k
    · rw [if_pos hv]
      rw [if_pos (by exact hv)] at this
      rw [this.1, this.2]
      exact hL _ _
    · rw [if_neg hv]
      rw [if_neg (by exact hv)] at this
      exact ⟨this.1, this.2⟩
  · have hs := sends_of (i := i) (s := s) (op := op) (a := a) (b := b) (d := d) (e := e) (t := t) (body := body)
      ⟨s.fab.modEl (firing s op a b d e t).el fun x => { x with srstate := srs.getD (firing s op a b d e t).len 0 }, orFlags (r.map (·.2)),
        (firing s op a b d e t).both (firing s op a b d e t).valid (r.map (·.1)), none, none⟩ hx h (hop.imp id (·.1)) (.inl (by omega))
      (by rw [hb]; simp only [FCtx.lanewise, FCtx.compute, h5, h6, h7, hlen]; rfl) rfl rfl
      (keeps_modEl s op a b d e t _ rfl rfl) (both_plain h.1 _ _)
    exact hs

/-- A LANE OPERATION without stochastic rounding. -/
theorem lanewise_of {i : Instr} {s : State} {op : Nat} {a b d e : BitVec 5} {t : BitVec 4} {body : FCtx → Except Stop Res}
    (g : Nat → Word → Rounded) (L : Nat → DWord → Flags → Prop)
    (hx : exec i s = fire op a b d e t body s) (h : Ready (firing s op a b d e t)) (hop : op < 0x70 ∨ 0x7A < op ∧ op < 0xEA)
    (hb : body (firing s op a b d e t) = (firing s op a b d e t).lanewise g)
    (hL : ∀ k sr, L k (g k sr).bits (g k sr).fl ∧ (g k sr).sr = sr) :
    Lanewise i s (firing s op a b d e t) L := by
  obtain ⟨r, srs, h1, h2, h3, h4, h5⟩ := lanewiseSR_of g (fun k sr v fl sr' => L k v fl ∧ sr' = sr) hx h hop hb hL
  have hsr : ∀ n, n ≤ (firing s op a b d e t).len → srs.getD n 0 = (firing s op a b d e t).elt.srstate := by
    intro n
    induction n with
    | zero => intro _; rw [List.getD_eq_getElem?_getD, h3]; rfl
    | succ n ih =>
      intro hn
      have hlt : n < r.length := by omega
      have := h4 n hlt
      rw [← ih (by omega)]
      split at this
      · exact this.2
      · exact this.2
  refine ⟨r, ⟨h1, ?_⟩, ?_⟩
  · intro k hk
    have := h4 k hk
    split at this
    · rw [if_pos (by assumption)]; exact this.1
    · rw [if_neg (by assumption)]; exact this.1
  · have := h5
    rw [hsr _ (le_refl _)] at this
    unfold Sends at this ⊢
    rw [this]
    congr 2
    exact sent_writeBack _ _ _ _ _ _ rfl

end Sys2Proof.Machine
end

