-- ==== Sys2Proof/Laws/Numbers.lean ====
section
/-! SUPPORT. Numbers of the integer formats: low bits kept, ranges, and the width of every operand. -/

namespace Sys2Proof.Machine

theorem fmt_width_le (f : Fmt) : f.width ≤ 64 := by cases f <;> decide
theorem fmt_width_pos (f : Fmt) : 0 < f.width := by cases f <;> decide

theorem toNat_w64 {n : Nat} (h : n < 2 ^ 64) : (w64 n).toNat = n := by rw [w64, BitVec.toNat_ofNat, Nat.mod_eq_of_lt h]

theorem pow_le_64 (f : Fmt) : 2 ^ f.width ≤ 2 ^ 64 := Nat.pow_le_pow_right (by decide) (fmt_width_le f)

theorem toNat_trunc (f : Fmt) (x : DWord) : (trunc f.width x).toNat = x.toNat % 2 ^ f.width := by
  unfold trunc
  exact toNat_w64 (lt_of_lt_of_le (Nat.mod_lt _ (by positivity)) (pow_le_64 f))

theorem toNat_keepBits (f : Fmt) (v : Int) : ((keepBits f.width v).toNat : Int) = v % 2 ^ f.width := by
  have hp : (0 : Int) < 2 ^ f.width := by positivity
  have h0 : 0 ≤ v % 2 ^ f.width := Int.emod_nonneg _ (ne_of_gt hp)
  have h1 : v % 2 ^ f.width < 2 ^ f.width := Int.emod_lt_of_pos _ hp
  unfold keepBits
  rw [toNat_w64]
  · exact Int.toNat_of_nonneg h0
  · have : ((v % 2 ^ f.width).toNat : Int) < (2 ^ f.width : Nat) := by rw [Int.toNat_of_nonneg h0]; exact_mod_cast h1
    exact lt_of_lt_of_le (by exact_mod_cast this) (pow_le_64 f)

theorem keepBits_lt (f : Fmt) (v : Int) : (keepBits f.width v).toNat < 2 ^ f.width := by
  have h := toNat_keepBits f v
  have h1 : v % 2 ^ f.width < 2 ^ f.width := Int.emod_lt_of_pos _ (by positivity)
  have : ((keepBits f.width v).toNat : Int) < (2 ^ f.width : Nat) := by rw [h]; exact_mod_cast h1
  exact_mod_cast this

theorem two_pow_split (f : Fmt) : (2 : Int) ^ f.width = 2 * 2 ^ (f.width - 1) := by
  have := fmt_width_pos f
  obtain ⟨n, hn⟩ : ∃ n, f.width = n + 1 := ⟨f.width - 1, by omega⟩
  rw [hn]; simp [pow_succ]; ring

/-- Every number read lies in its format's range. -/
theorem readInt_range (f : Fmt) (x : DWord) : intMin f ≤ readInt f x ∧ readInt f x ≤ intMax f := by
  have hp := two_pow_split f
  have hm : x.toNat % 2 ^ f.width < 2 ^ f.width := Nat.mod_lt _ (by positivity)
  have hm' : ((x.toNat % 2 ^ f.width : Nat) : Int) < 2 ^ f.width := by exact_mod_cast hm
  have hq : (0 : Int) < 2 ^ (f.width - 1) := by positivity
  unfold intMin readInt intMax sint
  by_cases hs : f.signed
  · simp only [hs, if_true]
    split
    · rename_i h
      have h' : ((x.toNat % 2 ^ f.width : Nat) : Int) < 2 ^ (f.width - 1) := by exact_mod_cast h
      constructor <;> omega
    · rename_i h
      have h' : (2 : Int) ^ (f.width - 1) ≤ ((x.toNat % 2 ^ f.width : Nat) : Int) := by exact_mod_cast Nat.le_of_not_lt h
      constructor <;> omega
  · simp only [hs]
    constructor
    · simp only [Bool.false_eq_true, if_false]; exact Int.natCast_nonneg _
    · simp only [Bool.false_eq_true, if_false]; omega

/-- The low bits of a number in range read as the number. -/
theorem readInt_keepBits (f : Fmt) (v : Int) (h : intMin f ≤ v ∧ v ≤ intMax f) : readInt f (keepBits f.width v) = v := by
  have hp := two_pow_split f
  have hq : (0 : Int) < 2 ^ (f.width - 1) := by positivity
  have hk := toNat_keepBits f v
  have hlt := keepBits_lt f v
  unfold intMin intMax at h
  unfold readInt sint
  rw [Nat.mod_eq_of_lt hlt]
  by_cases hs : f.signed
  · simp only [hs, if_true] at h ⊢
    by_cases hv : 0 ≤ v
    · have hm : v % 2 ^ f.width = v := Int.emod_eq_of_lt hv (by omega)
      rw [hm] at hk
      have : (keepBits f.width v).toNat < 2 ^ (f.width - 1) := by
        have : ((keepBits f.width v).toNat : Int) < (2 ^ (f.width - 1) : Nat) := by rw [hk]; push_cast; omega
        exact_mod_cast this
      rw [if_pos this, hk]
    · have hm : v % 2 ^ f.width = v + 2 ^ f.width := by
        rw [← Int.add_emod_right]
        exact Int.emod_eq_of_lt (by omega) (by omega)
      rw [hm] at hk
      have : ¬(keepBits f.width v).toNat < 2 ^ (f.width - 1) := by
        intro hc
        have : ((keepBits f.width v).toNat : Int) < (2 ^ (f.width - 1) : Nat) := by exact_mod_cast hc
        rw [hk] at this; push_cast at this; omega
      rw [if_neg this, hk]; omega
  · simp only [hs] at h ⊢
    simp only [Bool.false_eq_true, if_false] at h ⊢
    rw [hk, Int.emod_eq_of_lt (by omega) (by omega)]

/-- A clamped number is in range. -/
theorem clampInt_range (f : Fmt) (v : Int) : intMin f ≤ clampInt f v ∧ clampInt f v ≤ intMax f := by
  have h : intMin f ≤ intMax f := le_trans (readInt_range f 0).1 (readInt_range f 0).2
  unfold clampInt
  constructor <;> omega

/-- The float parameters of every format keep their codes inside its width. -/
theorem fparams_fits (f : Fmt) (m : Byte) :
    (fparams f m).w ≤ f.width ∧ 0 < (fparams f m).w ∧ (fparams f m).nan < 2 ^ (fparams f m).w ∧ (fparams f m).inf < 2 ^ ((fparams f m).w - 1) * (if (fparams f m).signed then 1 else 2)
      ∧ (fparams f m).maxFin < 2 ^ ((fparams f m).w - 1) * (if (fparams f m).signed then 1 else 2) := by
  have hb : (b8Params m).w = 8 ∧ (b8Params m).nan < 256 ∧ (b8Params m).inf < 128 * (if (b8Params m).signed then 1 else 2)
      ∧ (b8Params m).maxFin < 128 * (if (b8Params m).signed then 1 else 2) := by
    unfold b8Params
    split <;> simp <;> split <;> simp
  obtain ⟨h1, h2, h3, h4⟩ := hb
  have hd : ∀ g : Fmt, 8 ≤ g.width → (b8Params m).w ≤ g.width ∧ 0 < (b8Params m).w ∧ (b8Params m).nan < 2 ^ (b8Params m).w ∧ (b8Params m).inf < 2 ^ ((b8Params m).w - 1) * (if (b8Params m).signed then 1 else 2)
      ∧ (b8Params m).maxFin < 2 ^ ((b8Params m).w - 1) * (if (b8Params m).signed then 1 else 2) := by
    intro g hg
    rw [h1]
    exact ⟨hg, by decide, h2, h3, h4⟩
  cases f <;> first
    | exact hd _ (by decide)
    | exact ⟨by simp [fparams, Fmt.width], by simp [fparams], by simp [fparams], by simp [fparams], by simp [fparams]⟩

theorem withSign_lt (p : FP) (neg : Bool) (c : Nat) (hw : 0 < p.w) (hw' : p.w ≤ 64) (hc : c < 2 ^ (p.w - 1) * (if p.signed then 1 else 2)) :
    (p.withSign neg c).toNat < 2 ^ p.w := by
  have h2 : 2 ^ p.w = 2 * 2 ^ (p.w - 1) := by
    obtain ⟨n, hn⟩ : ∃ n, p.w = n + 1 := ⟨p.w - 1, by omega⟩
    rw [hn]; simp [pow_succ]; ring
  have h64 : 2 ^ p.w ≤ 2 ^ 64 := Nat.pow_le_pow_right (by decide) hw'
  unfold FP.withSign
  split
  · simp
  · by_cases hs : p.signed
    · simp only [hs, if_true, Nat.mul_one] at hc
      split
      · rw [toNat_w64 (by omega)]; omega
      · rw [toNat_w64 (by omega)]; omega
    · simp only [hs] at hc
      simp only [hs, Bool.and_false, Bool.false_eq_true, if_false] at hc ⊢
      rw [toNat_w64 (by omega)]; omega

/-- A rounded float fits its format. -/
theorem roundFV_lt (f : Fmt) (m : Byte) (r : Round) (sat : Bool) (sr : Word) (v : FV) :
    (roundFV (fparams f m) r sat sr v).bits.toNat < 2 ^ f.width := by
  obtain ⟨h1, h2, h3, h4, h5⟩ := fparams_fits f m
  generalize fparams f m = p at *
  have hw : p.w ≤ 64 := le_trans h1 (fmt_width_le f)
  have hmono : 2 ^ p.w ≤ 2 ^ f.width := Nat.pow_le_pow_right (by decide) h1
  have hz : (0 : Nat) < 2 ^ (p.w - 1) * (if p.signed then 1 else 2) := by split <;> positivity
  have hS : ∀ neg c, c < 2 ^ (p.w - 1) * (if p.signed then 1 else 2) → (p.withSign neg c).toNat < 2 ^ f.width :=
    fun neg c hc => lt_of_lt_of_le (withSign_lt p neg c h2 hw hc) hmono
  have hN : (w64 p.nan).toNat < 2 ^ f.width := by
    rw [toNat_w64 (lt_of_lt_of_le h3 (Nat.pow_le_pow_right (by decide) hw))]; exact lt_of_lt_of_le h3 hmono
  have h0 : (0 : DWord).toNat < 2 ^ f.width := by simp
  have hO : ∀ s n, (overflowFV p r s n).1.toNat < 2 ^ f.width := by
    intro s n
    unfold overflowFV
    dsimp only
    repeat' split
    all_goals first
      | exact hS _ _ h5
      | exact hS _ _ h4
      | exact hN
  unfold roundFV
  cases v with
  | nan s => exact hN
  | zero s => exact hS _ _ hz
  | inf s =>
    dsimp only
    repeat' split
    all_goals first
      | exact h0
      | exact hS _ _ h5
      | exact hS _ _ h4
      | exact hN
  | fin q =>
    dsimp only
    unfold roundFin
    dsimp only
    repeat' split
    all_goals first
      | exact h0
      | exact hN
      | exact hO _ _
      | (rename_i hx; exact hS _ _ (lt_of_le_of_lt (Nat.le_of_not_lt hx) h5))

theorem invalidInt_lt (f : Fmt) : (invalidInt f).toNat < 2 ^ f.width := by cases f <;> decide

theorem toIntFmt_lt (f : Fmt) (r : Round) (sat : Bool) (sr : Word) (k : Nat) (v : FV) : (toIntFmt f r sat sr k v).bits.toNat < 2 ^ f.width := by
  have h0 : (0 : DWord).toNat < 2 ^ f.width := by simp
  unfold toIntFmt
  cases v <;> dsimp only <;> repeat' split
  all_goals first
    | exact h0
    | exact invalidInt_lt f
    | exact keepBits_lt f _

/-- A source brought into a format fits it. -/
theorem extendLit_lt (f : Fmt) (b8 : Byte) (ty : Nat) (raw : DWord) (sat cs : Bool) : (extendLit f b8 ty raw sat cs).1.toNat < 2 ^ f.width := by
  unfold extendLit
  dsimp only
  have hx : ∀ v : Int, f = .fx64 → (keepBits 64 v).toNat < 2 ^ f.width := by
    intro v h; subst h; exact keepBits_lt .fx64 v
  repeat' split
  all_goals first
    | exact hx _ (by assumption)
    | exact keepBits_lt f _
    | exact roundFV_lt f b8 _ _ _ _
    | exact toIntFmt_lt f _ _ _ _ _
    | (rw [toNat_trunc]; exact Nat.mod_lt _ (by positivity))

/-- Every value source fits the slot's input format (R41, R93). -/
theorem src_lt (c : FCtx) (sel k : Nat) : (c.src sel k).1.toNat < 2 ^ c.ifmt.width := by
  unfold FCtx.src
  dsimp only
  repeat' split
  all_goals first
    | exact extendLit_lt _ _ _ _ _ _
    | (rw [toNat_trunc]; exact Nat.mod_lt _ (by positivity))
    | simp

end Sys2Proof.Machine
end

