-- ==== Sys2Proof/Laws/PerInstr.lean ====
section
/-! SUPPORT. One lemma an instruction: a word that encodes it carries an opcode that the map of R60 assigns. -/

namespace Sys2Proof.Laws.Encoding

open Sys2Proof

/-- The opcode of an encoded instruction is assigned (R60). -/
def Statement (i : Instr) : Prop := ∀ w, encode i = some w → assigned (fieldOp w).toNat = true

theorem op_mkWord (op : Byte) (a b d e : BitVec 5) (t : BitVec 4) : fieldOp (mkWord op a b d e t) = op := by
  unfold fieldOp mkWord
  apply BitVec.eq_of_getLsbD_eq
  intro i hi
  simp only [BitVec.getLsbD_extractLsb', BitVec.getLsbD_append, hi, decide_true, Bool.true_and]
  repeat rw [if_neg (by omega)]
  congr 1
  omega

theorem of_word {i : Instr} {op : Byte} {a b d e : BitVec 5} {t : BitVec 4} (hi : encode i = some (mkWord op a b d e t))
    (h : assigned op.toNat = true) : Statement i := by
  intro w hw
  rw [hi, Option.some.injEq] at hw
  rw [← hw, op_mkWord]
  exact h

theorem of_none {i : Instr} (hi : encode i = none) : Statement i := by
  intro w hw
  rw [hi] at hw
  exact absurd hw (by simp)

theorem add (a : BitVec 5) (b : BitVec 5) (d : BitVec 5) (e : BitVec 5) (t : BitVec 4) : Statement (.add a b d e t) := of_word rfl (by decide)
theorem sub (a : BitVec 5) (b : BitVec 5) (d : BitVec 5) (e : BitVec 5) (t : BitVec 4) : Statement (.sub a b d e t) := of_word rfl (by decide)
theorem mul (a : BitVec 5) (b : BitVec 5) (d : BitVec 5) (e : BitVec 5) (t : BitVec 4) : Statement (.mul a b d e t) := of_word rfl (by decide)
theorem mulh (a : BitVec 5) (b : BitVec 5) (d : BitVec 5) (e : BitVec 5) (t : BitVec 4) : Statement (.mulh a b d e t) := of_word rfl (by decide)
theorem mad (a : BitVec 5) (b : BitVec 5) (d : BitVec 5) (e : BitVec 5) (t : BitVec 4) : Statement (.mad a b d e t) := of_word rfl (by decide)
theorem div (a : BitVec 5) (b : BitVec 5) (d : BitVec 5) (e : BitVec 5) (t : BitVec 4) : Statement (.div a b d e t) := of_word rfl (by decide)
theorem rem (a : BitVec 5) (b : BitVec 5) (d : BitVec 5) (e : BitVec 5) (t : BitVec 4) : Statement (.rem a b d e t) := of_word rfl (by decide)
theorem neg (a : BitVec 5) (b : BitVec 5) (d : BitVec 5) (e : BitVec 5) (t : BitVec 4) : Statement (.neg a b d e t) := of_word rfl (by decide)
theorem abs (a : BitVec 5) (b : BitVec 5) (d : BitVec 5) (e : BitVec 5) (t : BitVec 4) : Statement (.abs a b d e t) := of_word rfl (by decide)
theorem min (a : BitVec 5) (b : BitVec 5) (d : BitVec 5) (e : BitVec 5) (t : BitVec 4) : Statement (.min a b d e t) := of_word rfl (by decide)
theorem max (a : BitVec 5) (b : BitVec 5) (d : BitVec 5) (e : BitVec 5) (t : BitVec 4) : Statement (.max a b d e t) := of_word rfl (by decide)
theorem and (a : BitVec 5) (b : BitVec 5) (d : BitVec 5) (e : BitVec 5) (t : BitVec 4) : Statement (.and a b d e t) := of_word rfl (by decide)
theorem or (a : BitVec 5) (b : BitVec 5) (d : BitVec 5) (e : BitVec 5) (t : BitVec 4) : Statement (.or a b d e t) := of_word rfl (by decide)
theorem xor (a : BitVec 5) (b : BitVec 5) (d : BitVec 5) (e : BitVec 5) (t : BitVec 4) : Statement (.xor a b d e t) := of_word rfl (by decide)
theorem not (a : BitVec 5) (b : BitVec 5) (d : BitVec 5) (e : BitVec 5) (t : BitVec 4) : Statement (.not a b d e t) := of_word rfl (by decide)
theorem shl (a : BitVec 5) (b : BitVec 5) (d : BitVec 5) (e : BitVec 5) (t : BitVec 4) : Statement (.shl a b d e t) := of_word rfl (by decide)
theorem shr (a : BitVec 5) (b : BitVec 5) (d : BitVec 5) (e : BitVec 5) (t : BitVec 4) : Statement (.shr a b d e t) := of_word rfl (by decide)
theorem sar (a : BitVec 5) (b : BitVec 5) (d : BitVec 5) (e : BitVec 5) (t : BitVec 4) : Statement (.sar a b d e t) := of_word rfl (by decide)
theorem rot (a : BitVec 5) (b : BitVec 5) (d : BitVec 5) (e : BitVec 5) (t : BitVec 4) : Statement (.rot a b d e t) := of_word rfl (by decide)
theorem clz (a : BitVec 5) (b : BitVec 5) (d : BitVec 5) (e : BitVec 5) (t : BitVec 4) : Statement (.clz a b d e t) := of_word rfl (by decide)
theorem popc (a : BitVec 5) (b : BitVec 5) (d : BitVec 5) (e : BitVec 5) (t : BitVec 4) : Statement (.popc a b d e t) := of_word rfl (by decide)
theorem brev (a : BitVec 5) (b : BitVec 5) (d : BitVec 5) (e : BitVec 5) (t : BitVec 4) : Statement (.brev a b d e t) := of_word rfl (by decide)
theorem bfx (a : BitVec 5) (b : BitVec 5) (d : BitVec 5) (e : BitVec 5) (t : BitVec 4) : Statement (.bfx a b d e t) := of_word rfl (by decide)
theorem bfi (a : BitVec 5) (b : BitVec 5) (d : BitVec 5) (e : BitVec 5) (t : BitVec 4) : Statement (.bfi a b d e t) := of_word rfl (by decide)
theorem cmp (a : BitVec 5) (b : BitVec 5) (d : BitVec 5) (e : BitVec 5) (t : BitVec 4) : Statement (.cmp a b d e t) := of_word rfl (by decide)
theorem sel (a : BitVec 5) (b : BitVec 5) (d : BitVec 5) (e : BitVec 5) (t : BitVec 4) : Statement (.sel a b d e t) := of_word rfl (by decide)
theorem addSat (a : BitVec 5) (b : BitVec 5) (d : BitVec 5) (e : BitVec 5) (t : BitVec 4) : Statement (.addSat a b d e t) := of_word rfl (by decide)
theorem subSat (a : BitVec 5) (b : BitVec 5) (d : BitVec 5) (e : BitVec 5) (t : BitVec 4) : Statement (.subSat a b d e t) := of_word rfl (by decide)
theorem mulSat (a : BitVec 5) (b : BitVec 5) (d : BitVec 5) (e : BitVec 5) (t : BitVec 4) : Statement (.mulSat a b d e t) := of_word rfl (by decide)
theorem madSat (a : BitVec 5) (b : BitVec 5) (d : BitVec 5) (e : BitVec 5) (t : BitVec 4) : Statement (.madSat a b d e t) := of_word rfl (by decide)
theorem negSat (a : BitVec 5) (b : BitVec 5) (d : BitVec 5) (e : BitVec 5) (t : BitVec 4) : Statement (.negSat a b d e t) := of_word rfl (by decide)
theorem absSat (a : BitVec 5) (b : BitVec 5) (d : BitVec 5) (e : BitVec 5) (t : BitVec 4) : Statement (.absSat a b d e t) := of_word rfl (by decide)
theorem shlSat (a : BitVec 5) (b : BitVec 5) (d : BitVec 5) (e : BitVec 5) (t : BitVec 4) : Statement (.shlSat a b d e t) := of_word rfl (by decide)
theorem fadd (a : BitVec 5) (b : BitVec 5) (d : BitVec 5) (e : BitVec 5) (t : BitVec 4) : Statement (.fadd a b d e t) := of_word rfl (by decide)
theorem fsub (a : BitVec 5) (b : BitVec 5) (d : BitVec 5) (e : BitVec 5) (t : BitVec 4) : Statement (.fsub a b d e t) := of_word rfl (by decide)
theorem fmul (a : BitVec 5) (b : BitVec 5) (d : BitVec 5) (e : BitVec 5) (t : BitVec 4) : Statement (.fmul a b d e t) := of_word rfl (by decide)
theorem ffma (a : BitVec 5) (b : BitVec 5) (d : BitVec 5) (e : BitVec 5) (t : BitVec 4) : Statement (.ffma a b d e t) := of_word rfl (by decide)
theorem fmin (a : BitVec 5) (b : BitVec 5) (d : BitVec 5) (e : BitVec 5) (t : BitVec 4) : Statement (.fmin a b d e t) := of_word rfl (by decide)
theorem fmax (a : BitVec 5) (b : BitVec 5) (d : BitVec 5) (e : BitVec 5) (t : BitVec 4) : Statement (.fmax a b d e t) := of_word rfl (by decide)
theorem fabs (a : BitVec 5) (b : BitVec 5) (d : BitVec 5) (e : BitVec 5) (t : BitVec 4) : Statement (.fabs a b d e t) := of_word rfl (by decide)
theorem fneg (a : BitVec 5) (b : BitVec 5) (d : BitVec 5) (e : BitVec 5) (t : BitVec 4) : Statement (.fneg a b d e t) := of_word rfl (by decide)
theorem fcmp (a : BitVec 5) (b : BitVec 5) (d : BitVec 5) (e : BitVec 5) (t : BitVec 4) : Statement (.fcmp a b d e t) := of_word rfl (by decide)
theorem fdiv (a : BitVec 5) (b : BitVec 5) (d : BitVec 5) (e : BitVec 5) (t : BitVec 4) : Statement (.fdiv a b d e t) := of_word rfl (by decide)
theorem fsqrt (a : BitVec 5) (b : BitVec 5) (d : BitVec 5) (e : BitVec 5) (t : BitVec 4) : Statement (.fsqrt a b d e t) := of_word rfl (by decide)
theorem frcp (a : BitVec 5) (b : BitVec 5) (d : BitVec 5) (e : BitVec 5) (t : BitVec 4) : Statement (.frcp a b d e t) := of_word rfl (by decide)
theorem frsq (a : BitVec 5) (b : BitVec 5) (d : BitVec 5) (e : BitVec 5) (t : BitVec 4) : Statement (.frsq a b d e t) := of_word rfl (by decide)
theorem fexp2 (a : BitVec 5) (b : BitVec 5) (d : BitVec 5) (e : BitVec 5) (t : BitVec 4) : Statement (.fexp2 a b d e t) := of_word rfl (by decide)
theorem flog2 (a : BitVec 5) (b : BitVec 5) (d : BitVec 5) (e : BitVec 5) (t : BitVec 4) : Statement (.flog2 a b d e t) := of_word rfl (by decide)
theorem ftanh (a : BitVec 5) (b : BitVec 5) (d : BitVec 5) (e : BitVec 5) (t : BitVec 4) : Statement (.ftanh a b d e t) := of_word rfl (by decide)
theorem fsigm (a : BitVec 5) (b : BitVec 5) (d : BitVec 5) (e : BitVec 5) (t : BitVec 4) : Statement (.fsigm a b d e t) := of_word rfl (by decide)
theorem fclass (a : BitVec 5) (b : BitVec 5) (d : BitVec 5) (e : BitVec 5) (t : BitVec 4) : Statement (.fclass a b d e t) := of_word rfl (by decide)
theorem cvt (a : BitVec 5) (b : BitVec 5) (d : BitVec 5) (e : BitVec 5) (t : BitVec 4) : Statement (.cvt a b d e t) := of_word rfl (by decide)
theorem cvtSat (a : BitVec 5) (b : BitVec 5) (d : BitVec 5) (e : BitVec 5) (t : BitVec 4) : Statement (.cvtSat a b d e t) := of_word rfl (by decide)
theorem cvtS (a : BitVec 5) (b : BitVec 5) (d : BitVec 5) (e : BitVec 5) (t : BitVec 4) : Statement (.cvtS a b d e t) := of_word rfl (by decide)
theorem cvtN (a : BitVec 5) (b : BitVec 5) (d : BitVec 5) (e : BitVec 5) (t : BitVec 4) : Statement (.cvtN a b d e t) := of_word rfl (by decide)
theorem quant (a : BitVec 5) (b : BitVec 5) (d : BitVec 5) (e : BitVec 5) (t : BitVec 4) : Statement (.quant a b d e t) := of_word rfl (by decide)
theorem quantS (a : BitVec 5) (b : BitVec 5) (d : BitVec 5) (e : BitVec 5) (t : BitVec 4) : Statement (.quantS a b d e t) := of_word rfl (by decide)
theorem quantN (a : BitVec 5) (b : BitVec 5) (d : BitVec 5) (e : BitVec 5) (t : BitVec 4) : Statement (.quantN a b d e t) := of_word rfl (by decide)
theorem mxpack (a : BitVec 5) (b : BitVec 5) (d : BitVec 5) (e : BitVec 5) (t : BitVec 4) : Statement (.mxpack a b d e t) := of_word rfl (by decide)
theorem mxpackS (a : BitVec 5) (b : BitVec 5) (d : BitVec 5) (e : BitVec 5) (t : BitVec 4) : Statement (.mxpackS a b d e t) := of_word rfl (by decide)
theorem mxpackN (a : BitVec 5) (b : BitVec 5) (d : BitVec 5) (e : BitVec 5) (t : BitVec 4) : Statement (.mxpackN a b d e t) := of_word rfl (by decide)
theorem mxunpk (a : BitVec 5) (d : BitVec 5) (e : BitVec 5) (t : BitVec 4) : Statement (.mxunpk a d e t) := of_word rfl (by decide)
theorem keyx (a : BitVec 5) (b : BitVec 5) (d : BitVec 5) (e : BitVec 5) (t : BitVec 4) : Statement (.keyx a b d e t) := of_word rfl (by decide)
theorem vsum (a : BitVec 5) (b : BitVec 5) (d : BitVec 5) (e : BitVec 5) (t : BitVec 4) : Statement (.vsum a b d e t) := of_word rfl (by decide)
theorem vmax (a : BitVec 5) (b : BitVec 5) (d : BitVec 5) (e : BitVec 5) (t : BitVec 4) : Statement (.vmax a b d e t) := of_word rfl (by decide)
theorem vmin (a : BitVec 5) (b : BitVec 5) (d : BitVec 5) (e : BitVec 5) (t : BitVec 4) : Statement (.vmin a b d e t) := of_word rfl (by decide)
theorem vscan (a : BitVec 5) (b : BitVec 5) (d : BitVec 5) (e : BitVec 5) (t : BitVec 4) : Statement (.vscan a b d e t) := of_word rfl (by decide)
theorem vperm (a : BitVec 5) (b : BitVec 5) (d : BitVec 5) (e : BitVec 5) (t : BitVec 4) : Statement (.vperm a b d e t) := of_word rfl (by decide)
theorem vsplat (a : BitVec 5) (b : BitVec 5) (d : BitVec 5) (e : BitVec 5) (t : BitVec 4) : Statement (.vsplat a b d e t) := of_word rfl (by decide)
theorem vpack (a : BitVec 5) (b : BitVec 5) (d : BitVec 5) (e : BitVec 5) (t : BitVec 4) : Statement (.vpack a b d e t) := of_word rfl (by decide)
theorem vunpk (a : BitVec 5) (b : BitVec 5) (d : BitVec 5) (e : BitVec 5) (t : BitVec 4) : Statement (.vunpk a b d e t) := of_word rfl (by decide)
theorem vmask (a : BitVec 5) (b : BitVec 5) (d : BitVec 5) (e : BitVec 5) (t : BitVec 4) : Statement (.vmask a b d e t) := of_word rfl (by decide)
theorem vcount (a : BitVec 5) (b : BitVec 5) (d : BitVec 5) (e : BitVec 5) (t : BitVec 4) : Statement (.vcount a b d e t) := of_word rfl (by decide)
theorem sw (a : BitVec 5) (b : BitVec 5) (d : BitVec 5) (e : BitVec 5) (t : BitVec 4) : Statement (.sw a b d e t) := of_word rfl (by decide)
theorem mrg (d : BitVec 5) (e : BitVec 5) (t : BitVec 4) : Statement (.mrg d e t) := of_word rfl (by decide)
theorem gate (a : BitVec 5) (b : BitVec 5) (d : BitVec 5) (e : BitVec 5) (t : BitVec 4) : Statement (.gate a b d e t) := of_word rfl (by decide)
theorem fan (a : BitVec 5) (b : BitVec 5) (d : BitVec 5) (e : BitVec 5) (t : BitVec 4) : Statement (.fan a b d e t) := of_word rfl (by decide)
theorem mov (a : BitVec 5) (b : BitVec 5) (d : BitVec 5) (e : BitVec 5) (t : BitVec 4) : Statement (.mov a b d e t) := of_word rfl (by decide)
theorem sink (a : BitVec 5) (b : BitVec 5) (t : BitVec 4) : Statement (.sink a b t) := of_word rfl (by decide)
theorem exit (a : BitVec 5) (b : BitVec 5) (t : BitVec 4) : Statement (.exit a b t) := of_word rfl (by decide)
theorem csw (a : BitVec 5) (b : BitVec 5) (d : BitVec 5) (e : BitVec 5) (t : BitVec 4) : Statement (.csw a b d e t) := of_word rfl (by decide)
theorem trig (a : BitVec 5) (b : BitVec 5) (d : BitVec 5) (e : BitVec 5) (t : BitVec 4) : Statement (.trig a b d e t) := of_word rfl (by decide)
theorem delay (a : BitVec 5) (b : BitVec 5) (d : BitVec 5) (e : BitVec 5) (t : BitVec 4) : Statement (.delay a b d e t) := of_word rfl (by decide)
theorem enter (a : BitVec 5) (b : BitVec 5) (d : BitVec 5) (e : BitVec 5) : Statement (.enter a b d e) := of_word rfl (by decide)
theorem leave (a : BitVec 5) (b : BitVec 5) (d : BitVec 5) (e : BitVec 5) : Statement (.leave a b d e) := of_word rfl (by decide)
theorem spawn (a : BitVec 5) (b : BitVec 5) (d : BitVec 5) (e : BitVec 5) : Statement (.spawn a b d e) := of_word rfl (by decide)
theorem retn (a : BitVec 5) (b : BitVec 5) (d : BitVec 5) (e : BitVec 5) : Statement (.retn a b d e) := of_word rfl (by decide)
theorem tget (a : BitVec 5) (b : BitVec 5) (d : BitVec 5) (e : BitVec 5) : Statement (.tget a b d e) := of_word rfl (by decide)
theorem tset (a : BitVec 5) (b : BitVec 5) (d : BitVec 5) (e : BitVec 5) : Statement (.tset a b d e) := of_word rfl (by decide)
theorem renm (a : BitVec 5) (b : BitVec 5) (d : BitVec 5) (e : BitVec 5) : Statement (.renm a b d e) := of_word rfl (by decide)
theorem loop (a : BitVec 5) (b : BitVec 5) (d : BitVec 5) (e : BitVec 5) (t : BitVec 4) : Statement (.loop a b d e t) := of_word rfl (by decide)
theorem sloop (a : BitVec 5) (b : BitVec 5) (d : BitVec 5) (e : BitVec 5) (t : BitVec 4) : Statement (.sloop a b d e t) := of_word rfl (by decide)
theorem stree (a : BitVec 5) (b : BitVec 5) (d : BitVec 5) (e : BitVec 5) (t : BitVec 4) : Statement (.stree a b d e t) := of_word rfl (by decide)
theorem eos (a : BitVec 5) (b : BitVec 5) (d : BitVec 5) (e : BitVec 5) (t : BitVec 4) : Statement (.eos a b d e t) := of_word rfl (by decide)
theorem zip (d : BitVec 5) (e : BitVec 5) (t : BitVec 4) : Statement (.zip d e t) := of_word rfl (by decide)
theorem mxmode (a : BitVec 5) (b : BitVec 5) (d : BitVec 5) (e : BitVec 5) (t : BitVec 4) : Statement (.mxmode a b d e t) := of_word rfl (by decide)
theorem wload (a : BitVec 5) (b : BitVec 5) (d : BitVec 5) (e : BitVec 5) (t : BitVec 4) : Statement (.wload a b d e t) := of_word rfl (by decide)
theorem mma (a : BitVec 5) (b : BitVec 5) (d : BitVec 5) (e : BitVec 5) (t : BitVec 4) : Statement (.mma a b d e t) := of_word rfl (by decide)
theorem accrd (a : BitVec 5) (b : BitVec 5) (d : BitVec 5) (e : BitVec 5) (t : BitVec 4) : Statement (.accrd a b d e t) := of_word rfl (by decide)
theorem accz (a : BitVec 5) (b : BitVec 5) (d : BitVec 5) (e : BitVec 5) (t : BitVec 4) : Statement (.accz a b d e t) := of_word rfl (by decide)
theorem scale (a : BitVec 5) (b : BitVec 5) (d : BitVec 5) (e : BitVec 5) (t : BitVec 4) : Statement (.scale a b d e t) := of_word rfl (by decide)
theorem burst (a : BitVec 5) (b : BitVec 5) (d : BitVec 5) (e : BitVec 5) (t : BitVec 4) : Statement (.burst a b d e t) := of_word rfl (by decide)
theorem mxexit (a : BitVec 5) (b : BitVec 5) (d : BitVec 5) (e : BitVec 5) (t : BitVec 4) : Statement (.mxexit a b d e t) := of_word rfl (by decide)
theorem hist (a : BitVec 5) (b : BitVec 5) (d : BitVec 5) (e : BitVec 5) (t : BitVec 4) : Statement (.hist a b d e t) := of_word rfl (by decide)
theorem hscan (a : BitVec 5) (b : BitVec 5) (d : BitVec 5) (e : BitVec 5) (t : BitVec 4) : Statement (.hscan a b d e t) := of_word rfl (by decide)
theorem rsel (a : BitVec 5) (b : BitVec 5) (d : BitVec 5) (e : BitVec 5) (t : BitVec 4) : Statement (.rsel a b d e t) := of_word rfl (by decide)
theorem mergek (d : BitVec 5) (e : BitVec 5) (t : BitVec 4) : Statement (.mergek d e t) := of_word rfl (by decide)
theorem topk (a : BitVec 5) (b : BitVec 5) (d : BitVec 5) (e : BitVec 5) (t : BitVec 4) : Statement (.topk a b d e t) := of_word rfl (by decide)
theorem ld (a : BitVec 5) (b : BitVec 5) (d : BitVec 5) (e : BitVec 5) (t : BitVec 4) : Statement (.ld a b d e t) := of_word rfl (by decide)
theorem st (a : BitVec 5) (b : BitVec 5) (d : BitVec 5) (e : BitVec 5) (t : BitVec 4) : Statement (.st a b d e t) := of_word rfl (by decide)
theorem ldx (a : BitVec 5) (b : BitVec 5) (d : BitVec 5) (e : BitVec 5) (t : BitVec 4) : Statement (.ldx a b d e t) := of_word rfl (by decide)
theorem stx (a : BitVec 5) (b : BitVec 5) (d : BitVec 5) (e : BitVec 5) (t : BitVec 4) : Statement (.stx a b d e t) := of_word rfl (by decide)
theorem agset (a : BitVec 5) (b : BitVec 5) (d : BitVec 5) (e : BitVec 5) (t : BitVec 4) : Statement (.agset a b d e t) := of_word rfl (by decide)
theorem lda (a : BitVec 5) (b : BitVec 5) (d : BitVec 5) (e : BitVec 5) (t : BitVec 4) : Statement (.lda a b d e t) := of_word rfl (by decide)
theorem sta (a : BitVec 5) (b : BitVec 5) (d : BitVec 5) (e : BitVec 5) (t : BitVec 4) : Statement (.sta a b d e t) := of_word rfl (by decide)
theorem pref (a : BitVec 5) (b : BitVec 5) (d : BitVec 5) (e : BitVec 5) (t : BitVec 4) : Statement (.pref a b d e t) := of_word rfl (by decide)
theorem iwrite (a : BitVec 5) (b : BitVec 5) (d : BitVec 5) (e : BitVec 5) (t : BitVec 4) : Statement (.iwrite a b d e t) := of_word rfl (by decide)
theorem iread (a : BitVec 5) (b : BitVec 5) (d : BitVec 5) (e : BitVec 5) (t : BitVec 4) : Statement (.iread a b d e t) := of_word rfl (by decide)
theorem feset (a : BitVec 5) (b : BitVec 5) (d : BitVec 5) (e : BitVec 5) (t : BitVec 4) : Statement (.feset a b d e t) := of_word rfl (by decide)
theorem feclr (a : BitVec 5) (b : BitVec 5) (d : BitVec 5) (e : BitVec 5) (t : BitVec 4) : Statement (.feclr a b d e t) := of_word rfl (by decide)
theorem gld (a : BitVec 5) (b : BitVec 5) (d : BitVec 5) (e : BitVec 5) (t : BitVec 4) : Statement (.gld a b d e t) := of_word rfl (by decide)
theorem gst (a : BitVec 5) (b : BitVec 5) (d : BitVec 5) (e : BitVec 5) (t : BitVec 4) : Statement (.gst a b d e t) := of_word rfl (by decide)
theorem sld (a : BitVec 5) (b : BitVec 5) (d : BitVec 5) (e : BitVec 5) (t : BitVec 4) : Statement (.sld a b d e t) := of_word rfl (by decide)
theorem sst (a : BitVec 5) (b : BitVec 5) (d : BitVec 5) (e : BitVec 5) (t : BitVec 4) : Statement (.sst a b d e t) := of_word rfl (by decide)
theorem igath (a : BitVec 5) (b : BitVec 5) (d : BitVec 5) (e : BitVec 5) (t : BitVec 4) : Statement (.igath a b d e t) := of_word rfl (by decide)
theorem iscat (a : BitVec 5) (b : BitVec 5) (d : BitVec 5) (e : BitVec 5) (t : BitVec 4) : Statement (.iscat a b d e t) := of_word rfl (by decide)
theorem cpy (a : BitVec 5) (b : BitVec 5) (d : BitVec 5) (e : BitVec 5) (t : BitVec 4) : Statement (.cpy a b d e t) := of_word rfl (by decide)
theorem igathOrd (a : BitVec 5) (b : BitVec 5) (d : BitVec 5) (e : BitVec 5) (t : BitVec 4) : Statement (.igathOrd a b d e t) := of_word rfl (by decide)
theorem iscatOrd (a : BitVec 5) (b : BitVec 5) (d : BitVec 5) (e : BitVec 5) (t : BitVec 4) : Statement (.iscatOrd a b d e t) := of_word rfl (by decide)
theorem aadd (a : BitVec 5) (b : BitVec 5) (d : BitVec 5) (e : BitVec 5) (t : BitVec 4) : Statement (.aadd a b d e t) := of_word rfl (by decide)
theorem amin (a : BitVec 5) (b : BitVec 5) (d : BitVec 5) (e : BitVec 5) (t : BitVec 4) : Statement (.amin a b d e t) := of_word rfl (by decide)
theorem amax (a : BitVec 5) (b : BitVec 5) (d : BitVec 5) (e : BitVec 5) (t : BitVec 4) : Statement (.amax a b d e t) := of_word rfl (by decide)
theorem aand (a : BitVec 5) (b : BitVec 5) (d : BitVec 5) (e : BitVec 5) (t : BitVec 4) : Statement (.aand a b d e t) := of_word rfl (by decide)
theorem aor (a : BitVec 5) (b : BitVec 5) (d : BitVec 5) (e : BitVec 5) (t : BitVec 4) : Statement (.aor a b d e t) := of_word rfl (by decide)
theorem axor (a : BitVec 5) (b : BitVec 5) (d : BitVec 5) (e : BitVec 5) (t : BitVec 4) : Statement (.axor a b d e t) := of_word rfl (by decide)
theorem axchg (a : BitVec 5) (b : BitVec 5) (d : BitVec 5) (e : BitVec 5) (t : BitVec 4) : Statement (.axchg a b d e t) := of_word rfl (by decide)
theorem acas (a : BitVec 5) (b : BitVec 5) (d : BitVec 5) (e : BitVec 5) (t : BitVec 4) : Statement (.acas a b d e t) := of_word rfl (by decide)
theorem aaddAcq (a : BitVec 5) (b : BitVec 5) (d : BitVec 5) (e : BitVec 5) (t : BitVec 4) : Statement (.aaddAcq a b d e t) := of_word rfl (by decide)
theorem aminAcq (a : BitVec 5) (b : BitVec 5) (d : BitVec 5) (e : BitVec 5) (t : BitVec 4) : Statement (.aminAcq a b d e t) := of_word rfl (by decide)
theorem amaxAcq (a : BitVec 5) (b : BitVec 5) (d : BitVec 5) (e : BitVec 5) (t : BitVec 4) : Statement (.amaxAcq a b d e t) := of_word rfl (by decide)
theorem aandAcq (a : BitVec 5) (b : BitVec 5) (d : BitVec 5) (e : BitVec 5) (t : BitVec 4) : Statement (.aandAcq a b d e t) := of_word rfl (by decide)
theorem aorAcq (a : BitVec 5) (b : BitVec 5) (d : BitVec 5) (e : BitVec 5) (t : BitVec 4) : Statement (.aorAcq a b d e t) := of_word rfl (by decide)
theorem axorAcq (a : BitVec 5) (b : BitVec 5) (d : BitVec 5) (e : BitVec 5) (t : BitVec 4) : Statement (.axorAcq a b d e t) := of_word rfl (by decide)
theorem axchgAcq (a : BitVec 5) (b : BitVec 5) (d : BitVec 5) (e : BitVec 5) (t : BitVec 4) : Statement (.axchgAcq a b d e t) := of_word rfl (by decide)
theorem acasAcq (a : BitVec 5) (b : BitVec 5) (d : BitVec 5) (e : BitVec 5) (t : BitVec 4) : Statement (.acasAcq a b d e t) := of_word rfl (by decide)
theorem aaddRel (a : BitVec 5) (b : BitVec 5) (d : BitVec 5) (e : BitVec 5) (t : BitVec 4) : Statement (.aaddRel a b d e t) := of_word rfl (by decide)
theorem aminRel (a : BitVec 5) (b : BitVec 5) (d : BitVec 5) (e : BitVec 5) (t : BitVec 4) : Statement (.aminRel a b d e t) := of_word rfl (by decide)
theorem amaxRel (a : BitVec 5) (b : BitVec 5) (d : BitVec 5) (e : BitVec 5) (t : BitVec 4) : Statement (.amaxRel a b d e t) := of_word rfl (by decide)
theorem aandRel (a : BitVec 5) (b : BitVec 5) (d : BitVec 5) (e : BitVec 5) (t : BitVec 4) : Statement (.aandRel a b d e t) := of_word rfl (by decide)
theorem aorRel (a : BitVec 5) (b : BitVec 5) (d : BitVec 5) (e : BitVec 5) (t : BitVec 4) : Statement (.aorRel a b d e t) := of_word rfl (by decide)
theorem axorRel (a : BitVec 5) (b : BitVec 5) (d : BitVec 5) (e : BitVec 5) (t : BitVec 4) : Statement (.axorRel a b d e t) := of_word rfl (by decide)
theorem axchgRel (a : BitVec 5) (b : BitVec 5) (d : BitVec 5) (e : BitVec 5) (t : BitVec 4) : Statement (.axchgRel a b d e t) := of_word rfl (by decide)
theorem acasRel (a : BitVec 5) (b : BitVec 5) (d : BitVec 5) (e : BitVec 5) (t : BitVec 4) : Statement (.acasRel a b d e t) := of_word rfl (by decide)
theorem fence (a : BitVec 5) (b : BitVec 5) (d : BitVec 5) (e : BitVec 5) (t : BitVec 4) : Statement (.fence a b d e t) := of_word rfl (by decide)
theorem ordj (a : BitVec 5) (b : BitVec 5) (d : BitVec 5) (e : BitVec 5) (t : BitVec 4) : Statement (.ordj a b d e t) := of_word rfl (by decide)
theorem barw (a : BitVec 5) (b : BitVec 5) (d : BitVec 5) (e : BitVec 5) (t : BitVec 4) : Statement (.barw a b d e t) := of_word rfl (by decide)
theorem bara (a : BitVec 5) (b : BitVec 5) (d : BitVec 5) (e : BitVec 5) (t : BitVec 4) : Statement (.bara a b d e t) := of_word rfl (by decide)
theorem qwait (a : BitVec 5) (b : BitVec 5) (d : BitVec 5) (e : BitVec 5) (t : BitVec 4) : Statement (.qwait a b d e t) := of_word rfl (by decide)
theorem lodeq (a : BitVec 5) (b : BitVec 5) (d : BitVec 5) (e : BitVec 5) (t : BitVec 4) : Statement (.lodeq a b d e t) := of_word rfl (by decide)
theorem rbind (a : BitVec 5) (b : BitVec 5) (d : BitVec 5) (e : BitVec 5) (t : BitVec 4) : Statement (.rbind a b d e t) := of_word rfl (by decide)
theorem rule (a : BitVec 5) (b : BitVec 5) (d : BitVec 5) (e : BitVec 5) (t : BitVec 4) : Statement (.rule a b d e t) := of_word rfl (by decide)
theorem tins (a : BitVec 5) (b : BitVec 5) (d : BitVec 5) (e : BitVec 5) (t : BitVec 4) : Statement (.tins a b d e t) := of_word rfl (by decide)
theorem tprobe (a : BitVec 5) (b : BitVec 5) (d : BitVec 5) (e : BitVec 5) (t : BitVec 4) : Statement (.tprobe a b d e t) := of_word rfl (by decide)
theorem tprobeD (a : BitVec 5) (b : BitVec 5) (d : BitVec 5) (e : BitVec 5) (t : BitVec 4) : Statement (.tprobeD a b d e t) := of_word rfl (by decide)
theorem tprobeAll (a : BitVec 5) (b : BitVec 5) (d : BitVec 5) (e : BitVec 5) (t : BitVec 4) : Statement (.tprobeAll a b d e t) := of_word rfl (by decide)
theorem tnot (a : BitVec 5) (b : BitVec 5) (d : BitVec 5) (e : BitVec 5) (t : BitVec 4) : Statement (.tnot a b d e t) := of_word rfl (by decide)
theorem round (a : BitVec 5) (b : BitVec 5) (d : BitVec 5) (e : BitVec 5) (t : BitVec 4) : Statement (.round a b d e t) := of_word rfl (by decide)
theorem fixq (a : BitVec 5) (b : BitVec 5) (d : BitVec 5) (e : BitVec 5) (t : BitVec 4) : Statement (.fixq a b d e t) := of_word rfl (by decide)
theorem rclose (a : BitVec 5) (b : BitVec 5) (d : BitVec 5) (e : BitVec 5) (t : BitVec 4) : Statement (.rclose a b d e t) := of_word rfl (by decide)
theorem tdel (a : BitVec 5) (b : BitVec 5) (d : BitVec 5) (e : BitVec 5) (t : BitVec 4) : Statement (.tdel a b d e t) := of_word rfl (by decide)
theorem tredr (a : BitVec 5) (b : BitVec 5) (d : BitVec 5) (e : BitVec 5) (t : BitVec 4) : Statement (.tredr a b d e t) := of_word rfl (by decide)
theorem tgrad (a : BitVec 5) (b : BitVec 5) (d : BitVec 5) (e : BitVec 5) (t : BitVec 4) : Statement (.tgrad a b d e t) := of_word rfl (by decide)
theorem twit (a : BitVec 5) (b : BitVec 5) (d : BitVec 5) (e : BitVec 5) (t : BitVec 4) : Statement (.twit a b d e t) := of_word rfl (by decide)
theorem eprog (a : BitVec 5) (b : BitVec 5) (d : BitVec 5) (e : BitVec 5) (t : BitVec 4) : Statement (.eprog a b d e t) := of_word rfl (by decide)
theorem edens (a : BitVec 5) (b : BitVec 5) (d : BitVec 5) (e : BitVec 5) (t : BitVec 4) : Statement (.edens a b d e t) := of_word rfl (by decide)
theorem emode (a : BitVec 5) (b : BitVec 5) (d : BitVec 5) (e : BitVec 5) (t : BitVec 4) : Statement (.emode a b d e t) := of_word rfl (by decide)
theorem name (a : BitVec 5) (b : BitVec 5) (d : BitVec 5) (e : BitVec 5) (t : BitVec 4) : Statement (.name a b d e t) := of_word rfl (by decide)
theorem claim (a : BitVec 5) (b : BitVec 5) (d : BitVec 5) (e : BitVec 5) (t : BitVec 4) : Statement (.claim a b d e t) := of_word rfl (by decide)
theorem fulfil (a : BitVec 5) (b : BitVec 5) (d : BitVec 5) (e : BitVec 5) (t : BitVec 4) : Statement (.fulfil a b d e t) := of_word rfl (by decide)
theorem abandon (a : BitVec 5) (b : BitVec 5) (d : BitVec 5) (e : BitVec 5) (t : BitVec 4) : Statement (.abandon a b d e t) := of_word rfl (by decide)
theorem clinv (a : BitVec 5) (b : BitVec 5) (d : BitVec 5) (e : BitVec 5) (t : BitVec 4) : Statement (.clinv a b d e t) := of_word rfl (by decide)
theorem clqry (a : BitVec 5) (b : BitVec 5) (d : BitVec 5) (e : BitVec 5) (t : BitVec 4) : Statement (.clqry a b d e t) := of_word rfl (by decide)
theorem task (a : BitVec 5) (b : BitVec 5) (d : BitVec 5) (e : BitVec 5) (t : BitVec 4) : Statement (.task a b d e t) := of_word rfl (by decide)
theorem tile (a : BitVec 5) (b : BitVec 5) (d : BitVec 5) (e : BitVec 5) (t : BitVec 4) : Statement (.tile a b d e t) := of_word rfl (by decide)
theorem stageq (a : BitVec 5) (b : BitVec 5) (d : BitVec 5) (e : BitVec 5) (t : BitVec 4) : Statement (.stageq a b d e t) := of_word rfl (by decide)
theorem trap (a : BitVec 5) (b : BitVec 5) (d : BitVec 5) (e : BitVec 5) (t : BitVec 4) : Statement (.trap a b d e t) := of_word rfl (by decide)
theorem resume (a : BitVec 5) (b : BitVec 5) (d : BitVec 5) (e : BitVec 5) (t : BitVec 4) : Statement (.resume a b d e t) := of_word rfl (by decide)
theorem discard (a : BitVec 5) (b : BitVec 5) (d : BitVec 5) (e : BitVec 5) (t : BitVec 4) : Statement (.discard a b d e t) := of_word rfl (by decide)
theorem kill (a : BitVec 5) (b : BitVec 5) (d : BitVec 5) (e : BitVec 5) (t : BitVec 4) : Statement (.kill a b d e t) := of_word rfl (by decide)
theorem csrr (a : BitVec 5) (b : BitVec 5) (d : BitVec 5) (e : BitVec 5) (t : BitVec 4) : Statement (.csrr a b d e t) := of_word rfl (by decide)
theorem csrw (a : BitVec 5) (b : BitVec 5) (d : BitVec 5) (e : BitVec 5) (t : BitVec 4) : Statement (.csrw a b d e t) := of_word rfl (by decide)
theorem hcall (a : BitVec 5) (b : BitVec 5) (d : BitVec 5) (e : BitVec 5) (t : BitVec 4) : Statement (.hcall a b d e t) := of_word rfl (by decide)
theorem cfgld (a : BitVec 5) (b : BitVec 5) (d : BitVec 5) (e : BitVec 5) (t : BitVec 4) : Statement (.cfgld a b d e t) := of_word rfl (by decide)
theorem save (a : BitVec 5) (b : BitVec 5) (d : BitVec 5) (e : BitVec 5) (t : BitVec 4) : Statement (.save a b d e t) := of_word rfl (by decide)
theorem restore (a : BitVec 5) (b : BitVec 5) (d : BitVec 5) (e : BitVec 5) (t : BitVec 4) : Statement (.restore a b d e t) := of_word rfl (by decide)
theorem cfgfl (a : BitVec 5) (b : BitVec 5) (d : BitVec 5) (e : BitVec 5) (t : BitVec 4) : Statement (.cfgfl a b d e t) := of_word rfl (by decide)
theorem pgmig (a : BitVec 5) (b : BitVec 5) (d : BitVec 5) (e : BitVec 5) (t : BitVec 4) : Statement (.pgmig a b d e t) := of_word rfl (by decide)
theorem scrub (a : BitVec 5) (b : BitVec 5) (d : BitVec 5) (e : BitVec 5) (t : BitVec 4) : Statement (.scrub a b d e t) := of_word rfl (by decide)
theorem retire (a : BitVec 5) (b : BitVec 5) (d : BitVec 5) (e : BitVec 5) (t : BitVec 4) : Statement (.retire a b d e t) := of_word rfl (by decide)
theorem attest (a : BitVec 5) (b : BitVec 5) (d : BitVec 5) (e : BitVec 5) (t : BitVec 4) : Statement (.attest a b d e t) := of_word rfl (by decide)
theorem tokenArrive (el : Nat) (p : Port) (t : Tok) : Statement (.tokenArrive el p t) := of_none rfl
theorem frameProbeEnd (el : Nat) : Statement (.frameProbeEnd el) := of_none rfl
theorem configMissServe (el ctx : Nat) : Statement (.configMissServe el ctx) := of_none rfl
theorem missReplay (el ctx : Nat) : Statement (.missReplay el ctx) := of_none rfl
theorem cfgldEntry (el id : Nat) : Statement (.cfgldEntry el id) := of_none rfl
theorem contextEvict (el ctx : Nat) : Statement (.contextEvict el ctx) := of_none rfl
theorem signalRelease (el : Nat) : Statement (.signalRelease el) := of_none rfl
theorem deferRelease (el : Nat) : Statement (.deferRelease el) := of_none rfl
theorem memoryAnswer (a : Ans) : Statement (.memoryAnswer a) := of_none rfl
theorem faultAnswer (q : Req) (c : Cause) (info : Word) : Statement (.faultAnswer q c info) := of_none rfl
theorem retryAnswer (q : Req) : Statement (.retryAnswer q) := of_none rfl
theorem levelCreditRequest (bk el id ctx lvl : Nat) : Statement (.levelCreditRequest bk el id ctx lvl) := of_none rfl
theorem poolRequest (bk el id ctx wid : Nat) : Statement (.poolRequest bk el id ctx wid) := of_none rfl
theorem levelCreditReturn (w : ToAnchor) (ctx lvl : Nat) : Statement (.levelCreditReturn w ctx lvl) := of_none rfl
theorem poolReturn (w : ToAnchor) (ctx num : Nat) : Statement (.poolReturn w ctx num) := of_none rfl
theorem grantArrive (el id num : Nat) : Statement (.grantArrive el id num) := of_none rfl
theorem cswRequest (bk el id : Nat) : Statement (.cswRequest bk el id) := of_none rfl
theorem regionWave (bk : Nat) : Statement (.regionWave bk) := of_none rfl
theorem loopGeneratorEmit (el : Nat) : Statement (.loopGeneratorEmit el) := of_none rfl
theorem delayDue (el : Nat) : Statement (.delayDue el) := of_none rfl
theorem scaleTokenArrive (el : Nat) (t : ScaleTok) : Statement (.scaleTokenArrive el t) := of_none rfl
theorem groupLanding (el : Nat) : Statement (.groupLanding el) := of_none rfl
theorem warmupDone (el : Nat) : Statement (.warmupDone el) := of_none rfl
theorem burstTimeout (el : Nat) : Statement (.burstTimeout el) := of_none rfl
theorem slabCool (el : Nat) : Statement (.slabCool el) := of_none rfl
theorem routeSetup (el route : Nat) : Statement (.routeSetup el route) := of_none rfl
theorem routeAccess (dst win : Nat) (q : Req) : Statement (.routeAccess dst win q) := of_none rfl
theorem stripeAccess (q : Req) : Statement (.stripeAccess q) := of_none rfl
theorem rmwComplete (el : Nat) : Statement (.rmwComplete el) := of_none rfl
theorem waveRelease (bk : Nat) : Statement (.waveRelease bk) := of_none rfl
theorem indirectStreamCommand (el id : Nat) : Statement (.indirectStreamCommand el id) := of_none rfl
theorem indirectLaneComplete (el id lane : Nat) : Statement (.indirectLaneComplete el id lane) := of_none rfl
theorem copyPieceComplete (el id piece : Nat) : Statement (.copyPieceComplete el id piece) := of_none rfl
theorem lodeWave (n : Nat) : Statement (.lodeWave n) := of_none rfl
theorem barrierRelease (n : Nat) : Statement (.barrierRelease n) := of_none rfl
theorem podWave (n : Nat) : Statement (.podWave n) := of_none rfl
theorem fixqPass (el id : Nat) : Statement (.fixqPass el id) := of_none rfl
theorem relationScanVisit (el id : Nat) : Statement (.relationScanVisit el id) := of_none rfl
theorem relationSweepStep (el win : Nat) : Statement (.relationSweepStep el win) := of_none rfl
theorem tupleInsertAtHome (el id : Nat) : Statement (.tupleInsertAtHome el id) := of_none rfl
theorem tupleDeleteAtHome (el id : Nat) : Statement (.tupleDeleteAtHome el id) := of_none rfl
theorem probeAtHome (el id : Nat) : Statement (.probeAtHome el id) := of_none rfl
theorem roundAtMember (el id mem : Nat) : Statement (.roundAtMember el id mem) := of_none rfl
theorem closeAtMember (el id mem : Nat) : Statement (.closeAtMember el id mem) := of_none rfl
theorem rbindMember (el id mem : Nat) : Statement (.rbindMember el id mem) := of_none rfl
theorem gradientStep (el id : Nat) : Statement (.gradientStep el id) := of_none rfl
theorem pushSourceVisit (el id mem : Nat) : Statement (.pushSourceVisit el id mem) := of_none rfl
theorem pullVertexVisit (el id mem : Nat) : Statement (.pullVertexVisit el id mem) := of_none rfl
theorem edgeContributionCombine (el id : Nat) (c : Contrib) : Statement (.edgeContributionCombine el id c) := of_none rfl
theorem edensCount (el id mem : Nat) : Statement (.edensCount el id mem) := of_none rfl
theorem hostPacketWrite (part off : Nat) (bs : List Byte) : Statement (.hostPacketWrite part off bs) := of_none rfl
theorem bridgeForward (part stage : Nat) : Statement (.bridgeForward part stage) := of_none rfl
theorem queueAccept (q : Item) : Statement (.queueAccept q) := of_none rfl
theorem stageFire (bk : Nat) : Statement (.stageFire bk) := of_none rfl
theorem stageEntrySend (el : Nat) (t : Tok) : Statement (.stageEntrySend el t) := of_none rfl
theorem successorForward (q : Item) : Statement (.successorForward q) := of_none rfl
theorem saveWrite (el id : Nat) : Statement (.saveWrite el id) := of_none rfl
theorem translationRequest (sd : Nat) (q : Req) : Statement (.translationRequest sd q) := of_none rfl
theorem pageWalkLevel (sd : Nat) : Statement (.pageWalkLevel sd) := of_none rfl
theorem apertureStore (q : Req) : Statement (.apertureStore q) := of_none rfl
theorem tableApply (sd : Nat) (st : ApStore) : Statement (.tableApply sd st) := of_none rfl
theorem applyAck (sd num : Nat) : Statement (.applyAck sd num) := of_none rfl
theorem apertureLoad (q : Req) : Statement (.apertureLoad q) := of_none rfl
theorem peerAccess (port : Nat) (q : Req) : Statement (.peerAccess port q) := of_none rfl
theorem geodeSliceOperation (sd : Nat) (g : GReq) : Statement (.geodeSliceOperation sd g) := of_none rfl
theorem clinvSetStep (sd : Nat) (g : GReq) : Statement (.clinvSetStep sd g) := of_none rfl
theorem contextEndNotice (sd pkg part ctx : Nat) : Statement (.contextEndNotice sd pkg part ctx) := of_none rfl
theorem trapRecordDeliver (el : Nat) : Statement (.trapRecordDeliver el) := of_none rfl
theorem handlerAnswerApply (el id : Nat) : Statement (.handlerAnswerApply el id) := of_none rfl
theorem volwinBlockReceive (sd md : Nat) (b : VBlock) : Statement (.volwinBlockReceive sd md b) := of_none rfl
theorem volwinRetryTimeout (sd md : Nat) : Statement (.volwinRetryTimeout sd md) := of_none rfl
theorem volwinMessage (sd md : Nat) (toDie : Bool) (fl : List (BitVec 256)) : Statement (.volwinMessage sd md toDie fl) := of_none rfl
theorem channelRequest (sd : Nat) (f : Frame) (q : Req) : Statement (.channelRequest sd f q) := of_none rfl
theorem predecessorMark (sd : Nat) (el oid : Nat) : Statement (.predecessorMark sd el oid) := of_none rfl
theorem channelReadReturn (sd : Nat) (a : Ans) : Statement (.channelReadReturn sd a) := of_none rfl
theorem refreshDue (sd ch : Nat) : Statement (.refreshDue sd ch) := of_none rfl
theorem rateStepDown (sd ch : Nat) : Statement (.rateStepDown sd ch) := of_none rfl
theorem rateStepUp (sd ch : Nat) : Statement (.rateStepUp sd ch) := of_none rfl
theorem rateSwitchEnd (sd ch : Nat) : Statement (.rateSwitchEnd sd ch) := of_none rfl
theorem patrolStep (sd : Nat) : Statement (.patrolStep sd) := of_none rfl
theorem channelRetirement (sd ch el id : Nat) : Statement (.channelRetirement sd ch el id) := of_none rfl
theorem rebuildStep (sd : Nat) : Statement (.rebuildStep sd) := of_none rfl
theorem guardZeroDone (sd n : Nat) : Statement (.guardZeroDone sd n) := of_none rfl
theorem engineCommand (sd n : Nat) (q : Req) (pl : List DWord) : Statement (.engineCommand sd n q pl) := of_none rfl
theorem fatikImageLoad (sd n : Nat) : Statement (.fatikImageLoad sd n) := of_none rfl
theorem scaleoutFrameReceive (port : Nat) (f : ScaleFrame) : Statement (.scaleoutFrameReceive port f) := of_none rfl
theorem scaleoutResendTimeout (port : Nat) : Statement (.scaleoutResendTimeout port) := of_none rfl
theorem scaleoutPortDead (port : Nat) : Statement (.scaleoutPortDead port) := of_none rfl
theorem reportFrame (r : Report) : Statement (.reportFrame r) := of_none rfl
theorem declareFrame (line num : Nat) : Statement (.declareFrame line num) := of_none rfl
theorem hostBarAccess (q : Req) : Statement (.hostBarAccess q) := of_none rfl
theorem railOutOfTolerance (rail : Nat) : Statement (.railOutOfTolerance rail) := of_none rfl
theorem thermalTrip : Statement .thermalTrip := of_none rfl
theorem supplyDroop (bk : Nat) : Statement (.supplyDroop bk) := of_none rfl
theorem test (good : BitVec 24) : Statement (.test good) := of_none rfl
theorem fwload : Statement .fwload := of_none rfl
theorem fwcheck : Statement .fwcheck := of_none rfl
theorem fwapply : Statement .fwapply := of_none rfl
theorem bdload : Statement .bdload := of_none rfl
theorem bdstart : Statement .bdstart := of_none rfl
theorem handover : Statement .handover := of_none rfl
theorem signerCheck (part : Nat) (img : BitVec 42) : Statement (.signerCheck part img) := of_none rfl
theorem signerClear (part : Nat) : Statement (.signerClear part) := of_none rfl
theorem attestReportSigned (el id : Nat) : Statement (.attestReportSigned el id) := of_none rfl
theorem regionWrite (w : CsrWr) : Statement (.regionWrite w) := of_none rfl
theorem windowWrite (w : CsrWr) : Statement (.windowWrite w) := of_none rfl
theorem aflagsWrite (w : CsrWr) : Statement (.aflagsWrite w) := of_none rfl
theorem srstateWrite (w : CsrWr) : Statement (.srstateWrite w) := of_none rfl
theorem lodeenWrite (w : CsrWr) : Statement (.lodeenWrite w) := of_none rfl
theorem lodeLineWrite (w : CsrWr) : Statement (.lodeLineWrite w) := of_none rfl
theorem stagesWrite (w : CsrWr) : Statement (.stagesWrite w) := of_none rfl
theorem ptrootWrite (w : CsrWr) : Statement (.ptrootWrite w) := of_none rfl
theorem guardWrite (w : CsrWr) : Statement (.guardWrite w) := of_none rfl
theorem ratecfgWrite (w : CsrWr) : Statement (.ratecfgWrite w) := of_none rfl
theorem fatikImageWrite (w : CsrWr) : Statement (.fatikImageWrite w) := of_none rfl
theorem csrRegisterWrite (w : CsrWr) : Statement (.csrRegisterWrite w) := of_none rfl
theorem powerDown : Statement .powerDown := of_none rfl
theorem laneRepair (sd md : Nat) : Statement (.laneRepair sd md) := of_none rfl
theorem copyCommand (el id : Nat) : Statement (.copyCommand el id) := of_none rfl

end Sys2Proof.Laws.Encoding
end

