-- ==== Sys2Proof/Laws/Step.lean ====
section
/-! SUPPORT. What a step runs for an event of the agenda: the instruction it is. -/

namespace Sys2Proof.Machine

/-- An event of the agenda is run as the instruction it is. -/
theorem runEvent_eq (v : Ev) (s : State) : runEvent v s = exec v.instr s := by cases v <;> rfl

end Sys2Proof.Machine
end

