-- ==== Sys2Proof/WellFormed.lean ====
section
/-! DEFINITION. Well-formed instructions: the select and tag action codes R41, R42 and R44 assign, and events that name
units the package has (R1, R14, R15). -/

namespace Sys2Proof

/-- A source select code R41 assigns. -/
def srcOk (x : BitVec 5) : Bool := decide (x.toNat < 0x1C) || x == 0x1F
/-- A destination select code R42 assigns. -/
def dstOk (x : BitVec 5) : Bool := decide (x.toNat < 0x1A) || x == 0x1F
/-- A tag action R44 assigns. -/
def tagOk (x : BitVec 4) : Bool := decide (x.toNat < 8)
/-- An element key: an EID (R15), or a Fatik element of one of the 24 stacks. -/
def elOk (el : Nat) : Bool := decide (el < 65536 + 96)
/-- A package block number (R134). -/
def bkOk (bk : Nat) : Bool := decide (bk < 1024)
/-- A package stack number (R1). -/
def sdOk (sd : Nat) : Bool := decide (sd < 24)
/-- A token's payload: one lane for each of its 1 to 32 lanes (R16, R17). -/
def tokOk (t : Tok) : Bool := decide (t.lanes.length ≤ 32)

/-- Well-formedness of an instruction or event. -/
def wf (i : Instr) : Bool :=
  match i with
  | .add a b d e t => srcOk a && srcOk b && dstOk d && dstOk e && tagOk t
  | .sub a b d e t => srcOk a && srcOk b && dstOk d && dstOk e && tagOk t
  | .mul a b d e t => srcOk a && srcOk b && dstOk d && dstOk e && tagOk t
  | .mulh a b d e t => srcOk a && srcOk b && dstOk d && dstOk e && tagOk t
  | .mad a b d e t => srcOk a && srcOk b && dstOk d && dstOk e && tagOk t
  | .div a b d e t => srcOk a && srcOk b && dstOk d && dstOk e && tagOk t
  | .rem a b d e t => srcOk a && srcOk b && dstOk d && dstOk e && tagOk t
  | .neg a b d e t => srcOk a && srcOk b && dstOk d && dstOk e && tagOk t
  | .abs a b d e t => srcOk a && srcOk b && dstOk d && dstOk e && tagOk t
  | .min a b d e t => srcOk a && srcOk b && dstOk d && dstOk e && tagOk t
  | .max a b d e t => srcOk a && srcOk b && dstOk d && dstOk e && tagOk t
  | .and a b d e t => srcOk a && srcOk b && dstOk d && dstOk e && tagOk t
  | .or a b d e t => srcOk a && srcOk b && dstOk d && dstOk e && tagOk t
  | .xor a b d e t => srcOk a && srcOk b && dstOk d && dstOk e && tagOk t
  | .not a b d e t => srcOk a && srcOk b && dstOk d && dstOk e && tagOk t
  | .shl a b d e t => srcOk a && srcOk b && dstOk d && dstOk e && tagOk t
  | .shr a b d e t => srcOk a && srcOk b && dstOk d && dstOk e && tagOk t
  | .sar a b d e t => srcOk a && srcOk b && dstOk d && dstOk e && tagOk t
  | .rot a b d e t => srcOk a && srcOk b && dstOk d && dstOk e && tagOk t
  | .clz a b d e t => srcOk a && srcOk b && dstOk d && dstOk e && tagOk t
  | .popc a b d e t => srcOk a && srcOk b && dstOk d && dstOk e && tagOk t
  | .brev a b d e t => srcOk a && srcOk b && dstOk d && dstOk e && tagOk t
  | .bfx a b d e t => srcOk a && srcOk b && dstOk d && dstOk e && tagOk t
  | .bfi a b d e t => srcOk a && srcOk b && dstOk d && dstOk e && tagOk t
  | .cmp a b d e t => srcOk a && srcOk b && dstOk d && dstOk e && tagOk t
  | .sel a b d e t => srcOk a && srcOk b && dstOk d && dstOk e && tagOk t
  | .addSat a b d e t => srcOk a && srcOk b && dstOk d && dstOk e && tagOk t
  | .subSat a b d e t => srcOk a && srcOk b && dstOk d && dstOk e && tagOk t
  | .mulSat a b d e t => srcOk a && srcOk b && dstOk d && dstOk e && tagOk t
  | .madSat a b d e t => srcOk a && srcOk b && dstOk d && dstOk e && tagOk t
  | .negSat a b d e t => srcOk a && srcOk b && dstOk d && dstOk e && tagOk t
  | .absSat a b d e t => srcOk a && srcOk b && dstOk d && dstOk e && tagOk t
  | .shlSat a b d e t => srcOk a && srcOk b && dstOk d && dstOk e && tagOk t
  | .fadd a b d e t => srcOk a && srcOk b && dstOk d && dstOk e && tagOk t
  | .fsub a b d e t => srcOk a && srcOk b && dstOk d && dstOk e && tagOk t
  | .fmul a b d e t => srcOk a && srcOk b && dstOk d && dstOk e && tagOk t
  | .ffma a b d e t => srcOk a && srcOk b && dstOk d && dstOk e && tagOk t
  | .fmin a b d e t => srcOk a && srcOk b && dstOk d && dstOk e && tagOk t
  | .fmax a b d e t => srcOk a && srcOk b && dstOk d && dstOk e && tagOk t
  | .fabs a b d e t => srcOk a && srcOk b && dstOk d && dstOk e && tagOk t
  | .fneg a b d e t => srcOk a && srcOk b && dstOk d && dstOk e && tagOk t
  | .fcmp a b d e t => srcOk a && srcOk b && dstOk d && dstOk e && tagOk t
  | .fdiv a b d e t => srcOk a && srcOk b && dstOk d && dstOk e && tagOk t
  | .fsqrt a b d e t => srcOk a && srcOk b && dstOk d && dstOk e && tagOk t
  | .frcp a b d e t => srcOk a && srcOk b && dstOk d && dstOk e && tagOk t
  | .frsq a b d e t => srcOk a && srcOk b && dstOk d && dstOk e && tagOk t
  | .fexp2 a b d e t => srcOk a && srcOk b && dstOk d && dstOk e && tagOk t
  | .flog2 a b d e t => srcOk a && srcOk b && dstOk d && dstOk e && tagOk t
  | .ftanh a b d e t => srcOk a && srcOk b && dstOk d && dstOk e && tagOk t
  | .fsigm a b d e t => srcOk a && srcOk b && dstOk d && dstOk e && tagOk t
  | .fclass a b d e t => srcOk a && srcOk b && dstOk d && dstOk e && tagOk t
  | .cvt a b d e t => srcOk a && srcOk b && dstOk d && dstOk e && tagOk t
  | .cvtSat a b d e t => srcOk a && srcOk b && dstOk d && dstOk e && tagOk t
  | .cvtS a b d e t => srcOk a && srcOk b && dstOk d && dstOk e && tagOk t
  | .cvtN a b d e t => srcOk a && srcOk b && dstOk d && dstOk e && tagOk t
  | .quant a b d e t => srcOk a && srcOk b && dstOk d && dstOk e && tagOk t
  | .quantS a b d e t => srcOk a && srcOk b && dstOk d && dstOk e && tagOk t
  | .quantN a b d e t => srcOk a && srcOk b && dstOk d && dstOk e && tagOk t
  | .mxpack a b d e t => srcOk a && srcOk b && dstOk d && dstOk e && tagOk t
  | .mxpackS a b d e t => srcOk a && srcOk b && dstOk d && dstOk e && tagOk t
  | .mxpackN a b d e t => srcOk a && srcOk b && dstOk d && dstOk e && tagOk t
  | .mxunpk a d e t => srcOk a && dstOk d && dstOk e && tagOk t
  | .keyx a b d e t => srcOk a && srcOk b && dstOk d && dstOk e && tagOk t
  | .vsum a b d e t => srcOk a && srcOk b && dstOk d && dstOk e && tagOk t
  | .vmax a b d e t => srcOk a && srcOk b && dstOk d && dstOk e && tagOk t
  | .vmin a b d e t => srcOk a && srcOk b && dstOk d && dstOk e && tagOk t
  | .vscan a b d e t => srcOk a && srcOk b && dstOk d && dstOk e && tagOk t
  | .vperm a b d e t => srcOk a && srcOk b && dstOk d && dstOk e && tagOk t
  | .vsplat a b d e t => srcOk a && srcOk b && dstOk d && dstOk e && tagOk t
  | .vpack a b d e t => srcOk a && srcOk b && dstOk d && dstOk e && tagOk t
  | .vunpk a b d e t => srcOk a && srcOk b && dstOk d && dstOk e && tagOk t
  | .vmask a b d e t => srcOk a && srcOk b && dstOk d && dstOk e && tagOk t
  | .vcount a b d e t => srcOk a && srcOk b && dstOk d && dstOk e && tagOk t
  | .sw a b d e t => srcOk a && srcOk b && dstOk d && dstOk e && tagOk t
  | .mrg d e t => dstOk d && dstOk e && tagOk t
  | .gate a b d e t => srcOk a && srcOk b && dstOk d && dstOk e && tagOk t
  | .fan a b d e t => srcOk a && srcOk b && dstOk d && dstOk e && tagOk t
  | .mov a b d e t => srcOk a && srcOk b && dstOk d && dstOk e && tagOk t
  | .sink a b t => srcOk a && srcOk b && tagOk t
  | .exit a b t => srcOk a && srcOk b && tagOk t
  | .csw a b d e t => srcOk a && srcOk b && dstOk d && dstOk e && tagOk t
  | .trig a b d e t => srcOk a && srcOk b && dstOk d && dstOk e && tagOk t
  | .delay a b d e t => srcOk a && srcOk b && dstOk d && dstOk e && tagOk t
  | .enter a b d e => srcOk a && srcOk b && dstOk d && dstOk e
  | .leave a b d e => srcOk a && srcOk b && dstOk d && dstOk e
  | .spawn a b d e => srcOk a && srcOk b && dstOk d && dstOk e
  | .retn a b d e => srcOk a && srcOk b && dstOk d && dstOk e
  | .tget a b d e => srcOk a && srcOk b && dstOk d && dstOk e
  | .tset a b d e => srcOk a && srcOk b && dstOk d && dstOk e
  | .renm a b d e => srcOk a && srcOk b && dstOk d && dstOk e
  | .loop a b d e t => srcOk a && srcOk b && dstOk d && dstOk e && tagOk t
  | .sloop a b d e t => srcOk a && srcOk b && dstOk d && dstOk e && tagOk t
  | .stree a b d e t => srcOk a && srcOk b && dstOk d && dstOk e && tagOk t
  | .eos a b d e t => srcOk a && srcOk b && dstOk d && dstOk e && tagOk t
  | .zip d e t => dstOk d && dstOk e && tagOk t
  | .mxmode a b d e t => srcOk a && srcOk b && dstOk d && dstOk e && tagOk t
  | .wload a b d e t => srcOk a && srcOk b && dstOk d && dstOk e && tagOk t
  | .mma a b d e t => srcOk a && srcOk b && dstOk d && dstOk e && tagOk t
  | .accrd a b d e t => srcOk a && srcOk b && dstOk d && dstOk e && tagOk t
  | .accz a b d e t => srcOk a && srcOk b && dstOk d && dstOk e && tagOk t
  | .scale a b d e t => srcOk a && srcOk b && dstOk d && dstOk e && tagOk t
  | .burst a b d e t => srcOk a && srcOk b && dstOk d && dstOk e && tagOk t
  | .mxexit a b d e t => srcOk a && srcOk b && dstOk d && dstOk e && tagOk t
  | .hist a b d e t => srcOk a && srcOk b && dstOk d && dstOk e && tagOk t
  | .hscan a b d e t => srcOk a && srcOk b && dstOk d && dstOk e && tagOk t
  | .rsel a b d e t => srcOk a && srcOk b && dstOk d && dstOk e && tagOk t
  | .mergek d e t => dstOk d && dstOk e && tagOk t
  | .topk a b d e t => srcOk a && srcOk b && dstOk d && dstOk e && tagOk t
  | .ld a b d e t => srcOk a && srcOk b && dstOk d && dstOk e && tagOk t
  | .st a b d e t => srcOk a && srcOk b && dstOk d && dstOk e && tagOk t
  | .ldx a b d e t => srcOk a && srcOk b && dstOk d && dstOk e && tagOk t
  | .stx a b d e t => srcOk a && srcOk b && dstOk d && dstOk e && tagOk t
  | .agset a b d e t => srcOk a && srcOk b && dstOk d && dstOk e && tagOk t
  | .lda a b d e t => srcOk a && srcOk b && dstOk d && dstOk e && tagOk t
  | .sta a b d e t => srcOk a && srcOk b && dstOk d && dstOk e && tagOk t
  | .pref a b d e t => srcOk a && srcOk b && dstOk d && dstOk e && tagOk t
  | .iwrite a b d e t => srcOk a && srcOk b && dstOk d && dstOk e && tagOk t
  | .iread a b d e t => srcOk a && srcOk b && dstOk d && dstOk e && tagOk t
  | .feset a b d e t => srcOk a && srcOk b && dstOk d && dstOk e && tagOk t
  | .feclr a b d e t => srcOk a && srcOk b && dstOk d && dstOk e && tagOk t
  | .gld a b d e t => srcOk a && srcOk b && dstOk d && dstOk e && tagOk t
  | .gst a b d e t => srcOk a && srcOk b && dstOk d && dstOk e && tagOk t
  | .sld a b d e t => srcOk a && srcOk b && dstOk d && dstOk e && tagOk t
  | .sst a b d e t => srcOk a && srcOk b && dstOk d && dstOk e && tagOk t
  | .igath a b d e t => srcOk a && srcOk b && dstOk d && dstOk e && tagOk t
  | .iscat a b d e t => srcOk a && srcOk b && dstOk d && dstOk e && tagOk t
  | .cpy a b d e t => srcOk a && srcOk b && dstOk d && dstOk e && tagOk t
  | .igathOrd a b d e t => srcOk a && srcOk b && dstOk d && dstOk e && tagOk t
  | .iscatOrd a b d e t => srcOk a && srcOk b && dstOk d && dstOk e && tagOk t
  | .aadd a b d e t => srcOk a && srcOk b && dstOk d && dstOk e && tagOk t
  | .amin a b d e t => srcOk a && srcOk b && dstOk d && dstOk e && tagOk t
  | .amax a b d e t => srcOk a && srcOk b && dstOk d && dstOk e && tagOk t
  | .aand a b d e t => srcOk a && srcOk b && dstOk d && dstOk e && tagOk t
  | .aor a b d e t => srcOk a && srcOk b && dstOk d && dstOk e && tagOk t
  | .axor a b d e t => srcOk a && srcOk b && dstOk d && dstOk e && tagOk t
  | .axchg a b d e t => srcOk a && srcOk b && dstOk d && dstOk e && tagOk t
  | .acas a b d e t => srcOk a && srcOk b && dstOk d && dstOk e && tagOk t
  | .aaddAcq a b d e t => srcOk a && srcOk b && dstOk d && dstOk e && tagOk t
  | .aminAcq a b d e t => srcOk a && srcOk b && dstOk d && dstOk e && tagOk t
  | .amaxAcq a b d e t => srcOk a && srcOk b && dstOk d && dstOk e && tagOk t
  | .aandAcq a b d e t => srcOk a && srcOk b && dstOk d && dstOk e && tagOk t
  | .aorAcq a b d e t => srcOk a && srcOk b && dstOk d && dstOk e && tagOk t
  | .axorAcq a b d e t => srcOk a && srcOk b && dstOk d && dstOk e && tagOk t
  | .axchgAcq a b d e t => srcOk a && srcOk b && dstOk d && dstOk e && tagOk t
  | .acasAcq a b d e t => srcOk a && srcOk b && dstOk d && dstOk e && tagOk t
  | .aaddRel a b d e t => srcOk a && srcOk b && dstOk d && dstOk e && tagOk t
  | .aminRel a b d e t => srcOk a && srcOk b && dstOk d && dstOk e && tagOk t
  | .amaxRel a b d e t => srcOk a && srcOk b && dstOk d && dstOk e && tagOk t
  | .aandRel a b d e t => srcOk a && srcOk b && dstOk d && dstOk e && tagOk t
  | .aorRel a b d e t => srcOk a && srcOk b && dstOk d && dstOk e && tagOk t
  | .axorRel a b d e t => srcOk a && srcOk b && dstOk d && dstOk e && tagOk t
  | .axchgRel a b d e t => srcOk a && srcOk b && dstOk d && dstOk e && tagOk t
  | .acasRel a b d e t => srcOk a && srcOk b && dstOk d && dstOk e && tagOk t
  | .fence a b d e t => srcOk a && srcOk b && dstOk d && dstOk e && tagOk t
  | .ordj a b d e t => srcOk a && srcOk b && dstOk d && dstOk e && tagOk t
  | .barw a b d e t => srcOk a && srcOk b && dstOk d && dstOk e && tagOk t
  | .bara a b d e t => srcOk a && srcOk b && dstOk d && dstOk e && tagOk t
  | .qwait a b d e t => srcOk a && srcOk b && dstOk d && dstOk e && tagOk t
  | .lodeq a b d e t => srcOk a && srcOk b && dstOk d && dstOk e && tagOk t
  | .rbind a b d e t => srcOk a && srcOk b && dstOk d && dstOk e && tagOk t
  | .rule a b d e t => srcOk a && srcOk b && dstOk d && dstOk e && tagOk t
  | .tins a b d e t => srcOk a && srcOk b && dstOk d && dstOk e && tagOk t
  | .tprobe a b d e t => srcOk a && srcOk b && dstOk d && dstOk e && tagOk t
  | .tprobeD a b d e t => srcOk a && srcOk b && dstOk d && dstOk e && tagOk t
  | .tprobeAll a b d e t => srcOk a && srcOk b && dstOk d && dstOk e && tagOk t
  | .tnot a b d e t => srcOk a && srcOk b && dstOk d && dstOk e && tagOk t
  | .round a b d e t => srcOk a && srcOk b && dstOk d && dstOk e && tagOk t
  | .fixq a b d e t => srcOk a && srcOk b && dstOk d && dstOk e && tagOk t
  | .rclose a b d e t => srcOk a && srcOk b && dstOk d && dstOk e && tagOk t
  | .tdel a b d e t => srcOk a && srcOk b && dstOk d && dstOk e && tagOk t
  | .tredr a b d e t => srcOk a && srcOk b && dstOk d && dstOk e && tagOk t
  | .tgrad a b d e t => srcOk a && srcOk b && dstOk d && dstOk e && tagOk t
  | .twit a b d e t => srcOk a && srcOk b && dstOk d && dstOk e && tagOk t
  | .eprog a b d e t => srcOk a && srcOk b && dstOk d && dstOk e && tagOk t
  | .edens a b d e t => srcOk a && srcOk b && dstOk d && dstOk e && tagOk t
  | .emode a b d e t => srcOk a && srcOk b && dstOk d && dstOk e && tagOk t
  | .name a b d e t => srcOk a && srcOk b && dstOk d && dstOk e && tagOk t
  | .claim a b d e t => srcOk a && srcOk b && dstOk d && dstOk e && tagOk t
  | .fulfil a b d e t => srcOk a && srcOk b && dstOk d && dstOk e && tagOk t
  | .abandon a b d e t => srcOk a && srcOk b && dstOk d && dstOk e && tagOk t
  | .clinv a b d e t => srcOk a && srcOk b && dstOk d && dstOk e && tagOk t
  | .clqry a b d e t => srcOk a && srcOk b && dstOk d && dstOk e && tagOk t
  | .task a b d e t => srcOk a && srcOk b && dstOk d && dstOk e && tagOk t
  | .tile a b d e t => srcOk a && srcOk b && dstOk d && dstOk e && tagOk t
  | .stageq a b d e t => srcOk a && srcOk b && dstOk d && dstOk e && tagOk t
  | .trap a b d e t => srcOk a && srcOk b && dstOk d && dstOk e && tagOk t
  | .resume a b d e t => srcOk a && srcOk b && dstOk d && dstOk e && tagOk t
  | .discard a b d e t => srcOk a && srcOk b && dstOk d && dstOk e && tagOk t
  | .kill a b d e t => srcOk a && srcOk b && dstOk d && dstOk e && tagOk t
  | .csrr a b d e t => srcOk a && srcOk b && dstOk d && dstOk e && tagOk t
  | .csrw a b d e t => srcOk a && srcOk b && dstOk d && dstOk e && tagOk t
  | .hcall a b d e t => srcOk a && srcOk b && dstOk d && dstOk e && tagOk t
  | .cfgld a b d e t => srcOk a && srcOk b && dstOk d && dstOk e && tagOk t
  | .save a b d e t => srcOk a && srcOk b && dstOk d && dstOk e && tagOk t
  | .restore a b d e t => srcOk a && srcOk b && dstOk d && dstOk e && tagOk t
  | .cfgfl a b d e t => srcOk a && srcOk b && dstOk d && dstOk e && tagOk t
  | .pgmig a b d e t => srcOk a && srcOk b && dstOk d && dstOk e && tagOk t
  | .scrub a b d e t => srcOk a && srcOk b && dstOk d && dstOk e && tagOk t
  | .retire a b d e t => srcOk a && srcOk b && dstOk d && dstOk e && tagOk t
  | .attest a b d e t => srcOk a && srcOk b && dstOk d && dstOk e && tagOk t
  | .tokenArrive el _ t => elOk el && tokOk t
  | .frameProbeEnd el => elOk el
  | .configMissServe el _ => elOk el
  | .missReplay el _ => elOk el
  | .cfgldEntry el _ => elOk el
  | .contextEvict el _ => elOk el
  | .signalRelease el => elOk el
  | .deferRelease el => elOk el
  | .memoryAnswer a => elOk a.el
  | .faultAnswer q _ _ => elOk q.el
  | .retryAnswer q => elOk q.el
  | .levelCreditRequest bk el _ _ _ => bkOk bk && elOk el
  | .poolRequest bk el _ _ _ => bkOk bk && elOk el
  | .levelCreditReturn w _ _ => bkOk w.bk && elOk w.el
  | .poolReturn w _ _ => bkOk w.bk && elOk w.el
  | .grantArrive el _ _ => elOk el
  | .cswRequest bk el _ => bkOk bk && elOk el
  | .regionWave bk => bkOk bk
  | .loopGeneratorEmit el => elOk el
  | .delayDue el => elOk el
  | .scaleTokenArrive el _ => elOk el
  | .groupLanding el => elOk el
  | .warmupDone el => elOk el
  | .burstTimeout el => elOk el
  | .slabCool el => elOk el
  | .routeSetup el _ => elOk el
  | .routeAccess dst _ q => elOk dst && elOk q.el
  | .stripeAccess q => elOk q.el
  | .rmwComplete el => elOk el
  | .waveRelease bk => bkOk bk
  | .indirectStreamCommand el _ => elOk el
  | .indirectLaneComplete el _ _ => elOk el
  | .copyPieceComplete el _ _ => elOk el
  | .lodeWave _ => true
  | .barrierRelease _ => true
  | .podWave _ => true
  | .fixqPass el _ => elOk el
  | .relationScanVisit el _ => elOk el
  | .relationSweepStep el _ => elOk el
  | .tupleInsertAtHome el _ => elOk el
  | .tupleDeleteAtHome el _ => elOk el
  | .probeAtHome el _ => elOk el
  | .roundAtMember el _ _ => elOk el
  | .closeAtMember el _ _ => elOk el
  | .rbindMember el _ _ => elOk el
  | .gradientStep el _ => elOk el
  | .pushSourceVisit el _ _ => elOk el
  | .pullVertexVisit el _ _ => elOk el
  | .edgeContributionCombine el _ _ => elOk el
  | .edensCount el _ _ => elOk el
  | .hostPacketWrite part _ _ => decide (part < 16)
  | .bridgeForward part _ => decide (part < 16)
  | .queueAccept _ => true
  | .stageFire bk => bkOk bk
  | .stageEntrySend el t => elOk el && tokOk t
  | .successorForward _ => true
  | .saveWrite el _ => elOk el
  | .translationRequest sd q => sdOk sd && elOk q.el
  | .pageWalkLevel sd => sdOk sd
  | .apertureStore q => elOk q.el
  | .tableApply sd _ => sdOk sd
  | .applyAck sd _ => sdOk sd
  | .apertureLoad q => elOk q.el
  | .peerAccess port q => decide (port < 16) && elOk q.el
  | .geodeSliceOperation sd _ => sdOk sd
  | .clinvSetStep sd _ => sdOk sd
  | .contextEndNotice sd _ part _ => sdOk sd && decide (part < 16)
  | .trapRecordDeliver el => elOk el
  | .handlerAnswerApply el _ => elOk el
  | .volwinBlockReceive sd _ _ => sdOk sd
  | .volwinRetryTimeout sd _ => sdOk sd
  | .volwinMessage sd _ _ _ => sdOk sd
  | .channelRequest sd _ q => sdOk sd && elOk q.el
  | .predecessorMark sd el _ => sdOk sd && elOk el
  | .channelReadReturn sd a => sdOk sd && elOk a.el
  | .refreshDue sd _ => sdOk sd
  | .rateStepDown sd _ => sdOk sd
  | .rateStepUp sd _ => sdOk sd
  | .rateSwitchEnd sd _ => sdOk sd
  | .patrolStep sd => sdOk sd
  | .channelRetirement sd _ el _ => sdOk sd && elOk el
  | .rebuildStep sd => sdOk sd
  | .guardZeroDone sd _ => sdOk sd
  | .engineCommand sd _ q _ => sdOk sd && elOk q.el
  | .fatikImageLoad sd _ => sdOk sd
  | .scaleoutFrameReceive port _ => decide (port < 16)
  | .scaleoutResendTimeout port => decide (port < 16)
  | .scaleoutPortDead port => decide (port < 16)
  | .reportFrame _ => true
  | .declareFrame _ _ => true
  | .hostBarAccess q => elOk q.el
  | .railOutOfTolerance _ => true
  | .thermalTrip => true
  | .supplyDroop bk => bkOk bk
  | .test _ => true
  | .fwload => true
  | .fwcheck => true
  | .fwapply => true
  | .bdload => true
  | .bdstart => true
  | .handover => true
  | .signerCheck part _ => decide (part < 16)
  | .signerClear part => decide (part < 16)
  | .attestReportSigned el _ => elOk el
  | .regionWrite _ => true
  | .windowWrite _ => true
  | .aflagsWrite _ => true
  | .srstateWrite _ => true
  | .lodeenWrite _ => true
  | .lodeLineWrite _ => true
  | .stagesWrite _ => true
  | .ptrootWrite _ => true
  | .guardWrite _ => true
  | .ratecfgWrite _ => true
  | .fatikImageWrite _ => true
  | .csrRegisterWrite _ => true
  | .powerDown => true
  | .laneRepair sd _ => sdOk sd
  | .copyCommand el _ => elOk el

end Sys2Proof
end

