-- ==== Sys2Proof/Tests/Slice0.lean ====
section
/-! SUPPORT. Tests on single steps and single words, and for each obligation a state and operands that meet its hypotheses. -/

section

-- One theorem after another: each in a thread of its own would ask for more memory than a check has.
set_option Elab.async false

open Sys2Proof Sys2Proof.Machine

namespace Sys2Proof.Tests

/-! ## Small states -/

/-- An image of 48 words: those listed, and else context 0 at HYP, one slot in use, a trap destination at element 0 and literals that are
all of type BITS. -/
def img (ws : List (Nat × DWord)) : Image :=
  (List.range 48).map fun i => match ws.find? fun p => p.1 == i with
    | some p => p.2
    | none => match i with | 0 => 0x0080000000000000 | 4 => 0x40000000 | 5 => 1 | 32 => 0x3333333333333333 | _ => 0

/-- An image whose slot 0 has a format byte. -/
def fmtImg (x : DWord) : Image := img [(42, x)]

/-- A scalar token of context 0 for slot 0: side, format and value. -/
def tk (side : Bool) (fmt : Nat) (v : DWord) : Tok := ⟨mkHdr 0 0 0 side fmt 1 0 false false false false, 1, 0, [v]⟩

/-- A run of context 0 for slot 0: side, format, valid word and lanes. -/
def rn (side : Bool) (fmt : Nat) (valid : BitVec 32) (vs : List DWord) : Tok :=
  ⟨mkHdr 0 0 0 side fmt vs.length 0 true false false false, valid, 0, vs⟩

/-- The set at issue in element 0, slot 0, over an element and a fabric. -/
def st (m : Image) (tag : DWord) (a b : Option Tok) (g : Element → Element := id) (h : Fabric → Fabric := id) : State :=
  { State.reset with fab := h { Fabric.reset with
      els := [(0, g { Element.reset with slots := [(0, ⟨0, m, false, 0, FailRec.empty⟩)] })], fire := ⟨0, 0, tag, 0, a, b, 0, 0⟩ } }

/-- The set at issue after DISCARD answered its trap (note 10). -/
def discarded (s : State) : State := { s with fab := { s.fab with fire := { s.fab.fire with note := 10 } } }

/-- Element 0 with block 0 anchoring itself: a region of one block, bound. -/
def bound (f : Fabric) : Fabric := f.modBlk 0 fun b => { b with regs := tset b.regs 0 0x80000000 }

/-- Nothing stops the firing (a decision procedure for `Clear`). -/
def clear (c : FCtx) : Bool :=
  c.stops.isNone && (c.elt.aftrap == 0) && !opensEntry c.img c.slot && (c.elt.commitOf c.ctx c.tag).isNone && !c.namesRoute && plainDst c c.d && plainDst c c.e

theorem clear_of (c : FCtx) (h : clear c = true) : Clear c := by
  simp [clear] at h
  exact ⟨h.1.1.1.1.1.1, h.1.1.1.1.1.2, h.1.1.1.1.2, h.1.1.1.2, h.1.1.2, h.1.2, h.2⟩

def ready (c : FCtx) : Bool := clear c && !c.granted

theorem ready_of (c : FCtx) (h : ready c = true) : Ready c := by
  simp [ready] at h
  exact ⟨clear_of c h.1, h.2⟩

/-- The firing of a state's set by a form on both tokens, with no destination. -/
abbrev fr (s : State) (op : Nat) : FCtx := firing s op 0 1 0x1F 0x1F 0

theorem ready_all (s : State) (ops : List Nat) (h : (ops.all fun op => ready (fr s op)) = true) : ∀ op ∈ ops, Ready (fr s op) := by
  intro op m
  exact ready_of _ (List.all_eq_true.mp h op m)

theorem ready_grid (l : List State) (ops : List Nat) (h : (l.all fun s => ops.all fun op => ready (fr s op)) = true) :
    ∀ s ∈ l, ∀ op ∈ ops, Ready (fr s op) := by
  intro s m
  exact ready_all s ops (List.all_eq_true.mp h s m)

end Sys2Proof.Tests

open Sys2Proof.Tests

/-! ## Witnesses of the arithmetic statements -/

namespace Sys2Proof.Tests

/-- Two scalars of a format. -/
def two (fmt : Nat) (a b : DWord) : State := st (fmtImg (w64 (17 * fmt))) 0 (some (tk false fmt a)) (some (tk true fmt b))

end Sys2Proof.Tests

theorem witness_IntegerFormsWrap : ∀ op ∈ [0x00, 0x01, 0x02, 0x04, 0x07, 0x08, 0x09, 0x0A], Ready (fr (two 0 0x7F 0x01) op) := ready_all _ _ (by decide)

/-- A zero divisor, and the least number divided by -1. -/
theorem witness_IntegerDivision : (∀ op ∈ [0x05, 0x06, 0x03], Ready (fr (two 0 0x80 0xFF) op)) ∧ (fr (two 0 0x80 0xFF) 5).ib 0 ≠ 0
    ∧ (∀ op ∈ [0x05, 0x06], Ready (fr (two 0 0x80 0) op)) ∧ (fr (two 0 0x80 0) 5).ib 0 = 0 :=
  ⟨ready_all _ _ (by decide), by decide, ready_all _ _ (by decide), by decide⟩

theorem witness_IntegerBitForms : ∀ op ∈ [0x0B, 0x0C, 0x0D, 0x0E, 0x0F, 0x10, 0x11, 0x12, 0x13, 0x14, 0x15, 0x16, 0x17, 0x18],
    Ready (fr (two 2 0x80000001 0x20) op) := ready_all _ _ (by decide)

/-- NaN, infinity, zero and finite operands of F32. -/
theorem witness_FloatArithmetic : (∀ op ∈ [0x28, 0x29, 0x2A, 0x31, 0x2B], Ready (fr (two 10 0x7F800000 0x80000000) op))
    ∧ (fr (two 10 0x7F800000 0x80000000) 0x28).fa 0 = .inf false ∧ (fr (two 10 0x7F800000 0x80000000) 0x28).fb 0 = .zero true
    ∧ (∀ op ∈ [0x28, 0x29, 0x2A, 0x31, 0x2B], Ready (fr (two 10 0x7F800001 0x3F800000) op)) ∧ (fr (two 10 0x7F800001 0x3F800000) 0x28).fa 0 = .nan true
    ∧ (fr (two 10 0x7F800001 0x3F800000) 0x28).ifmt.isFlt = true :=
  ⟨ready_all _ _ (by decide), by decide, by decide, ready_all _ _ (by decide), by decide, by decide⟩

/-- A negative number, a positive one, both zeros and both infinities of F32 under every function. -/
theorem witness_FloatFunctions : (∀ op ∈ [0x32, 0x33, 0x34, 0x35, 0x36, 0x37, 0x38], Ready (fr (two 10 0xC0000000 0) op))
    ∧ (∃ q : Q, (fr (two 10 0xC0000000 0) 0x32).fa 0 = .fin q ∧ q.n < 0) ∧ (fr (two 10 0x80000000 0) 0x32).fa 0 = .zero true
    ∧ (fr (two 10 0xFF800000 0) 0x32).fa 0 = .inf true ∧ (fr (two 10 0x7FC00000 0) 0x32).fa 0 = .nan false
    ∧ (fr (two 10 0xC0000000 0) 0x32).ifmt.isFlt = true :=
  ⟨ready_all _ _ (by decide), ⟨_, rfl, by decide⟩, by decide, by decide, by decide, by decide⟩

/-- Finite inputs: 4, 1/4 and 3/2. -/
theorem witness_FloatFunctions_finite :
    (let c := fr (two 10 0x40800000 0) 0x32
     c.ifmt.isFlt = true ∧ ∃ q : Q, c.fa 0 = .fin q ∧ 0 < q.n ∧ q.n % q.d = 0 ∧ 0 < q.d ∧ q.n = q.d * 2 ^ 2)
    ∧ (∃ q : Q, (fr (two 10 0x3E800000 0) 0x32).fa 0 = .fin q ∧ 0 < q.d ∧ q.n * 2 ^ 2 = q.d)
    ∧ (∃ q : Q, (fr (two 10 0x3FC00000 0) 0x32).fa 0 = .fin q ∧ q.n % q.d ≠ 0)
    ∧ (∀ s ∈ [0x40800000, 0x3E800000, 0x3FC00000].map fun v => two 10 v 0, ∀ op ∈ [0x32, 0x33, 0x34, 0x35, 0x36, 0x37, 0x38], Ready (fr s op)) :=
  ⟨⟨by decide, _, rfl, by decide⟩, ⟨_, rfl, by decide⟩, ⟨_, rfl, by decide⟩, ready_grid _ _ (by decide)⟩

theorem witness_FloatSelection : (∀ op ∈ [0x2C, 0x2D, 0x2E, 0x2F], Ready (fr (two 10 0x7FC00000 0x80000000) op))
    ∧ ∀ op ∈ [0x30, 0x39], Ready (fr (st (fmtImg 0xA2) 0 (some (tk false 10 0x7FC00000)) (some (tk true 10 0x80000000))) op) :=
  ⟨ready_all _ _ (by decide), ready_all _ _ (by decide)⟩

/-- The saturating forms, a float into I8, N8, F16, BF16, F32, B8 and FX64, and integers and FX64 into F32, F16, B8, FX64 and an integer. -/
theorem witness_SaturationAndConversion : (∀ op ∈ [0x1A, 0x1B, 0x1C, 0x1D, 0x1E, 0x1F, 0x20], Ready (fr (two 0 0x7F 0x7F) op))
    ∧ (∀ s ∈ [0xA0, 0xA4, 0xA8, 0xA9, 0xAA, 0xAB, 0xAE].map fun m => st (fmtImg m) 0 (some (tk false 10 0x3FC00000)) none,
        ∀ op ∈ [0x40, 0x41, 0x42, 0x43], Ready (fr s op))
    ∧ (∀ s ∈ [0x2A, 0x28, 0x2B, 0x2E, 0x26].map fun m => st (fmtImg m) 0 (some (tk false 2 0x80000000)) none,
        ∀ op ∈ [0x40, 0x41, 0x42, 0x43], Ready (fr s op))
    ∧ (∀ s ∈ [0xE0, 0xE2, 0xE8, 0xEA, 0xEB, 0xEE].map fun m => st (fmtImg m) 0 (some (tk false 14 0x180000000)) none,
        ∀ op ∈ [0x40, 0x41, 0x42, 0x43], Ready (fr s op)) :=
  ⟨ready_all _ _ (by decide), ready_grid _ _ (by decide), ready_grid _ _ (by decide), ready_grid _ _ (by decide)⟩

theorem witness_QuantAndKeys : (∀ s ∈ [0xA0, 0xAB].map fun m => st (fmtImg m) 0 (some (tk false 10 0x3FC00000)) (some (tk true 10 0x40000000)),
        ∀ op ∈ [0x44, 0x45, 0x46], Ready (fr s op))
    ∧ ([0x0080000000000000, 0x0080100000000000].all (fun w : DWord =>
        let c := fr (st (img [(0, w), (42, 0xB4)]) 0 (some (tk false 11 0x85)) none) 0x4B
        ready c && c.ifmt == .b8 && c.pin.signed == (w == 0x0080000000000000)) = true)
    ∧ Ready (fr (st (fmtImg 0xA6) 0 (some (tk false 10 0xBF800000)) none) 0x4B) ∧ Ready (fr (st (fmtImg 0x26) 0 (some (tk false 2 0x80000000)) none) 0x4B)
    ∧ (readInt .i32 0x80000000 < readInt .i32 0x7FFFFFFF) ∧ ltTotal (fread f32P 0x80000000) (fread f32P 0) = true :=
  ⟨ready_grid _ _ (by decide), by decide, ready_of _ (by decide), ready_of _ (by decide), by decide, by decide⟩

/-! ## Witnesses of the vector and steering statements -/

namespace Sys2Proof.Tests

/-- A run of four I32 lanes and another beside it. -/
def runs (fmt : Nat) (valid : BitVec 32) (a b : List DWord) : State :=
  st (fmtImg (w64 (17 * fmt))) 0 (some (rn false fmt valid a)) (some (rn true fmt valid b))

/-- A run of sixteen F32 lanes to be packed into MXB8 blocks of the length that K0 holds. -/
def packs (n : DWord) : State := st (img [(42, 0xAC), (24, n)]) 0 (some (rn false 10 0xFFFFFFFF (List.replicate 32 0x3F800000))) none

/-- A run of sixteen lanes of an MX format and its scale token. -/
def scaled (fmt : DWord) (fin : Nat) (v : BitVec 16) : State :=
  st (fmtImg fmt) 0 (some (rn false fin 0xFFFF (List.replicate 16 1))) none fun e => { e with scales := [⟨0, v, 0⟩] }

/-- A scalar of I32 beside a mask; D0 leads to element 0. -/
def steer (a b : Option Tok) : State := st (img [(42, 0x22), (34, 0x40000000)]) 0 a b

end Sys2Proof.Tests

/-- Four valid lanes, none, one and two; two F32 lanes. -/
theorem witness_VectorSums : (∀ s ∈ [0xF, 0, 4, 5].map fun v => runs 2 v [1, 2, 3, 4] [0, 0, 0, 0], ∀ op ∈ [0x50, 0x51, 0x52, 0x53], Ready (fr s op))
    ∧ (∀ op ∈ [0x50, 0x51, 0x52, 0x53], Ready (fr (runs 10 5 [1, 2, 3, 4] [0, 0, 0, 0]) op))
    ∧ (fr (runs 2 4 [1, 2, 3, 4] [0, 0, 0, 0]) 0x50).onLanes = [2] ∧ (fr (runs 10 5 [1, 2, 3, 4] [0, 0, 0, 0]) 0x50).onLanes = [0, 2] :=
  ⟨ready_grid _ _ (by decide), ready_all _ _ (by decide), by decide, by decide⟩

theorem witness_ScanEndsInSum : ∃ (c : FCtx) (h : Nat), c.len = 2 ^ h ∧ h ≤ 5 ∧ ∀ k, k < c.len → c.on k = true :=
  ⟨fr (runs 2 0xF [1, 2, 3, 4] [0, 0, 0, 0]) 0x50, 2, by decide, by decide, by decide⟩

theorem witness_VectorMoves : (∀ op ∈ [0x19, 0x54, 0x56, 0x57, 0x58], Ready (fr (runs 2 5 [1, 2, 3, 4] [3, 0, 9, 1]) op))
    ∧ (fr (runs 2 5 [1, 2, 3, 4] [3, 0, 9, 1]) 0x56).ifmt = (fr (runs 2 5 [1, 2, 3, 4] [3, 0, 9, 1]) 0x56).ofmt
    ∧ (let c := fr (two 2 7 32) 0x55
       Ready c ∧ (∀ x, c.tok c.a = some x → x.vec = false) ∧ c.intVal c.b = some 32 ∧ 32 * c.ofmt.width ≤ 1024 ∧ depth c.tag = 0) :=
  ⟨ready_all _ _ (by decide), by decide, ready_of _ (by decide), by decide, by decide, by decide, by decide⟩

theorem witness_ValidCount : ∀ s ∈ [0xF, 0, 4].map fun v => runs 2 v [1, 2, 3, 4] [0, 0, 0, 0], ∀ op ∈ [0x59], Ready (fr s op) :=
  ready_grid _ _ (by decide)

/-- Blocks of 16 and of 32 lanes to pack; scaled runs of both MX formats. -/
theorem witness_MxRuns : (∀ op ∈ [0x47, 0x48, 0x49], Ready (firing (packs 0x41800000) op 0 2 0x1F 0x1F 0) ∧ Ready (firing (packs 0x42000000) op 0 2 0x1F 0x1F 0))
    ∧ (firing (packs 0x41800000) 0x47 0 2 0x1F 0x1F 0).intVal 2 = some 16 ∧ (firing (packs 0x42000000) 0x47 0 2 0x1F 0x1F 0).intVal 2 = some 32
    ∧ (Ready (firing (scaled 0xCA 12 0x7F) 0x4A 0 0x1F 0x1F 0x1F 0) ∧ (firing (scaled 0xCA 12 0x7F) 0x4A 0 0x1F 0x1F 0x1F 0).takeScales = .ok (16, [0x7F], []))
    ∧ (Ready (firing (scaled 0xDD 13 0x27F) 0x85 0 0x1F 0x1F 0x1F 0) ∧ (firing (scaled 0xDD 13 0x27F) 0x85 0 0x1F 0x1F 0x1F 0).takeScales = .ok (16, [0x7F], []))
    ∧ Ready (fr (runs 2 5 [1, 2, 3, 4] [3, 0, 9, 1]) 0x85) := by
  refine ⟨?_, by decide, by decide, ⟨ready_of _ (by decide), rfl⟩, ⟨ready_of _ (by decide), rfl⟩, ready_of _ (by decide)⟩
  simp only [List.forall_mem_cons]
  exact ⟨⟨ready_of _ (by decide), ready_of _ (by decide)⟩, ⟨ready_of _ (by decide), ready_of _ (by decide)⟩,
    ⟨ready_of _ (by decide), ready_of _ (by decide)⟩, by simp⟩

/-- Runs and scalars to steer; FAN with bit 0 of b; EOS with 0 and 1; MRG with either token; ZIP, SINK. -/
theorem witness_Steering : (∀ op ∈ [0x60, 0x62, 0x64, 0x68, 0x65], Ready (fr (runs 2 7 [1, 2, 3, 4] [1, 0, 1, 1]) op))
    ∧ (Ready (fr (steer (some (tk false 2 7)) (some (tk true 2 1))) 0x63)
        ∧ ∀ j, j < 16 → ((fr (steer (some (tk false 2 7)) (some (tk true 2 1))) 0x63).vb 0).getLsbD j = true →
          destKind ((fr (steer (some (tk false 2 7)) (some (tk true 2 1))) 0x63).img.dest j) = 1)
    ∧ (Ready (fr (steer (some (tk false 2 7)) (some (tk true 2 1))) 0x7C) ∧ (fr (steer (some (tk false 2 7)) (some (tk true 2 1))) 0x7C).vb 0 = 1)
    ∧ Ready (fr (steer (some (tk false 2 7)) none) 0x61) ∧ Ready (fr (steer none (some (tk true 2 7))) 0x61)
    ∧ Ready (fr (steer (some (tk false 2 7)) (some (tk true 2 1))) 0x7D) :=
  ⟨ready_all _ _ (by decide), ⟨ready_of _ (by decide), by decide⟩, ⟨ready_of _ (by decide), by decide⟩, ready_of _ (by decide), ready_of _ (by decide),
    ready_of _ (by decide)⟩

/-! ## Witnesses of the statements about tags, loops and exits -/

namespace Sys2Proof.Tests

/-- A set at a depth of nesting, in an image with two levels of widths 4 and 8 in a bound region; b's token holds a value. -/
def nested (tag : DWord) (b : DWord) (g : Element → Element := id) : State :=
  st (img [(42, 0x66), (0, 0x0080000200000000), (1, 0x73)]) tag (some (tk false 6 0x100)) (some (tk true 6 b)) g bound

/-- Words in element memory. -/
def words (ws : List (Nat × DWord)) (e : Element) : Element := { e with mem := ws.foldl (fun m p => m.setWord p.1 p.2) e.mem }

/-- A firing's record in waiting. -/
def hasPlace (c : FCtx) : Bool := decide ((c.elt.pend.filter Pend.hasPlace).length < 32)

theorem hasPlace_of (c : FCtx) (h : hasPlace c = true) : HasPlace c := by
  unfold HasPlace
  exact of_decide_eq_true h

end Sys2Proof.Tests

/-- At depth 0 and 1; LEAVE, RETN, TSET and RENM at depth 2 and 1. -/
theorem witness_TagForms : (∀ op ∈ [0x70, 0x72], Clear (fr (nested 0x0010000000000005 0) op) ∧ HasPlace (fr (nested 0x0010000000000005 0) op))
    ∧ (∀ op ∈ [0x71, 0x73, 0x74, 0x75, 0x76], Ready (fr (nested 0x0020000000000125 1) op))
    ∧ (fr (nested 0x0020000000000125 1) 0x74).vec = false ∧ depth (fr (nested 0x0020000000000125 1) 0x75).tag = 2
    ∧ ((fr (nested 0x0020000000000125 1) 0x76).vb 0).toNat % 16 < depth (fr (nested 0x0020000000000125 1) 0x76).tag := by
  refine ⟨?_, ready_all _ _ (by decide), by decide, by decide, by decide⟩
  simp only [List.forall_mem_cons]
  exact ⟨⟨clear_of _ (by decide), hasPlace_of _ (by decide)⟩, ⟨clear_of _ (by decide), hasPlace_of _ (by decide)⟩, by simp⟩

/-- A chunk of 1 and of 32; one bitmap, two combined by AND; a two-level tree. -/
theorem witness_LoopHeaders :
    (let c := fr (nested 0 32) 0x78
     Clear c ∧ HasPlace c ∧ ChunkOk c)
    ∧ (let c := fr (nested 0 1 (words [(0x100, 0x0000000300000200), (0x108, 0x208), (0x200, 0xA), (0x208, 2)])) 0x79
       Clear c ∧ HasPlace c ∧ ChunkOk c ∧ sloopVals c (c.va 0).toNat = .ok [1, 3])
    ∧ (let c := fr (nested 0 1 (words [(0x100, 0x4000000300000200), (0x108, 0x208), (0x200, 0xA), (0x208, 2)])) 0x79
       Clear c ∧ HasPlace c ∧ ChunkOk c ∧ sloopVals c (c.va 0).toNat = .ok [1])
    ∧ (let c := fr (nested 0 1 (words [(0x100, 0x8000004700000000), (0x108, 0x0000800000000208), (0x200, 2), (0x208, 1), (0x210, 2)])) 0x7A
       Clear c ∧ HasPlace c ∧ ChunkOk c ∧ streeVals c (c.va 0).toNat = .ok [65]) := by
  refine ⟨⟨clear_of _ (by decide), hasPlace_of _ (by decide), ?_⟩, ⟨clear_of _ (by decide), hasPlace_of _ (by decide), ?_, by decide⟩,
    ⟨clear_of _ (by decide), hasPlace_of _ (by decide), ?_, by decide⟩, ⟨clear_of _ (by decide), hasPlace_of _ (by decide), ?_, by decide⟩⟩ <;>
    unfold ChunkOk <;> decide

namespace Sys2Proof.Tests
/-- An EXIT in slot 0 with a masked store elsewhere: the slot opens a commit entry. -/
def exits : State :=
  st (img [(42, 0x66), (0, 0x0080000000000002), (5, 3), (8, 0x90000000660047F0), (40, 0x40000000)]) 0 (some (tk false 6 7)) (some (tk true 6 0)) id bound
end Sys2Proof.Tests

theorem witness_ExitsAndDelays :
    (let c := firing exits 0x66 0 1 0x1F 0x1F 0
     c.stops = none ∧ c.elt.aftrap = 0 ∧ c.granted = false ∧ c.namesRoute = false ∧ opensEntry c.img c.slot = true ∧ bit c.img.stmask c.slot = false
       ∧ c.elt.commitOf c.ctx c.tag = none ∧ c.elt.commits.length < 32 ∧ (c.vb 0).toNat < c.img.exits ∧ destKind (c.img.dest (12 + (c.vb 0).toNat)) = 1
       ∧ isFatik c.el = false ∧ c.t ≠ 6 ∧ c.extFlags = 0)
    ∧ (∀ s ∈ [nested 0 0, nested 0 1023, nested 0 5000], ∀ op ∈ [0x69], Ready (fr s op))
    ∧ (let c := fr (nested 0 0) 0x67
       Clear c ∧ HasPlace c ∧ (nested 0 0).fab.anchorOf c.el = some 0) :=
  ⟨by decide, ready_grid _ _ (by decide), ⟨clear_of _ (by decide), hasPlace_of _ (by decide), by decide⟩⟩

/-! ## Witnesses of the slab and selection statements -/

namespace Sys2Proof.Tests

/-- A run with the control word of K0, in a slot format, over an element. -/
def slab (fmt : DWord) (fin : Nat) (k0 : DWord) (vs : List DWord) (g : Element → Element := id) : State :=
  st (img [(42, fmt), (24, k0)]) 0 (some (rn false fin (lanesMask vs.length) vs)) none g

/-- The slab on, in a format. -/
def onIn (n : BitVec 4) (e : Element) : Element := { e with mxOn := true, mxFmt := n }

/-- The firing of a run's set whose b is K0. -/
abbrev frK (s : State) (op : Nat) : FCtx := firing s op 0 2 0x1F 0x1F 0

theorem readyK_all (s : State) (ops : List Nat) (h : (ops.all fun op => ready (frK s op)) = true) : ∀ op ∈ ops, Ready (frK s op) := by
  intro op m
  exact ready_of _ (List.all_eq_true.mp h op m)

end Sys2Proof.Tests

theorem witness_SlabForms :
    (∀ op ∈ [0x80, 0x87, 0x84], Ready (frK (slab 0x22 2 0x2D [1, 2]) op)) ∧ SlabFmt (fld (frK (slab 0x22 2 0x2D [1, 2]) 0x80).ctl 3 0)
    ∧ (let c := frK (slab 0x88 8 3 (List.replicate 32 0x3C00) (onIn 8)) 0x81
       Ready c ∧ c.elt.mxOn = true ∧ c.fin = c.elt.mxFmt.toNat ∧ c.ifmt.isMx = false ∧ c.base + c.len ≤ 32)
    ∧ (let c := frK (slab 0x2A 2 0x9FFF [1]) 0x83
       Ready c ∧ c.passesF0 [c.d, c.e] (c.resultF0 c.accFirst) (fld c.ctl 12 8 + 1) = false ∧ c.ofmt = .f32)
    ∧ (∀ s ∈ [slab 0x22 2 0 [1] (onIn 0), slab 0x22 2 0x7FF [1] (onIn 0)], ∀ op ∈ [0x86], Ready (frK s op))
    ∧ (frK (slab 0x22 2 0 [1] (onIn 0)) 0x86).elt.mxOn = true :=
  ⟨readyK_all _ _ (by decide), by unfold SlabFmt; decide, ⟨ready_of _ (by decide), by decide⟩, ⟨ready_of _ (by decide), by decide⟩,
    fun s m => readyK_all s _ (by revert s; decide), by decide⟩

theorem witness_MatrixMultiply :
    let c := frK (slab 0x0A 0 0x0F (List.replicate 32 0x80) (onIn 0)) 0x82
    Ready c ∧ c.elt.mxOn = true ∧ c.fin = c.elt.mxFmt.toNat ∧ c.ifmt.isMx = false ∧ c.base % 16 = 0 ∧ c.len % 16 = 0 ∧ c.base + c.len ≤ 32 :=
  ⟨ready_of _ (by decide), by decide⟩

namespace Sys2Proof.Tests
/-- A histogram with two buckets filled, and the selection state. -/
def counts (e : Element) : Element := { e with hist := [(3, 2), (7, 4)], selctl := 0x83000000, selk := 5, selpfx := 0x123456 }
/-- Two selection lists of two entries each. -/
def lists : State := st (fmtImg 0x66) 0 (some (rn false 6 0xF [4, 9, 1, 8])) (some (rn true 6 0xF [2, 9, 4, 9]))
end Sys2Proof.Tests

theorem witness_SelectionForms :
    (let c := frK (slab 0x66 6 0 [0x12345607, 0x12345603] counts) 0x88
     Ready c ∧ bit (c.vb 0) 0 = false ∧ c.elt.selP < c.w / 8)
    ∧ (let c := frK (slab 0x46 4 3 [7, 3]) 0x88
       Ready c ∧ bit (c.vb 0) 0 = true ∧ 8 ≤ c.w)
    ∧ (let c := fr (st (fmtImg 0x66) 0 (some (tk false 6 7)) none counts) 0x89
       Ready c ∧ c.vec = false ∧ c.va 0 ≠ 0 ∧ c.elt.histTotal < (c.va 0).toNat ∧ c.elt.histTotal < 2 ^ 32)
    ∧ (let c := fr (st (fmtImg 0x66) 0 (some (tk false 6 6)) none counts) 0x89
       Ready c ∧ c.vec = false ∧ c.va 0 ≠ 0 ∧ (c.va 0).toNat ≤ c.elt.histTotal ∧ c.elt.selP < 8 ∧ (c.va 0).toNat < 2 ^ 32)
    ∧ (let c := frK (slab 0x66 6 0 [0x12345607, 0x12345603] fun e => { counts e with selctl := 0xC3000000 }) 0x8A
       Ready c ∧ c.elt.selP ≤ c.w / 8 ∧ c.elt.selShort = true)
    ∧ (let c := frK (slab 0x66 6 16 [5, 9, 9]) 0x8C
       Ready c ∧ 1 ≤ (c.vb 0).toNat ∧ (c.vb 0).toNat ≤ 16 ∧ c.w = 32 ∧ c.passesF0 [c.d] 0 (2 * (c.vb 0).toNat) = false)
    ∧ (let c := fr lists 0x8B
       Ready c ∧ c.vec = true ∧ c.len % 2 = 0 ∧ c.passesF0 [c.d] 0 c.len = false ∧ (∀ x ∈ c.entries 0 ++ c.entries 1, x.1 ≠ 0xFFFFFFFF)
         ∧ dedupe [] (c.entries 0 ++ c.entries 1) = .ok [(4, 9), (1, 8), (2, 9)]
         ∧ ∀ x ∈ c.entries 0 ++ c.entries 1, ∀ y ∈ c.entries 0 ++ c.entries 1, x.1 = y.1 → x.2 = y.2) :=
  ⟨⟨ready_of _ (by decide), by decide +kernel⟩, ⟨ready_of _ (by decide), by decide +kernel⟩, ⟨ready_of _ (by decide), by decide +kernel⟩, ⟨ready_of _ (by decide), by decide +kernel⟩,
    ⟨ready_of _ (by decide), by decide +kernel⟩, ⟨ready_of _ (by decide), by decide +kernel⟩, ⟨ready_of _ (by decide), by decide, by decide, by decide, by decide, rfl, by decide⟩⟩

/-! ## Witnesses of the memory statements -/

namespace Sys2Proof.Tests

/-- One stack in partition 0, whose table maps the first GiB to host memory for every privilege, writable. -/
def mapped (ws : List (Nat × DWord)) (f : Fabric) : Fabric :=
  { f with
    stackPart := (List.range 23).map fun i => (i + 1, 1)
    dies := [(0, { BaseDie.reset with regs := [(1, 1)], mem := Memory.setWord [] 0 0xE180000000000000 })]
    hostMem := ws.foldl (fun m p => m.setWord p.1 p.2) [] }

/-- A value on side A and an address on side B, in a slot format. -/
def access (fmt : DWord) (fin : Nat) (a b : DWord) (g : Element → Element := id) (h : Fabric → Fabric := id) : State :=
  st (fmtImg fmt) 0 (some (tk false fin a)) (some (tk true 7 b)) g h

/-- Windows 0 and 1: an I-structure of 64 words at 4096, and 4096 bytes of plain memory at 8192. -/
def windows (e : Element) : Element := { e with wins := [(0, 0xC0400001), (1, 0xA0800000)] }

/-- Word 5 of the I-structure. -/
def guardedWord (c : FCtx) : Prop := GuardedAccess c 0xC0400001 5

/-- Window 0 of element 1 is a route's target, and route 1 of element 0 leads there. -/
def routed (f : Fabric) : Fabric :=
  let f := mapped [(8, 0xC000000004000000)] { f with els := f.els ++ [(1, { Element.reset with wins := [(0, 0xA0400000)] })] }
  f.modBlk 0 fun b => { b with regs := tset b.regs 2 1 }

/-- A gathered firing waits under no route and with an answer place. -/
def goes (c : FCtx) : Bool := clear c && !c.granted && hasPlace c && !c.img.wave && decide (c.s.note ≠ 10)

theorem goes_of (c : FCtx) (h : goes c = true) : Clear c ∧ Fresh c ∧ c.granted = false ∧ HasPlace c ∧ c.img.wave = false := by
  simp [goes] at h
  exact ⟨clear_of c h.1.1.1.1, h.2, h.1.1.1.2, hasPlace_of c h.1.1.2, h.1.2⟩

end Sys2Proof.Tests

/-- A run at the top of element memory; an indexed scalar; generator 1 with room for two draws. -/
theorem witness_ElementMemory :
    (let c := firing (st (fmtImg 0x22) 0 (some (tk false 7 0x5FFF8)) (some (rn true 2 1 [1, 2]))) 0x90 0 1 0x1F 0x1F 0
     Ready c ∧ PlainAccess c fun k => c.ra.toNat + k * c.laneBytes)
    ∧ (let c := fr (st (fmtImg 0x77) 0 (some (tk false 7 0x100)) none) 0x92
       Ready c ∧ PlainAccess c fun k => c.ra.toNat + (c.base + k) * c.laneBytes)
    ∧ (∀ s ∈ [st (fmtImg 0x22) 0 (some (rn false 2 3 [8, 9])) (some (tk true 7 0x5FFF8))], ∀ op ∈ [0x91, 0x93], Ready (fr s op))
    ∧ (let c := fr (st (fmtImg 0x22) 0 (some (rn false 2 3 [8, 9])) (some (tk true 7 0x5FFF8))) 0x91
       PlainAccess c (fun k => c.rb.toNat + k * c.laneBytes) ∧ PlainAccess c fun k => c.rb.toNat + (c.base + k) * c.laneBytes)
    ∧ (let s := st (fmtImg 0x22) 0 (some (tk false 2 1)) (some (tk true 2 1)) fun e => { e with gens := [(1, ⟨0x0010000000800100, 1, 0, 0⟩)] }
       (∀ op ∈ [0x95, 0x96], Ready (fr s op)) ∧ (tget ⟨0, 0, 0, 0⟩ (fr s 0x95).elt.gens ((fr s 0x95).ra.toNat % 4)).draw (fr s 0x95).len
           = some ([256], ⟨0x0010000000800100, 1, 1, 0⟩)
         ∧ PlainAccess (fr s 0x95) fun k => (([256] : List Int).getD k 0).toNat)
    ∧ (let s := st (fmtImg 0x77) 0 (some (tk false 7 0x200)) (some (tk true 7 3)) (words [(0x200, 0x0010000000800100), (0x208, 1)])
       Ready (fr s 0x94) ∧ Fresh (fr s 0x94) ∧ (fr s 0x94).elt.windowAt (fr s 0x94).ra.toNat = none ∧ bit ((fr s 0x94).elt.mem.word (fr s 0x94).ra.toNat) 19 = false
         ∧ fld ((fr s 0x94).elt.mem.word ((fr s 0x94).ra.toNat + 8)) 43 1 = 0)
    ∧ (∀ op ∈ [0x90, 0x92, 0x95, 0x91, 0x93, 0x96], Ready (fr (discarded (two 2 0x100 0x101)) op)) ∧ (fr (discarded (two 2 0x100 0x101)) 0x90).s.note = 10
    ∧ (fr (discarded (two 2 0x100 0x101)) 0x90).ifmt.isMx = false :=
  ⟨⟨ready_of _ (by decide), by unfold PlainAccess; decide⟩, ⟨ready_of _ (by decide), by unfold PlainAccess; decide⟩, ready_grid _ _ (by decide),
    ⟨by unfold PlainAccess; decide, by unfold PlainAccess; decide⟩,
    ⟨ready_all _ _ (by decide), by decide, by unfold PlainAccess; decide⟩, ⟨ready_of _ (by decide), by decide⟩, ready_all _ _ (by decide), by decide, by decide⟩

/-- A full word to read and to clear, an empty one to write and to set. -/
theorem witness_GuardedWords :
    (let c := fr (st (fmtImg 0x77) 0 (some (tk false 7 5)) none fun e => words [(4160, 0x20), (4208, 99)] (windows e)) 0x99
     Ready c ∧ HandleIs c c.ra 0xC0400001 5 ∧ guardedWord c ∧ c.elt.istrFull 0xC0400001 5 = true)
    ∧ (let c := fr (st (fmtImg 0x77) 0 (some (tk false 7 77)) (some (tk true 7 5)) windows) 0x98
       Ready c ∧ HandleIs c c.rb 0xC0400001 5 ∧ guardedWord c ∧ c.elt.istrFull 0xC0400001 5 = false ∧ c.elt.storesPending c.ctx c.s.stamp = false
         ∧ ∀ x ∈ c.elt.defers, x.addr ≠ istrAddr 0xC0400001 5)
    ∧ (let c := fr (st (fmtImg 0x77) 0 (some (tk false 7 4208)) none windows) 0x9A
       Ready c ∧ guardedWord c ∧ fld c.ra 63 62 = 0 ∧ fld c.ra 56 0 = istrAddr 0xC0400001 5 ∧ c.elt.istrFull 0xC0400001 5 = false
         ∧ ∀ x ∈ c.elt.defers, x.addr ≠ istrAddr 0xC0400001 5)
    ∧ (let c := fr (st (fmtImg 0x77) 0 (some (tk false 7 4208)) none fun e => words [(4160, 0x20), (4208, 99)] (windows e)) 0x9B
       Ready c ∧ guardedWord c ∧ fld c.ra 63 62 = 0 ∧ fld c.ra 56 0 = istrAddr 0xC0400001 5 ∧ c.elt.istrFull 0xC0400001 5 = true) :=
  ⟨⟨ready_of _ (by decide), by unfold HandleIs; decide, by unfold guardedWord GuardedAccess; decide, by decide⟩,
    ⟨ready_of _ (by decide), by unfold HandleIs; decide, by unfold guardedWord GuardedAccess; decide, by decide⟩,
    ⟨ready_of _ (by decide), by unfold guardedWord GuardedAccess; decide, by decide⟩,
    ⟨ready_of _ (by decide), by unfold guardedWord GuardedAccess; decide, by decide⟩⟩

/-- Two lanes of a run to the home stack; a route in place; a stream and a copy. -/
theorem witness_RemoteMemory :
    (let s := st (fmtImg 0x22) 0 (some (tk false 7 0x10000)) (some (rn true 2 3 [1, 2])) id (mapped [])
     let c := fr s 0x9C
     (Clear c ∧ Fresh c ∧ c.granted = false ∧ HasPlace c ∧ c.img.wave = false) ∧ c.fin < 15 ∧ c.ifmt.isMx = false ∧ c.onLanes ≠ [] ∧ c.ra.toNat + 32 * c.laneBytes < 2 ^ 64
       ∧ ∀ k, k < c.len → c.on k = true → s.fab.vaStop c.el c.priv .load (decide (c.fin = 3) || decide (c.fin = 7)) c.laneBytes (c.ra.toNat + k * c.laneBytes) = none
         ∧ HomeIs s.fab c.part (c.ra.toNat + k * c.laneBytes) 0)
    ∧ (let s := st (fmtImg 0x22) 0 (some (rn false 2 3 [1, 2])) (some (tk true 7 0x10000)) id (mapped [])
     let c := fr s 0x9D
     (Clear c ∧ Fresh c ∧ c.granted = false ∧ HasPlace c ∧ c.img.wave = false) ∧ c.fin < 15 ∧ c.ifmt.isMx = false ∧ c.onLanes ≠ [] ∧ c.rb.toNat + 32 * c.laneBytes < 2 ^ 64
       ∧ ∀ k, k < c.len → c.on k = true → s.fab.vaStop c.el c.priv .store (decide (c.fin = 3) || decide (c.fin = 7)) c.laneBytes (c.rb.toNat + k * c.laneBytes) = none
         ∧ HomeIs s.fab c.part (c.rb.toNat + k * c.laneBytes) 0)
    ∧ (let s := access 0x77 7 0x10008 0 id (mapped [])
     let c := fr s 0x97
     (Clear c ∧ Fresh c ∧ c.granted = false ∧ HasPlace c ∧ c.img.wave = false) ∧ s.fab.vaStop c.el c.priv .pref false 1 c.ra.toNat = none ∧ HomeIs s.fab c.part c.ra.toNat 0
       ∧ c.fin ≠ 12 ∧ c.fin ≠ 13)
    ∧ (let s := access 0x22 2 0x80004 0 (fun e => { e with routes := [1] }) routed
     let c := fr s 0x9E
     (Clear c ∧ Fresh c ∧ c.granted = false ∧ HasPlace c ∧ c.img.wave = false) ∧ routeOk s.fab c.el (fld c.ra 30 19) = some 0xC000000004000000
       ∧ fld (0xC000000004000000 : DWord) 62 61 = 2 ∧ c.ra.toNat < 2 ^ 31 ∧ fld c.ra 18 0 % c.laneBytes = 0 ∧ c.fin < 15 ∧ c.onLanes ≠ []
       ∧ c.elt.routes.contains (fld c.ra 30 19) = true)
    ∧ (let s := access 0x22 2 9 0x80004 (fun e => { e with routes := [1] }) routed
     let c := fr s 0x9F
     (Clear c ∧ Fresh c ∧ c.granted = false ∧ HasPlace c ∧ c.img.wave = false) ∧ routeOk s.fab c.el (fld c.rb 30 19) = some 0xC000000004000000
       ∧ c.rb.toNat < 2 ^ 31 ∧ fld c.rb 18 0 % c.laneBytes = 0 ∧ c.fin < 15 ∧ c.onLanes ≠ [] ∧ c.elt.routes.contains (fld c.rb 30 19) = true)
    ∧ (∀ op ∈ [0xA0, 0xA1, 0xA3, 0xA4], goes (fr (access 0x22 2 1 1 id (mapped [])) op) = true
        ∧ (access 0x22 2 1 1 id (mapped [])).fab.home 0 (fld ((fr (access 0x22 2 1 1 id (mapped [])) op).img.lit 15) 29 0 * 65536) = some 0
        ∧ (fr (access 0x22 2 1 1 id (mapped [])) op).onLanes ≠ [])
    ∧ (let s := st (fmtImg 0x77) 0 (some (tk false 7 0x200)) none (words [(0x200, 0x8000000000010000), (0x208, 0x5FFF8), (0x210, 8), (0x218, 0)]) (mapped [])
     let c := fr s 0xA2
     (Clear c ∧ Fresh c ∧ c.granted = false ∧ HasPlace c ∧ c.img.wave = false) ∧ (∀ j, j < 4 → c.elt.windowAt (c.ra.toNat + 8 * j) = none)
       ∧ c.elt.mem.word c.ra.toNat = w64 (2 ^ 63 + 0x10000) ∧ c.elt.mem.word (c.ra.toNat + 8) = w64 0x5FFF8 ∧ c.elt.mem.word (c.ra.toNat + 16) = w64 8
       ∧ c.elt.mem.word (c.ra.toNat + 24) = 0 ∧ 0x5FFF8 + 8 ≤ Config.elemBytes ∧ s.fab.home c.part 0x10000 = some 0) := by
  refine ⟨⟨goes_of _ (by decide), ?_⟩, ⟨goes_of _ (by decide), ?_⟩, ⟨goes_of _ (by decide), ?_⟩, ⟨goes_of _ (by decide), ?_⟩, ⟨goes_of _ (by decide), ?_⟩,
    ?_, ⟨goes_of _ (by decide), ?_⟩⟩ <;> (try unfold HomeIs) <;> decide +kernel

/-- An atomic on the element's own memory and one on a virtual address, with order code 5 and no earlier store. -/
theorem witness_AtomicsIssue :
    (∀ x ∈ atomics, goes (fr (access 0x22 2 1 0x2800000000000100 id (mapped [])) x.1) = true
      ∧ goes (fr (access 0x22 2 1 0xA800000000010000 id (mapped [])) x.1) = true)
    ∧ (let s := access 0x22 2 1 0x2800000000000100 id (mapped [])
       let c := fr s 0xB8
       c.fin < 15 ∧ c.vec = false ∧ c.on 0 = true ∧ fld c.rb 61 59 < 6 ∧ c.elt.storesPending c.ctx c.s.stamp = false ∧ fld c.rb 63 62 = 0
         ∧ fld c.rb 56 0 % c.laneBytes = 0 ∧ fld c.rb 56 0 + c.laneBytes ≤ Config.elemBytes ∧ c.elt.windowAt (fld c.rb 56 0) = none ∧ c.elt.rmw.length < 3)
    ∧ (let s := access 0x22 2 1 0xA800000000010000 id (mapped [])
       let c := fr s 0xB8
       fld c.rb 63 62 = 2 ∧ s.fab.vaStop c.el c.priv (.atomic 0xB8 c.ifmt) false c.laneBytes (fld c.rb 56 0) = none ∧ HomeIs s.fab c.part (fld c.rb 56 0) 0) := by
  refine ⟨?_, ?_, ?_⟩
  · have h : (atomics.map (·.1)).all (fun op => goes (fr (access 0x22 2 1 0x2800000000000100 id (mapped [])) op)
        && goes (fr (access 0x22 2 1 0xA800000000010000 id (mapped [])) op)) = true := by decide +kernel
    intro x m
    have := List.all_eq_true.mp h x.1 (List.mem_map_of_mem m)
    simpa using this
  · decide +kernel
  · unfold HomeIs; decide +kernel

/-! ## Witnesses of the ordering statements -/

namespace Sys2Proof.Tests

/-- Line 0 a barrier and lines 1 and 2 QUIET, of partition 0, and the element enrolled on all. -/
def lines (f : Fabric) : Fabric := f.modBlk 0 fun b => { b with regs := [(0, 0x80000000), (0x40, 0x80000000), (0x41, 0xA0000000), (0x42, 0xA0000000)] }
def enrolled (e : Element) : Element := { e with lodeen0 := 7 }

/-- The set at issue later, with a mark. -/
def marked (note : Nat) (f : Fabric) : Fabric := { f with fire := { f.fire with stamp := 5, note := note, arg := 3 } }

/-- A record of the firing op that waits for one answer. -/
def waitRec (op : Nat) : Pend := { (mkCtx Fabric.reset 0 MSet.none op 0 1 0x1F 0x1F 0).pend with left := 1, store := isStoreForm op, scope := 0 }

/-- A scalar a of N32. -/
def one (v : DWord) (g : Element → Element := id) (h : Fabric → Fabric := id) : State := st (fmtImg 0x66) 0 (some (tk false 6 v)) none g h

end Sys2Proof.Tests

theorem witness_OrderForms :
    (let c := fr (one 5) 0xC0
     Ready c ∧ fld c.ra 2 0 ≤ 5 ∧ c.scopePending (fld c.ra 2 0) = false)
    ∧ (let c := fr (one 5 (fun e => { e with pend := [waitRec 0x9D] }) (marked 0)) 0xC0
       c.stops = none ∧ fld c.ra 2 0 ≤ 5 ∧ c.scopePending (fld c.ra 2 0) = true)
    ∧ Ready (fr (two 6 0 0) 0xC1)
    ∧ (let s := one 0 enrolled fun f => marked 0 (lines f)
       let c := fr s 0xC2
       c.stops = none ∧ LineIn s.fab c.el (fld c.ra 5 0) 0 ∧ c.elt.enrolled (fld c.ra 5 0) = true ∧ c.s.note = 0 ∧ c.elt.storesPending c.ctx c.s.stamp = false
         ∧ bit c.elt.arrived (fld c.ra 5 0) = false ∧ Ready (fr s 0xC3))
    ∧ (∀ op ∈ [0xC2, 0xC4], Ready (fr (one 0 enrolled fun f => marked 6 (lines f)) op) ∧ (fr (one 0 enrolled fun f => marked 6 (lines f)) op).s.note = 6)
    ∧ (let s := one 1 enrolled lines
       let c := fr s 0xC4
       c.stops = none ∧ LineIn s.fab c.el (fld c.ra 5 0) 1 ∧ c.s.note ≠ 6)
    ∧ (let c := fr (one 1 enrolled lines) 0xC5
       Ready c ∧ LineIn c.f c.el (fld c.ra 5 0) 1 ∧ bit c.ra 6 = false)
    ∧ (let c := fr (one 63 enrolled lines) 0xC5
       Ready c ∧ c.f.lineMine c.el (fld c.ra 5 0) = false) := by
  refine ⟨⟨ready_of _ (by decide), by decide⟩, by decide, ready_of _ (by decide), ⟨by decide, by unfold LineIn; decide, by decide, by decide, by decide,
    by decide, ready_of _ (by decide)⟩, ?_, ⟨by decide, by unfold LineIn; decide, by decide⟩, ⟨ready_of _ (by decide), by unfold LineIn; decide, by decide⟩,
    ⟨ready_of _ (by decide), by decide⟩⟩
  intro op m
  exact ⟨ready_all _ [0xC2, 0xC4] (by decide) op m, by revert op; decide⟩

/-! ## Witnesses of the relation statements -/

namespace Sys2Proof.Tests

/-- Four relations: 1, a set of vertices; 2, edges in two columns with an index; 3, vertices; 4, weighted by MINF. Their windows are the
windows 0 to 3 of element 0. -/
def rel1 : Rel := [0x0111080000000000, 0, 0, 0, 0, 0]
def rel2 : Rel := [0x02510C0800000000, 0, 0, 0, 0x10000, 2]
def rel3 : Rel := [0x0311081000000000, 0, 0, 0, 0, 0]
def rel4 : Rel := [0x041D081800000000, 0, 0, 0, 0, 0]

/-- The windows bound, with a live tuple 0 of weight 9 and DELTA in relation 1. -/
def bases (e : Element) : Element :=
  words [(4096, 0x0100007E40000000), (4160, 0), (4176, 0x8000000000000009), (4184, 0xFFFFFFFFFFFFFFFF), (8192, 0x0200007E40000000),
    (8256, 0x0000000100000000), (8272, 0x8000000000000004), (12288, 0x0300007E40000000), (16384, 0x0400007E40000000)]
    { e with wins := [(0, 0x80400000), (1, 0x80800000), (2, 0x80C00000), (3, 0x81000000)] }

/-- The relations bound, with an index of t edges: of its two vertices, vertex 0 leads to vertex 1. -/
def related (t : DWord) (f : Fabric) : Fabric :=
  { mapped [(0x10000, t), (0x10008, 0x0000000100000000), (0x10010, 0x0200000000000001), (0x10018, 0), (0x10020, 0x0200000000000001)] f with
    rels := [(1, rel1), (2, rel2), (3, rel3), (4, rel4)] }

/-- A scalar a under the control literal K0, with the relations bound. -/
def query (fmt : DWord) (fin : Nat) (k0 a : DWord) (g : Element → Element := id) (t : DWord := 1) : State :=
  st (img [(42, fmt), (24, k0)]) 0 (some (tk false fin a)) (some (tk true fin 0)) (fun e => g (bases e)) (related t)

/-- Relation 1 with its home at the next element, and a USER set that reads a tuple there, whose block's access table is zero. -/
def far1 : Rel := rel1.set 1 0x0100000000000000
def apart : State :=
  st (img [(0, 0), (42, 0x66), (24, 1)]) 0 (some (tk false 6 0x01000000)) none id fun f =>
    bound { f with els := f.els ++ [(elAt 1 0, bases Element.reset)], rels := [(1, far1)] }

/-- An edge program's descriptor at 0x200, in push or in pull mode. -/
def program (mode : DWord) : Element → Element := words [(0x200, 0x0102030000000000 ||| mode)]

end Sys2Proof.Tests

theorem witness_RelationRequests :
    (let c := fr (query 0x77 7 0 0x200 (words [(0x200, rel1.w 0)])) 0xC8
     Ready c ∧ HasPlace c ∧ Fresh c ∧ c.ra.toNat % 8 = 0 ∧ c.ra.toNat + 48 ≤ Config.elemBytes ∧ c.elt.mem.words c.ra.toNat 6 = rel1 ∧ rel1.bad = false ∧ rel1.members = 1
       ∧ rel1.memberEl 0 = some 0 ∧ c.f.partOf 0 = c.part ∧ winRole (tget 0 (c.f.el 0).wins rel1.win) = 4)
    ∧ (∀ op ∈ [0xC9, 0xD3], ready (fr (query 0x66 6 1 0) op) = true ∧ hasPlace (fr (query 0x66 6 1 0) op) = true)
    ∧ (TargetIs (fr (query 0x66 6 1 0) 0xC9) rel1 ∧ OwnMember (fr (query 0x66 6 1 0) 0xC9) rel1 0)
    ∧ (let c := fr (query 0x66 6 1 0x01000000) 0xCA
       Ready c ∧ HasPlace c ∧ TargetIs c rel1 ∧ c.vec = false ∧ ParentsAre c 0x01000000 noRef ∧ HeadOk c rel1 noRef)
    ∧ (let c := fr (query 0x77 7 1 0x01000000FFFFFFFF) 0xD2
       Ready c ∧ HasPlace c ∧ TargetIs c rel1 ∧ c.vec = false ∧ c.fin = 7 ∧ ParentsAre c 0x01000000 noRef ∧ HeadOk c rel1 noRef)
    ∧ (let c := fr (query 0x66 6 1 0x01000000) 0xD2
       Ready c ∧ HasPlace c ∧ c.fin = 6 ∧ (c.f.refAt c.part (fld (c.va 0) 31 0)).isSome = true)
    ∧ (∀ op ∈ [0xCF, 0xD1], ready (fr (query 0x66 6 1 0) op) = true ∧ hasPlace (fr (query 0x66 6 1 0) op) = true)
    ∧ (let c := fr (query 0xEE 14 4 0x01000000) 0xD4
       Ready c ∧ HasPlace c ∧ TargetIs c rel4 ∧ c.vec = false ∧ fld (c.va 0) 63 32 = 0 ∧ 3 ≤ rel4.alg)
    ∧ (∀ op ∈ [0xC8, 0xC9, 0xCA, 0xCF, 0xD1, 0xD2, 0xD3], ready (fr (discarded (query 0x66 6 1 0)) op) = true)
    ∧ ready (fr (discarded (query 0xEE 14 4 0x01000000)) 0xD4) = true := by
  refine ⟨⟨ready_of _ (by decide +kernel), hasPlace_of _ (by decide +kernel), by decide +kernel⟩, by decide +kernel, ⟨by unfold TargetIs; decide +kernel, ?_⟩,
    ⟨ready_of _ (by decide +kernel), hasPlace_of _ (by decide +kernel), by unfold TargetIs; decide +kernel, by decide +kernel, by unfold ParentsAre; decide +kernel,
      by unfold HeadOk; decide +kernel⟩,
    ⟨ready_of _ (by decide +kernel), hasPlace_of _ (by decide +kernel), by unfold TargetIs; decide +kernel, by decide +kernel, by decide +kernel,
      by unfold ParentsAre; decide +kernel, by unfold HeadOk; decide +kernel⟩,
    ⟨ready_of _ (by decide +kernel), hasPlace_of _ (by decide +kernel), by decide +kernel⟩, by decide +kernel,
    ⟨ready_of _ (by decide +kernel), hasPlace_of _ (by decide +kernel), by unfold TargetIs; decide +kernel, by decide +kernel⟩, by decide +kernel, by decide +kernel⟩
  exact ⟨by decide, by decide, fun k h => absurd h (Nat.not_lt_zero k), by decide +kernel⟩

theorem witness_ProbesAndPasses :
    (∀ op ∈ [0xCB, 0xCC, 0xCD, 0xCE, 0xD5], ready (fr (query 0x66 6 1 0x01000000) op) = true ∧ hasPlace (fr (query 0x66 6 1 0x01000000) op) = true)
    ∧ (let c := fr (query 0x66 6 1 0x01000000) 0xCB
       TargetIs c rel1 ∧ c.vec = false ∧ c.fin = 6 ∧ (∀ k, k < rel1.keyCols.length → probeSel c k < 4) ∧ ∀ k, k < rel1.arity → probeSel c k < 4)
    ∧ (let c := fr (query 0x66 6 1 0x01000000) 0xD5
       TargetIs c rel1 ∧ c.f.refMay c.el c.pend (fld (c.va 0) 31 0) = true)
    ∧ (let c := fr apart 0xD5
       Ready c ∧ HasPlace c ∧ TargetIs c far1 ∧ c.vec = false ∧ c.fin = 6 ∧ c.f.refMay c.el c.pend (fld (c.va 0) 31 0) = false)
    ∧ (let s := st (img [(42, 0x66), (24, 0x0201)]) 0 none none enrolled lines
       let c := fr s 0xD0
       c.stops = none ∧ LineIn s.fab c.el (fld c.control 5 0) 1 ∧ LineIn s.fab c.el (fld c.control 13 8) 1 ∧ fld c.control 13 8 ≠ fld c.control 5 0
         ∧ (s.fab.root (fld c.control 13 8)).running = false ∧ c.s.note ≠ 6 ∧ Fresh c)
    ∧ (let s := st (img [(42, 0x66), (24, 0x0201)]) 0 none none enrolled fun f => marked 6 (lines f)
       Ready (fr s 0xD0) ∧ (fr s 0xD0).s.note = 6)
    ∧ (∀ op ∈ [0xCB, 0xCC, 0xCD, 0xCE, 0xD0, 0xD5], ready (fr (discarded (query 0x66 6 1 0)) op) = true) :=
  ⟨by decide +kernel, ⟨by unfold TargetIs; decide +kernel, by decide +kernel⟩,
    ⟨by unfold TargetIs; decide +kernel, by decide +kernel⟩,
    ⟨ready_of _ (by decide +kernel), hasPlace_of _ (by decide +kernel), by unfold TargetIs; decide +kernel, by decide +kernel⟩, ⟨by decide, by unfold LineIn; decide, by unfold LineIn; decide, by decide⟩,
    ⟨ready_of _ (by decide), by decide⟩, by decide +kernel⟩

namespace Sys2Proof.Tests

/-- An edge descriptor is in order and holds these words and relations. -/
def describes (c : FCtx) (x : List DWord × Rel × Rel × Rel) : Bool := match c.edgeDesc with | .ok y => decide (y = x) | .error _ => false

theorem describes_of (c : FCtx) (x : List DWord × Rel × Rel × Rel) (h : describes c x = true) : c.edgeDesc = .ok x := by
  unfold describes at h
  split at h
  · rename_i e
    rw [e, of_decide_eq_true h]
  · cases h

/-- A result is the value given. -/
def isOk {ε α : Type} [DecidableEq α] (x : Except ε α) (y : α) : Bool := match x with | .ok z => decide (z = y) | .error _ => false

theorem okIs {ε α : Type} [DecidableEq α] (x : Except ε α) (y : α) (h : isOk x y = true) : x = .ok y := by
  cases x with
  | error => cases h
  | ok z => rw [of_decide_eq_true h]

end Sys2Proof.Tests

/-- A program with an edge, in both modes; with no edge; and its modes rewritten. -/
theorem witness_EdgePrograms :
    (let c := fr (query 0x77 7 0 0x200 (program 0)) 0xD8
     Ready c ∧ HasPlace c ∧ Fresh c ∧ c.edgeDesc = .ok ([0x0102030000000000, 0, 0, 0, 0, 0, 0, 0], rel1, rel2, rel3) ∧ c.f.edgeCount (c.f.engMaster c.el c.ctx) rel2 = .ok 1
       ∧ c.f.rel c.part 1 = some rel1)
    ∧ (let c := fr (query 0x77 7 0 0x200 (program 0x0000008000000000)) 0xD8
     Ready c ∧ HasPlace c ∧ Fresh c ∧ c.edgeDesc = .ok ([0x0102038000000000, 0, 0, 0, 0, 0, 0, 0], rel1, rel2, rel3) ∧ c.f.edgeCount (c.f.engMaster c.el c.ctx) rel2 = .ok 1
       ∧ c.f.rel c.part 3 = some rel3)
    ∧ (let c := fr (query 0x77 7 0 0x200 (program 0) 0) 0xD8
       Ready c ∧ Fresh c ∧ c.edgeDesc = .ok ([0x0102030000000000, 0, 0, 0, 0, 0, 0, 0], rel1, rel2, rel3) ∧ c.f.edgeCount (c.f.engMaster c.el c.ctx) rel2 = .ok 0)
    ∧ (let c := fr (query 0x77 7 0 0x200 (program 0)) 0xD9
       Ready c ∧ HasPlace c ∧ Fresh c ∧ c.edgeDesc = .ok ([0x0102030000000000, 0, 0, 0, 0, 0, 0, 0], rel1, rel2, rel3)
       ∧ c.f.edgeCount (c.f.engMaster c.el c.ctx) rel2 = .ok 1 ∧ c.f.rel c.part 1 = some rel1)
    ∧ (let c := fr (query 0x77 7 0 0x200 (program 0)) 0xDA
       Ready c ∧ c.ra.toNat % 8 = 0 ∧ c.ra.toNat + 64 ≤ Config.elemBytes ∧ Fresh c ∧ c.elt.windowAt c.ra.toNat = none ∧ fld c.rb 1 0 < 3)
    ∧ (∀ op ∈ [0xD8, 0xD9, 0xDA], ready (fr (discarded (query 0x77 7 0 0x200)) op) = true) := by
  refine ⟨⟨ready_of _ (by decide +kernel), hasPlace_of _ (by decide +kernel), by decide, describes_of _ _ (by decide +kernel), okIs _ _ (by decide +kernel), by decide +kernel⟩,
    ⟨ready_of _ (by decide +kernel), hasPlace_of _ (by decide +kernel), by decide, describes_of _ _ (by decide +kernel), okIs _ _ (by decide +kernel), by decide +kernel⟩,
    ⟨ready_of _ (by decide +kernel), by decide, describes_of _ _ (by decide +kernel), okIs _ _ (by decide +kernel)⟩,
    ⟨ready_of _ (by decide +kernel), hasPlace_of _ (by decide +kernel), by decide, describes_of _ _ (by decide +kernel), okIs _ _ (by decide +kernel), by decide +kernel⟩,
    ⟨ready_of _ (by decide +kernel), by decide +kernel⟩, by decide +kernel⟩

/-! ## Witnesses of the claim and task statements -/

namespace Sys2Proof.Tests

/-- The Geode on for block 0, over the map. -/
def geode (f : Fabric) : Fabric := (mapped [] f).modBlk 0 fun b => { b with regs := [(0, 0x80000000), (6, 0x80000000)] }

/-- A run of two lanes on a side, and the other operand, under the control literal K0. -/
def claims (k0 : DWord) (a b : Option Tok) : State := st (img [(42, 0x77), (24, k0)]) 0 a b id geode

/-- The name and the handle of the witnesses. -/
def theName : Tok := rn false 7 3 [0x0011D1000029B204, 0x0000000500000007]

/-- Stages 1 and 2 of two ports, depth 1 and four live firings, anchored in block 0. -/
def staged (f : Fabric) : Fabric :=
  (mapped [(0x40, 0xA001000000000000), (0x80, 0xA001000000000000)] f).modBlk 0 fun b => { b with regs := [(0, 0x80000000), (4, 1)] }

/-- A packet for stage 1 with one successor, port 1 of stage 2, and a tile handle. -/
def packet : Element → Element :=
  words [(0x200, 0x1400048000000000), (0x208, 7), (0x210, 8), (0x218, 9), (0x220, 0x0090000000000000), (0x300, 0x1000), (0x308, 0x10)]

/-- An element address on side A, under the control literal K0, over the stages. -/
def tasks (k0 a : DWord) (h : Fabric → Fabric := id) : State := st (img [(42, 0x77), (24, k0)]) 0 (some (tk false 7 a)) none packet fun f => h (staged f)

/-- Stage 1. -/
def stage1 : Stage := [0xA001000000000000, 0, 0, 0, 0, 0, 0, 0]

/-- Port 0 of stage 1 full, and a live firing 9 of stage 1 with one successor. -/
def busy (f : Fabric) : Fabric := f.modBlk 0 fun b => { b with places := [⟨1, 0, 0, [0, 0]⟩], lives := [⟨1, 9, [0x0090000000000000]⟩] }

end Sys2Proof.Tests

theorem witness_ClaimForms :
    (let c := fr (claims 1 (some (tk false 7 0x0000000500000007)) none) 0xE0
     Ready c ∧ bit c.control 0 = true ∧ c.vec = false ∧ GeodeOn c ∧ PairFits c 0)
    ∧ (let c := fr (claims 0 (some (rn false 7 3 [4, 5])) (some (rn true 7 3 [1, 2]))) 0xE0
       Ready c ∧ bit c.control 0 = false ∧ c.tok c.b = some (rn true 7 3 [1, 2]) ∧ GeodeOn c ∧ PairFits c (foldedDigest c 1))
    ∧ (∀ op ∈ [0xE1, 0xE5], Ready (fr (claims 0 (some theName) none) op)) ∧ hasPlace (fr (claims 0 (some theName) none) 0xE1) = true
    ∧ (let c := fr (claims 0 (some theName) none) 0xE1
       GeodeOn c ∧ bit c.control 4 = false ∧ c.tok c.a = some theName ∧ PairFits c 0)
    ∧ (let c := fr (claims 0 (some (tk false 7 3)) (some (rn true 7 3 [0x1000, 0x40]))) 0xE2
       Ready c ∧ HasPlace c ∧ GeodeOn c ∧ IdHere c ∧ c.tok c.b = some (rn true 7 3 [0x1000, 0x40]) ∧ c.elt.storesPending c.ctx c.s.stamp = false)
    ∧ (let c := fr (claims 0 (some (tk false 7 3)) none) 0xE3
       Ready c ∧ HasPlace c ∧ GeodeOn c ∧ IdHere c)
    ∧ (let c := fr (claims 0 (some (tk false 7 3)) (some (tk true 7 4))) 0xE4
       Ready c ∧ HasPlace c ∧ GeodeOn c ∧ bit c.control 4 = false ∧ c.f.sequencer c.part = some 0) := by
  refine ⟨⟨ready_of _ (by decide +kernel), by decide +kernel, by decide +kernel, by unfold GeodeOn; decide +kernel, by unfold PairFits; decide +kernel⟩,
    ⟨ready_of _ (by decide +kernel), by decide +kernel, by decide +kernel, by unfold GeodeOn; decide +kernel, by unfold PairFits; decide +kernel⟩,
    ready_all _ _ (by decide +kernel), by decide +kernel,
    ⟨by unfold GeodeOn; decide +kernel, by decide +kernel, by decide +kernel, by unfold PairFits; decide +kernel⟩,
    ⟨ready_of _ (by decide +kernel), hasPlace_of _ (by decide +kernel), by unfold GeodeOn; decide +kernel, by unfold IdHere; decide +kernel, by decide +kernel,
      by decide +kernel⟩,
    ⟨ready_of _ (by decide +kernel), hasPlace_of _ (by decide +kernel), by unfold GeodeOn; decide +kernel, by unfold IdHere; decide +kernel⟩,
    ⟨ready_of _ (by decide +kernel), hasPlace_of _ (by decide +kernel), by unfold GeodeOn; decide +kernel, by decide +kernel, by decide +kernel⟩⟩

/-- A port with room, a full one; a tile for port 1; counts; and a live firing to retire. -/
theorem witness_TaskForms :
    (let c := fr (tasks 0 0x200) 0xE8
     Ready c ∧ HasPlace c ∧ PacketAt c [0x1400048000000000, 7, 8, 9, 0x0090000000000000] ∧ StageIs c 1 stage1 ∧ c.f.hasRoom stage1 1 0 = true)
    ∧ (let c := fr (tasks 0 0x200 busy) 0xE8
       c.stops = none ∧ PacketAt c [0x1400048000000000, 7, 8, 9, 0x0090000000000000] ∧ StageIs c 1 stage1 ∧ c.f.hasRoom stage1 1 0 = false)
    ∧ (let c := fr (tasks 0x401 0x300) 0xE9
       Ready c ∧ HasPlace c ∧ fld c.control 31 12 = 0 ∧ fld c.control 11 10 = 1
         ∧ handleBad (c.elt.mem.word c.ra.toNat) (c.elt.mem.word (c.ra.toNat + 8)) = false ∧ StageIs c 1 stage1 ∧ 1 < stage1.ports ∧ c.f.hasRoom stage1 1 1 = true)
    ∧ (let c := fr (tasks 1 0 busy) 0xEA
       Ready c ∧ bit c.control 10 = false ∧ bit c.control 11 = false ∧ bit c.control 31 = false ∧ StageIs c (fld c.control 9 0) stage1)
    ∧ (let c := fr (tasks 0x300401 9 busy) 0xEA
       Ready c ∧ HasPlace c ∧ bit c.control 10 = true ∧ bit c.control 11 = false ∧ bit c.control 31 = false ∧ StageIs c (fld c.control 9 0) stage1 ∧ stage1.liveMax ≠ 0
         ∧ (c.f.blk stage1.anchor).lives.find? (fun l => decide (l.stage = fld c.control 9 0) && decide (l.seq.toNat = c.ra.toNat))
             = some ⟨1, 9, [0x0090000000000000]⟩
         ∧ fld c.control 30 12 = 0x300 ∧ c.elt.mem.words 0x300 2 = [0x1000, 0x10] ∧ handleBad 0x1000 0x10 = false) := by
  refine ⟨⟨ready_of _ (by decide +kernel), hasPlace_of _ (by decide +kernel), by unfold PacketAt; decide +kernel, by unfold StageIs; decide +kernel,
      by decide +kernel⟩,
    ⟨by decide +kernel, by unfold PacketAt; decide +kernel, by unfold StageIs; decide +kernel, by decide +kernel⟩,
    ⟨ready_of _ (by decide +kernel), hasPlace_of _ (by decide +kernel), by decide +kernel, by decide +kernel, by decide +kernel, by unfold StageIs; decide +kernel,
      by decide +kernel⟩,
    ⟨ready_of _ (by decide +kernel), by decide +kernel, by decide +kernel, by decide +kernel, by unfold StageIs; decide +kernel⟩,
    ⟨ready_of _ (by decide +kernel), hasPlace_of _ (by decide +kernel), by decide +kernel, by decide +kernel, by decide +kernel, by unfold StageIs; decide +kernel,
      by decide +kernel⟩⟩

/-! ## Witnesses of the system statements -/

namespace Sys2Proof.Tests

/-- N64 scalars a and b over the map. -/
def calls (a b : DWord) (note : Nat := 0) (h : Fabric → Fabric := id) : State :=
  st (fmtImg 0x77) 0 (some (tk false 7 a)) (some (tk true 7 b)) id fun f => marked note (h (mapped [] f))

/-- A CSRR of EL.AFLAGS while a load in MXB8 is out. -/
def owingState : FCtx :=
  fr (st (fmtImg 0x77) 0 (some (tk false 7 0x8008)) none (fun e => { e with pend := [{ waitRec 0x90 with fin := 12 }] }) fun f => marked 0 (mapped [] f)) 0xF4

/-- Block 0 bound, and hypervisor calls served at element 5. -/
def served (f : Fabric) : Fabric := f.modBlk 0 fun b => { b with regs := [(0, 0x80000000), (9, 0x40005000)] }

/-- A trap record of element 3 and context 1. -/
def record : Tok := rn false 7 7 [0x0100000000000000, 0x0100030000000000, 0]

/-- An area read back that leaves element 0 as it is. -/
def restores (f : Fabric) (bk sd off : Nat) : Bool := match readArea f bk sd off with | .ok x => decide (x.1.el 0 = f.el 0) | .error _ => false

theorem restores_of (f : Fabric) (bk sd off : Nat) (h : restores f bk sd off = true) : ∃ g n, readArea f bk sd off = .ok (g, n) ∧ g.el 0 = f.el 0 := by
  unfold restores at h
  split at h
  · rename_i x e
    exact ⟨x.1, x.2, e, of_decide_eq_true h⟩
  · cases h

end Sys2Proof.Tests

theorem witness_HandlerForms :
    (let s := st (fmtImg 0x77) 0 (some record) (some (tk true 7 9))
     (∀ op ∈ [0xF1, 0xF2], Ready (fr s op)) ∧ hasPlace (fr s 0xF1) = true ∧ RecordIn (fr s 0xF1) record
       ∧ MayReach (fr s 0xF1) ((fr s 0xF1).f.partOf (fld (record.lane 1) 55 40)) ∧ (fr s 0xF1).priv = 2)
    ∧ (let s := calls 3 0
       let c := fr s 0xF3
       let x := killNow s.fab c.part (fld c.ra 7 0) (c.el, c.id)
       Ready c ∧ HasPlace c ∧ (∀ t, c.tok c.a = some t → t.vec = false) ∧ c.f.privIn c.part c.el (fld c.ra 7 0) ≤ c.priv
         ∧ (∃ more, c.f.blksOf c.part = 0 :: more) ∧ x.1.agenda.contains (.regionWave 0) = false) := by
  refine ⟨⟨ready_all _ _ (by decide +kernel), by decide +kernel, by unfold RecordIn; decide +kernel, by unfold MayReach; decide +kernel, by decide +kernel⟩,
    ⟨ready_of _ (by decide +kernel), hasPlace_of _ (by decide +kernel), by decide +kernel, by decide +kernel, ⟨_, List.cons_head?_tail (by decide +kernel) |>.symm⟩,
      by decide +kernel⟩⟩

theorem witness_CallsAndRegisters :
    (let c := fr (calls 7 1) 0xF0
     c.stops = none ∧ Cause.ofCode (fld c.rb 7 0) = some .illegal ∧ c.s.note ≠ 2)
    ∧ (let c := fr (calls 7 0xFF) 0xF0
       c.stops = none ∧ Cause.ofCode (fld c.rb 7 0) = none ∧ c.s.note ≠ 2)
    ∧ (Ready (fr (calls 7 1 2) 0xF0) ∧ (fr (calls 7 1 2) 0xF0).s.note = 2)
    ∧ (let s := calls 7 1 0 served
       let c := fr s 0xF6
       c.stops = none ∧ c.s.note ≠ 8 ∧ c.elt.storesPending c.ctx c.s.stamp = false ∧ fld (s.fab.bk 0 9) 31 30 = 1)
    ∧ (Ready (fr (calls 7 1 8) 0xF6) ∧ (fr (calls 7 1 8) 0xF6).s.note = 8)
    ∧ (let c := fr (calls 0x8008 0) 0xF4
       Ready c ∧ CsrOpen c false 0 0 8 ∧ c.flagsOwed = [])
    ∧ (let c := owingState
       Ready c ∧ HasPlace c ∧ CsrOpen c false 0 c.el 8 ∧ c.flagsOwed ≠ [])
    ∧ (∀ n ∈ ([0x008, 0x009, 0x00A, 0x00C, 0x00D, 0x00E, 0x00F] : List Nat), ready (fr (calls (w64 (0x8000 + n)) 0) 0xF5) = true
        ∧ csrTarget 0 (w32 (0x8000 + n)) = some (0, 0) ∧ csrPriv 0 n = some (0, 0))
    ∧ (let c := fr (calls 0x2210 2) 0xF5
       Ready c ∧ HasPlace c ∧ CsrOpen c true 2 0 0x210 ∧ bit c.ra 15 = false) := by
  refine ⟨by decide +kernel, by decide +kernel, ⟨ready_of _ (by decide +kernel), by decide +kernel⟩, by decide +kernel,
    ⟨ready_of _ (by decide +kernel), by decide +kernel⟩,
    ⟨ready_of _ (by decide +kernel), ⟨by decide +kernel, by decide +kernel, by decide +kernel, by unfold MayReach; decide +kernel, by decide +kernel, by decide +kernel,
      ⟨0, 0, by decide, by decide +kernel⟩⟩, by decide +kernel⟩,
    ⟨ready_of _ (by decide +kernel), hasPlace_of _ (by decide +kernel), ⟨by decide +kernel, by decide +kernel, by decide +kernel, by unfold MayReach; decide +kernel,
      by decide +kernel, by decide +kernel, ⟨0, 0, by decide, by decide +kernel⟩⟩, by decide +kernel⟩, by decide +kernel,
    ⟨ready_of _ (by decide +kernel), hasPlace_of _ (by decide +kernel),
      ⟨by decide +kernel, by decide +kernel, by decide +kernel, by unfold MayReach; decide +kernel, by decide +kernel, by decide +kernel, ⟨1, 2, by decide, by decide +kernel⟩⟩, by decide +kernel⟩⟩

theorem witness_UpkeepForms :
    (∀ op ∈ [0xF7, 0xFA, 0xF8, 0xFB, 0xFC, 0xFD, 0xFE], Ready (fr (calls 0x200 0) op)) ∧ hasPlace (fr (calls 0x200 0) 0xF7) = true
    ∧ (let c := fr (calls 5 0) 0xFA
       Ready c ∧ bit c.ra 8 = false ∧ ∀ x ∈ c.f.els, ∀ y ∈ x.2.slots, y.2.ctx ≠ fld c.ra 7 0)
    ∧ (let c := fr (calls 1 0) 0xF8
       Ready c ∧ HasPlace c ∧ c.ra.toNat % 2 ^ 32 = 1 ∧ MayReach c (c.f.partOfBlk 1) ∧ AreaIs c 0 0 ∧ (c.f.blk 1).stopped = false ∧ blockOf c.el ≠ 1)
    ∧ (let c := fr (calls 1 0x2000000000 0 fun f => f.modBlk 1 fun b => { b with scrubbed := true }) 0xF9
       Ready c ∧ c.ra.toNat % 2 ^ 32 = 1 ∧ MayReach c (c.f.partOfBlk 1) ∧ AreaIs c 1 0 ∧ (c.f.blk 1).clear = true
         ∧ ∃ g n, readArea c.f 1 1 0 = .ok (g, n) ∧ g.el c.el = c.elt)
    ∧ (let c := fr (calls 0 0xE180000040000000) 0xFB
       Ready c ∧ HasPlace c ∧ c.f.home c.part c.ra.toNat = some 0 ∧ c.f.translate 0 c.part c.ra.toNat = some (0xE180000000000000, 30, [0])
         ∧ c.ra.toNat % 2 ^ 30 = 0 ∧ pteLost 0xE180000000000000 = false ∧ pteV c.rb = true ∧ pteLeaf c.rb = true ∧ pteWP c.rb = false
         ∧ c.f.pteBad 0 c.part (bitsLevel 30) c.rb = false ∧ fld (c.f.bd 0 0) 36 21 * 2 ^ 21 = 0)
    ∧ (let c := fr (calls 1 0) 0xFC
       fld c.ra 15 14 = 0 ∧ MayReach c (c.f.partOfBlk (fld c.ra 9 0)) ∧ bit (c.f.bk (fld c.ra 9 0) 0) 31 = false ∧ blockOf c.el ≠ fld c.ra 9 0 ∧ Ready c)
    ∧ (let c := fr (calls 0x4000 0) 0xFC
       fld c.ra 15 14 = 1 ∧ fld c.ra 4 0 < 24 ∧ MayReach c (c.f.partOfStack (fld c.ra 4 0)) ∧ (c.f.die (fld c.ra 4 0)).park = [] ∧ Ready c)
    ∧ (let c := fr (calls 0x1F00 0) 0xFD
       Ready c ∧ HasPlace c ∧ fld c.ra 4 0 < 24 ∧ MayReach c (c.f.partOfStack (fld c.ra 4 0)) ∧ c.f.inService (fld c.ra 4 0) (fld c.ra 12 8) = true
         ∧ c.f.inService (fld c.ra 4 0) 0 = true)
    ∧ (let c := fr (calls 0x200 0) 0xFE
       Ready c ∧ HasPlace c ∧ c.ra.toNat % 8 = 0 ∧ c.ra.toNat + 50368 ≤ Config.elemBytes ∧ c.f.agenda.countP isReport < 16) := by
  refine ⟨ready_all _ _ (by decide +kernel), by decide +kernel, ⟨ready_of _ (by decide +kernel), by decide +kernel⟩,
    ⟨ready_of _ (by decide +kernel), hasPlace_of _ (by decide +kernel), by decide +kernel, by unfold MayReach; decide +kernel, ?_, by decide +kernel⟩,
    ⟨ready_of _ (by decide +kernel), by decide +kernel, by unfold MayReach; decide +kernel, ?_, by decide +kernel, restores_of _ _ _ _ (by decide +kernel)⟩,
    ⟨ready_of _ (by decide +kernel), hasPlace_of _ (by decide +kernel), by decide +kernel⟩,
    ⟨by decide +kernel, by unfold MayReach; decide +kernel, by decide +kernel, by decide +kernel, ready_of _ (by decide +kernel)⟩,
    ⟨by decide +kernel, by decide +kernel, by unfold MayReach; decide +kernel, by decide +kernel, ready_of _ (by decide +kernel)⟩,
    ⟨ready_of _ (by decide +kernel), hasPlace_of _ (by decide +kernel), by decide +kernel, by unfold MayReach; decide +kernel, by decide +kernel, by decide +kernel⟩,
    ⟨ready_of _ (by decide +kernel), hasPlace_of _ (by decide +kernel), by decide +kernel⟩⟩ <;> unfold AreaIs MayReach <;> decide +kernel

/-! ## Witnesses of the event statements -/

namespace Sys2Proof.Tests

/-- An image in order, of context 1, that negates I32 scalars in slot 0. -/
def sealedImg : Image := img [(0, 0x0180000000000000), (8, 0x0707FFF0), (42, 0x22), (46, 0x00015B1E), (47, 0xb837877500000000)]

/-- A resident context: a form's word in slot 0 and a format. -/
def resident (w fmt : DWord) : Resident := ⟨0, img [(8, w), (42, fmt)], false, 0, FailRec.empty⟩

/-- An element 0 alone, in a bound block 0 in which contexts 0 and 1 are active. -/
def alone (e : Element) (h : Fabric → Fabric := id) : State :=
  { State.reset with fab := h { Fabric.reset with els := [(0, e)], blks := [(0, { Block.reset with regs := [(0, 0x80000000), (0x10, 3)] })] } }

/-- An element whose slot 0 holds a resident. -/
def holding (r : Resident) : Element := { Element.reset with slots := [(0, r)] }

/-- NEG reads one side, ADD two; MXUNPK takes scales. -/
def neg0 : Resident := resident 0x0707FFF0 0x22
def add0 : Resident := resident 0x00007FF0 0x22

/-- A trap record on its way to the sink. -/
def sinkTok : Tok := ⟨mkHdr 0 0 0 false 7 3 0 true false true true, 7, 0, [0, 0x0100000000000000, 0]⟩

/-- The record of a grant or loop header in waiting, with its number. -/
def pendRec (op : Nat) (g : Pend → Pend := id) : Pend := g { waitRec op with id := 7, left := 0, priv := 2 }

end Sys2Proof.Tests

namespace Sys2Proof.Tests

/-- The frame entry of context 0 at 0x400, of 16 places, and a count of 1 at side B of slot 0. -/
def framed (e : Element) (n : DWord := 0) : Element := words [(0, 0x80000400), (0x2000, n)] e

/-- ADD over runs at depth 1, a level of width 4, and two runs of four iterations: from 5 and from 7. -/
def addRuns : Resident := ⟨0, img [(0, 0x0080000200000000), (1, 0x73), (8, 0x00007FF0), (42, 0x22)], false, 0, FailRec.empty⟩
def runAt (side : Bool) (base : DWord) : Tok := { rn side 2 0xF [1, 2, 3, 4] with tag := 0x0010000000000000 + base }

/-- A store full of tokens of side A. -/
def fullStore (n : Nat) : List Waiting := (List.range n).map fun i => ⟨tk false 2 1, i⟩

/-- An element whose first frame place of the token's chain is taken. -/
def spilled (side : Bool) : Element :=
  ((framed (holding add0)).frameInsert add0.image 0x80000400 ⟨tk side 2 5, 0⟩ false).getD (holding add0)

end Sys2Proof.Tests

theorem witness_TokensArrive :
    (let f := (alone (holding neg0)).fab
     Arrives f 0 (tk false 2 9) neg0 ∧ PortOpen f 0 .packet (tk false 2 9) ∧ slotReads neg0.image (tk false 2 9).slot (!(tk false 2 9).side) = false)
    ∧ (let f := (alone { holding add0 with store := [⟨tk true 2 5, 0⟩] }).fab
     Arrives f 0 (tk false 2 9) add0 ∧ PortOpen f 0 .loopback (tk false 2 9) ∧ PairSlot add0 (tk false 2 9) ∧ (f.el 0).markerAt add0.image false 0 true 0 = none
       ∧ lowestOf (isPartner add0.image (relaxedAt add0 (tk false 2 9)) (tk false 2 9)) (f.el 0).store = some ⟨tk true 2 5, 0⟩)
    ∧ (let f := (alone (holding add0)).fab
     Arrives f 0 (tk false 2 9) add0 ∧ PortOpen f 0 .packet (tk false 2 9) ∧ PairSlot add0 (tk false 2 9) ∧ (f.el 0).markerAt add0.image false 0 true 0 = none
       ∧ lowestOf (isPartner add0.image (relaxedAt add0 (tk false 2 9)) (tk false 2 9)) (f.el 0).store = none
       ∧ frameUsable ((f.el 0).frameEntry 0) = false ∧ (f.el 0).entries < Config.storeEntries)
    ∧ (let f := (alone (holding add0)).fab
     f.killing 0 sinkTok.ctx = false ∧ (∀ o ∈ (f.el 0).offered, o.tok ≠ sinkTok) ∧ (f.el 0).sink.length < 16 ∧ (f.blk (blockOf 0)).stopped = false) := by
  refine ⟨⟨by unfold Arrives; decide, by unfold PortOpen; decide, by decide⟩, ⟨by unfold Arrives; decide, by unfold PortOpen; decide, by unfold PairSlot; decide, by decide⟩,
    ⟨by unfold Arrives; decide, by unfold PortOpen; decide, by unfold PairSlot; decide, by decide⟩, by decide⟩

/-- A run that waits, one that meets another, with the pieces of both, and a token whose frame is probed. -/
theorem witness_TokensArrive_runs :
    (let f := (alone { holding addRuns with store := [⟨runAt true 7, 0⟩] }).fab
     let t := runAt false 5
     Arrives f 0 t addRuns ∧ PortOpen f 0 .packet t ∧ RunSlot addRuns t ∧ (f.el 0).markerAt addRuns.image false 0 true t.tag = none
       ∧ lowestOf (isPartner addRuns.image true t) (f.el 0).store = some ⟨runAt true 7, 0⟩
       ∧ PartOf addRuns.image t 7 9 (cutTok addRuns.image t 7 9) ∧ PartOf addRuns.image (runAt true 7) 7 9 (cutTok addRuns.image (runAt true 7) 7 9)
       ∧ PiecesOf addRuns.image ⟨t, 0⟩ 7 9 [⟨cutTok addRuns.image t 5 7, 0⟩]
       ∧ PiecesOf addRuns.image ⟨runAt true 7, 0⟩ 7 9 [⟨cutTok addRuns.image (runAt true 7) 9 11, 0⟩]
       ∧ (f.el 0).store.count ⟨runAt true 7, 0⟩ = 1 ∧ NoProbe (f.el 0) t ∧ (f.el 0).entries < Config.storeEntries)
    ∧ (let f := (alone (holding addRuns)).fab
     Arrives f 0 (runAt false 5) addRuns ∧ RunSlot addRuns (runAt false 5) ∧ lowestOf (isPartner addRuns.image true (runAt false 5)) (f.el 0).store = none)
    ∧ (let f := (alone (spilled true)).fab
     Arrives f 0 (tk false 2 9) add0 ∧ PairSlot add0 (tk false 2 9) ∧ frameUsable ((f.el 0).frameEntry 0) = true
       ∧ (f.el 0).mem.readN (countAddr ((f.el 0).frameEntry 0) 0 true) 2 ≠ 0) := by
  refine ⟨⟨by unfold Arrives; decide, by unfold PortOpen; decide, by unfold RunSlot; decide, by decide, by decide, by unfold PartOf; decide, by unfold PartOf; decide,
      ⟨[_], [], rfl, ?_, ?_⟩, ⟨[], [_], rfl, ?_, ?_⟩, by decide, by unfold NoProbe; decide, by decide⟩,
    ⟨by unfold Arrives; decide, by unfold RunSlot; decide, by decide⟩, ⟨by unfold Arrives; decide +kernel, by unfold PairSlot; decide, by decide +kernel⟩⟩
  · rw [if_pos (by decide)]; exact ⟨_, by unfold PartOf; decide, rfl⟩
  · rw [if_neg (by decide)]
  · rw [if_neg (by decide)]
  · rw [if_pos (by decide)]; exact ⟨_, by unfold PartOf; decide, rfl⟩

/-- A full store, with and without a frame; one that parked tokens fill; a frame place free. -/
theorem witness_TokensArrive_spill :
    (∀ e ∈ [framed { holding add0 with store := fullStore 64 }, { holding add0 with store := fullStore 64 }],
      let f := (alone e).fab
      let t := tk false 2 9
      Arrives f 0 t add0 ∧ PortOpen f 0 .packet t ∧ (f.el 0).markerAt add0.image false 0 true 0 = none
        ∧ lowestOf (isPartner add0.image (relaxedAt add0 t) t) (f.el 0).store = none ∧ NoProbe (f.el 0) t ∧ Config.storeEntries ≤ (f.el 0).entries
        ∧ oldestOf (f.el 0).store = some ⟨tk false 2 1, 0⟩)
    ∧ (Element.frameInsert (framed (holding add0)) add0.image 0x80000400 ⟨tk false 2 1, 0⟩ false).isSome = true
    ∧ frameUsable ({ holding add0 with store := fullStore 64 }.frameEntry 0) = false
    ∧ (let f := (alone { holding add0 with parkedToks := (fullStore 64).map fun x => ⟨x.tok, .packet, x.stamp, .spillFull, 0, true⟩ }).fab
      Arrives f 0 (tk false 2 9) add0 ∧ PortOpen f 0 .packet (tk false 2 9) ∧ NoProbe (f.el 0) (tk false 2 9) ∧ Config.storeEntries ≤ (f.el 0).entries
        ∧ (f.el 0).store = [])
    ∧ ((framed (holding add0)).mem.wf = true ∧ frameUsable 0x80000400 = true ∧ (framed (holding add0)).frameCtl 0x80000400 (chainAt add0.image 0x80000400 (tk false 2 1) 0) % 2 = 0)
    ∧ ((spilled true).mem.wf = true ∧ (spilled true).frameCtl 0x80000400 (chainAt add0.image 0x80000400 (tk false 2 1) 0) % 2 = 1
      ∧ (spilled true).frameCtl 0x80000400 (chainAt add0.image 0x80000400 (tk false 2 1) 1) % 2 = 0) := by
  refine ⟨?_, by decide +kernel, by decide +kernel, ⟨by unfold Arrives; decide +kernel, by unfold PortOpen; decide +kernel, by unfold NoProbe; decide +kernel, by decide +kernel⟩, by decide +kernel, by decide +kernel⟩
  simp only [List.forall_mem_cons]
  exact ⟨⟨by unfold Arrives; decide +kernel, by unfold PortOpen; decide +kernel, by decide +kernel, by decide +kernel, by unfold NoProbe; decide +kernel, by decide +kernel⟩,
    ⟨by unfold Arrives; decide +kernel, by unfold PortOpen; decide +kernel, by decide +kernel, by decide +kernel, by unfold NoProbe; decide +kernel, by decide +kernel⟩, by simp⟩

namespace Sys2Proof.Tests
/-- Context 1 missed: a token of it is buffered, its frame's entry is good, and its directory names the image at 0x1000. -/
def missed : State :=
  alone (words [(0, 0x8000040000000000)] { Element.reset with missBuf := [⟨{ tk false 2 9 with tag := 0x0100000000000000 }, 0⟩] }) fun f =>
    (mapped ((512, 0x1001) :: (sealedImg.zipIdx.map fun x => (0x1000 + 8 * x.2, x.1))) f).modBlk 0 fun b =>
      { b with regs := [(0, 0x80000000), (1, 1), (0x10, 3)] }

/-- What CONFIG_MISS_SERVE needs of an element and a context, over the image. -/
def serves (f : Fabric) (el ctx slot entry : Nat) (m : Image) : Bool :=
  !isFatik el && !(f.blk (blockOf el)).stopped && ((f.el el).residentOf ctx).isNone && f.dirEntry el ctx == some entry
    && f.readImage (f.partOf el) entry == some m && m.ctx == ctx && entryOk ((f.el el).frameEntry ctx) && loadCheck f el m 2 == 0
    && (f.el el).victimSlot == some slot && (tfind (f.el el).slots slot).isNone
    && match ((f.install el slot m false).modEl el fun e => e.dropScales ctx).claimAll el ctx with
      | (g, none) => !((g.el el).heldToks ctx).isEmpty
      | (_, some _) => false
end Sys2Proof.Tests

set_option maxRecDepth 100000 in
theorem witness_ElementEvents :
    (let f := (alone { holding add0 with store := [⟨tk true 2 5, 0⟩], probes := [(⟨tk false 2 9, 1⟩, .packet)] }).fab
     (f.el 0).probes = [(⟨tk false 2 9, 1⟩, .packet)] ∧ (f.el 0).residentOf (tk false 2 9).ctx = some add0 ∧ (tk false 2 9).vec = false
       ∧ frameUsable ((f.el 0).frameEntry (tk false 2 9).ctx) = false
       ∧ lowestOf (isPartner add0.image (relaxedAt add0 (tk false 2 9)) (tk false 2 9)) (f.el 0).store = some ⟨tk true 2 5, 0⟩)
    ∧ (let f := (alone (holding add0)).fab
     isFatik 0 = false ∧ (f.blk (blockOf 0)).stopped = false ∧ (0, 0) ∉ (f.blk (blockOf 0)).misses ∧ (f.el 0).sink.length < 16 ∧ f.active (blockOf 0) 0 = true ∧ ((f.el 0).residentOf 0).isSome = true ∧ (f.el 0).busy 0 = false ∧ (∀ p ∈ (f.el 0).pend, p.accs = []))
    ∧ serves missed.fab 0 1 0 0x1000 sealedImg = true
    ∧ (let r := resident 0x4A07FFF0 0xCA
       let f := (alone (holding r)).fab
     f.killing 0 0 = false ∧ f.savedArea 0 = none ∧ (f.el 0).scales.length < 64 ∧ (f.el 0).residentOf 0 = some r ∧ takesScales r.image 0 = true)
    ∧ (let f := (alone { holding (resident 0x0707FFF0 0x77) with sink := [sinkTok] }).fab
     (f.el 0).sink = [sinkTok] ∧ (f.blk (blockOf 0)).stopped = false
       ∧ (f.el 0).sink.find? (f.el 0).deliverable = some sinkTok ∧ (f.el 0).sinkCtx sinkTok = some 0 ∧ Image.fin ((f.el 0).imageOf 0) sinkTok.slot = 7
       ∧ (((f.modEl 0 fun e => { e with sink := e.sink.erase sinkTok }).stampAccept 0 .signal { sinkTok with tag := w64 (0 * 2 ^ 56) }).el 0).ready.length ≤ 40) :=
  ⟨by decide, by decide, by decide +kernel, by decide, by decide⟩

/-- A probe that meets its partner in the frame, and one that meets none there. -/
theorem witness_ElementEvents_probe :
    (let f := (alone { spilled true with probes := [(⟨tk false 2 9, 1⟩, .stream)] }).fab
     let w := (f.el 0).frameEntry 0
     (f.el 0).probes = [(⟨tk false 2 9, 1⟩, .stream)] ∧ (f.el 0).residentOf 0 = some add0 ∧ frameUsable w = true
       ∧ FramePartner (f.el 0) add0.image w (relaxedAt add0 (tk false 2 9)) (tk false 2 9) (chainAt add0.image w (tk false 2 9) 0)
       ∧ (f.el 0).mem.wf = true ∧ chainAt add0.image w (tk false 2 9) 0 < 2 ^ frameBits w)
    ∧ (let f := (alone { spilled false with probes := [(⟨tk false 2 9, 1⟩, .stream)] }).fab
     (f.el 0).residentOf 0 = some add0 ∧ NoFramePartner (f.el 0) add0 (tk false 2 9)
       ∧ lowestOf (isPartner add0.image (relaxedAt add0 (tk false 2 9)) (tk false 2 9)) (f.el 0).store = none ∧ (f.el 0).entries < Config.storeEntries) :=
  ⟨⟨by decide +kernel, by decide +kernel, by decide +kernel, by unfold FramePartner; decide +kernel, by decide +kernel, by decide +kernel⟩,
    ⟨by decide +kernel, by unfold NoFramePartner FramePartner; decide +kernel, by decide +kernel, by decide +kernel⟩⟩

/-- The delay line's head early and due; a generator with a value left and at its end. -/
theorem witness_TimedEvents :
    (let g : LoopGen := ⟨pendRec 0x78 fun p => { p with tag := 0x0010000000000000, fin := 2, fout := 2 }, 0, 1, [8], 0⟩
     let f := (alone { Element.reset with
        landing := [[(3, 4)]], mxWarming := true, mxBurst := 1, delays := [(5, pendRec 0x69)], loops := [g]
        slots := [(0, ⟨0, img [(42, 0x22), (1, 3)], false, 0, FailRec.empty⟩)] }).fab
     (f.el 0).landing = [[(3, 4)]] ∧ (f.el 0).mxWarming = true ∧ (f.el 0).mxBurst ≠ 0 ∧ (f.el 0).delays = [(5, pendRec 0x69)] ∧ f.clock < 5
       ∧ (f.el 0).pendOf 7 = none ∧ (f.blk (blockOf 0)).stopped = false ∧ (f.el 0).loops.find? (fun g => decide (g.pend.phase ≠ 1)) = some g ∧ g.todo ≠ [] ∧ (f.el 0).pendOf g.pend.id = none
       ∧ (match loopToken ((f.el 0).imageOf g.pend.set.ctx) g with
         | .ok o => !isExitOut o && !isRouteOut ((f.el 0).imageOf g.pend.set.ctx) o
         | .error _ => false) = true)
    ∧ (let f := (alone { Element.reset with delays := [(0, pendRec 0x69)], loops := [⟨pendRec 0x78, 1, 1, [], 1⟩] }).fab
     (f.el 0).mxBurst = 0 ∧ (f.el 0).delays = [(0, pendRec 0x69)] ∧ 0 ≤ f.clock ∧ (f.el 0).pendOf 7 = none
       ∧ (f.el 0).loops.find? (fun g => decide (g.pend.phase ≠ 1)) = some ⟨pendRec 0x78, 1, 1, [], 1⟩) :=
  ⟨by decide +kernel, by decide +kernel⟩

/-! ## Witnesses: anchors, answers and saves -/

namespace Sys2Proof.Tests

/-- Element 0 with records in waiting, in a region whose anchor keeps context 0: credits 0 and 2 of bounds 3, and number 3 of a pool of 8 free. -/
def anchored (ps : List Pend) : Fabric :=
  (alone { Element.reset with pend := ps } fun f => f.modBlk 0 fun b => { b with anchors := [(0, ⟨[0, 2], 8, 2, 2, 0x77, 0x22, 8, false⟩)] }).fab

/-- The anchor's record. -/
def theAnchor : AnchorCtx := ⟨[0, 2], 8, 2, 2, 0x77, 0x22, 8, false⟩

/-- A set parked with a trap in slot 0 of element 0 by the word there, and the record of an answer to it. -/
def trapped (w : Nat := 0x0707FFF0) : Parked := ⟨⟨0, 0, 0, 0, some (tk false 2 9), none, 0, 0⟩, .trap, .format, 0, w⟩
def answering (op : Nat) : Pend := pendRec op fun p => { p with left := 1, args := [0, w64 (Cause.format.code * 2 ^ 56)] }

/-- An element with the parked set and the answering firing. -/
def answered (op : Nat) (r : Resident := neg0) (x : Parked := trapped) : Fabric :=
  (alone { holding r with parked := [x], pend := [answering op] }).fab

/-- A CFGLD at its first of two entries: the image at 0x1000 for slot 2 of element 1. -/
def loading (k : Nat) : Fabric :=
  (alone { holding (resident 0xF707FFF0 0x77) with pend := [pendRec 0xF7 fun p => { p with left := 1, phase := 1, base := 1, cur := k, a := 0x800 }] } fun f =>
    mapped ((0x808, 0x1000) :: (0x810, 0x20001) :: (sealedImg.zipIdx.map fun x => (0x1000 + 8 * x.2, x.1))) f).fab

/-- What CFGLD needs to load an entry. -/
def loads (f : Fabric) (el addr tgt slot : Nat) (p : Pend) (m : Image) : Bool :=
  f.ctlWords (f.partOf el) (p.a.toNat + 8 + 16 * p.cur) 2 == some [w64 addr, w64 (slot * 2 ^ 16 + tgt)] && f.partOf tgt == f.partOf el
    && f.readImage (f.partOf el) addr == some m && loadCheck f tgt m (Image.priv ((f.el el).imageOf p.set.ctx)) == 0
    && (tfind (f.el tgt).slots slot).isNone && !bit p.b 0 && !(f.blk (blockOf tgt)).stopped
    && match (((f.install tgt slot m (bit p.b 1)).dirWrite tgt m.ctx addr).modEl tgt fun e => e.dropScales m.ctx).claimAll tgt m.ctx with
      | (g, none) => ((g.el tgt).heldToks m.ctx).isEmpty
      | (_, some _) => false

/-- A SAVE of block 1 in waiting, with a token on its way into the block or none. -/
def saving (evs : List Ev) : Fabric :=
  (alone { Element.reset with pend := [pendRec 0xF8 fun p => { p with left := 1, a := 1 }] } fun f =>
    { f.modBlk 1 fun b => { b with stopped := true } with agenda := evs }).fab

end Sys2Proof.Tests

theorem witness_AnchorEvents :
    (let f := anchored [pendRec 0x70, pendRec 0x67 fun p => { p with id := 8, a := 4, left := 1 }]
     (f.el 0).pendOf 7 = some (pendRec 0x70) ∧ tfind (f.blk 0).anchors 0 = some theAnchor ∧ theAnchor.credits.getD (2 - 1) 0 ≠ 0
       ∧ theAnchor.credits.getD (1 - 1) 0 = 0 ∧ bit theAnchor.pool 3 = true ∧ (∀ k, k < 3 → bit theAnchor.pool k = false) ∧ (f.blk 0).held = []
       ∧ theAnchor.credits.getD (2 - 1) 0 < fld theAnchor.h2 (4 * 2 - 1) (4 * 2 - 4) + 1 ∧ 5 < theAnchor.poolSize ∧ bit theAnchor.pool 5 = false
       ∧ (pendRec 0x70).left = 0 ∧ (pendRec 0x70).accs = [] ∧ bit (4 : DWord) 16 = false ∧ bit (4 : DWord) 17 = false)
    ∧ Awaiting (anchored [pendRec 0x67]) 0 7 (pendRec 0x67) ∧ (anchored [pendRec 0x78]).el 0 = { Element.reset with pend := [pendRec 0x78] }
    ∧ ((anchored []).blk 0).csws = [] ∧ waveWanted (anchored []) 0 = false ∧ (∀ x ∈ (anchored []).els, ∀ p ∈ x.2.pend, p.op ≠ 0xF3) :=
  ⟨by decide, by unfold Awaiting; decide, by decide, by decide, by decide +kernel, by decide⟩

set_option maxRecDepth 100000 in
theorem witness_AnswersAndSaves :
    (let p := answering 0xF1
     let f := (alone { Element.reset with pend := [p] }).fab
     Awaiting f 0 7 p ∧ f.named p.trapRec = none)
    ∧ (Awaiting (answered 0xF1) 0 7 (answering 0xF1) ∧ (answered 0xF1).named (answering 0xF1).trapRec = some (.set trapped) ∧ trapped.set.note ≠ 5
       ∧ trapped.cause ≠ .hcall ∧ trapped.cause ≠ .arith ∧ (answered 0xF1).parkedOp (answering 0xF1).trapRec.el trapped = some 0x07)
    ∧ (answered 0xF1 neg0 (trapped 5)).parkedOp (answering 0xF1).trapRec.el (trapped 5) = none
    ∧ (Awaiting (answered 0xF2) 0 7 (answering 0xF2) ∧ (answered 0xF2).named (answering 0xF2).trapRec = some (.set trapped) ∧ trapped.set.note = 0
       ∧ (answered 0xF2).discardEnds (answering 0xF2).trapRec.el trapped = false)
    ∧ (let x := trapped 0x9007FFF0
     let f := answered 0xF2 (resident 0x9007FFF0 0x22) x
     Awaiting f 0 7 (answering 0xF2) ∧ f.named (answering 0xF2).trapRec = some (.set x) ∧ f.discardEnds (answering 0xF2).trapRec.el x = true)
    ∧ (∃ p, Awaiting (loading 0) 0 7 p ∧ p.phase ≠ 0 ∧ p.cur < p.base ∧ loads (loading 0) 0 0x1000 1 2 p sealedImg = true)
    ∧ (∃ p, Awaiting (loading 1) 0 7 p ∧ p.phase ≠ 0 ∧ p.base ≤ p.cur)
    ∧ (∃ p, Awaiting (saving [.tokenArrive 512 .packet (tk false 2 9)]) 0 7 p ∧ (saving [.tokenArrive 512 .packet (tk false 2 9)]).drained p.a.toNat = false)
    ∧ (∃ p, Awaiting (saving []) 0 7 p ∧ (saving []).drained p.a.toNat = true ∧ p.a = 1
        ∧ (∀ b ∈ (saving []).savedWith p.a.toNat, (saving []).drained b = true) ∧ (∀ x ∈ (saving []).listedEls 1, ((saving []).el x).pend = [] ∧ ((saving []).el x).loops = []) ∧ ∃ g n, writeArea (saving []) 1 p.base p.cnt = some (g, n)) := by
  refine ⟨⟨by unfold Awaiting; decide, rfl⟩, ⟨by unfold Awaiting; decide, rfl, by decide⟩, by decide, ⟨by unfold Awaiting; decide, rfl, by decide +kernel⟩,
    ⟨by unfold Awaiting; decide, rfl, by decide +kernel⟩,
    ⟨_, by unfold Awaiting; exact ⟨rfl, rfl, by decide⟩, by decide, by decide, by decide +kernel⟩,
    ⟨_, by unfold Awaiting; exact ⟨rfl, rfl, by decide⟩, by decide, by decide⟩,
    ⟨_, by unfold Awaiting; exact ⟨rfl, rfl, by decide⟩, by decide +kernel⟩,
    ⟨_, by unfold Awaiting; exact ⟨rfl, rfl, by decide⟩, by decide +kernel, by decide, by decide +kernel, by decide +kernel, ?_⟩⟩
  have h : (writeArea (saving []) 1 (waitRec 0xF8).base (waitRec 0xF8).cnt).isSome = true := by
    unfold writeArea
    rw [Option.isSome_map]
    decide +kernel
  obtain ⟨x, e⟩ := Option.isSome_iff_exists.mp h
  exact ⟨x.1, x.2, e⟩

/-! ## Witnesses: accesses, engines and lines -/

namespace Sys2Proof.Tests

/-- Element 0 with context 0 resident and one record of the number 7. -/
def holds (p : Pend) (h : Fabric → Fabric := id) : Fabric := (alone { holding neg0 with pend := [p] } h).fab

/-- A request of the record: its operation, bytes, address and datum. -/
def asks (op : ReqOp) (bytes addr : Nat) (data : DWord) : Req := ⟨0, 7, 0, 0, 0, 2, 0, op, bytes, addr, data, 0, 0, none, false, false, 0⟩

/-- A route access in waiting: two lanes of I32. -/
def routing : Pend := pendRec 0x9E fun p => { p with left := 2, args := [0, 0], vals := [0, 0], valid := 3, fin := 2, vec := true }

/-- A copy of 8 bytes that fills, and a stream of two lanes. -/
def filling (phase : Nat) : Pend := pendRec 0xA2 fun p => { p with phase := phase, left := 1, args := [8, 1], a := 5, b := 0x100 }
def streaming (phase : Nat) : Pend := pendRec 0x9F fun p => { p with phase := phase, left := 2, args := [0x100, 0x108] }

/-- Does the piece of the copy reach plain memory and get written there? -/
def pieceGoes (f : Fabric) (el : Nat) (p : Pend) : Bool :=
  match copyAt f el p p.b 0 true with
  | (g, .ok dst) => decide (dst ≠ .peer) && (match copyWrite g el p dst 0 with | .ok _ => true | .error _ => false)
  | _ => false

/-- The image of a Fatik element that negates I32 scalars, at 0x1000 of the map, selected for element 0 of stack 0. -/
def fatikImg : Image := img [(0, 0x0180004000000000), (8, 0x0707FFF0), (42, 0x22), (46, 0x00015B1E), (47, 1314630648253644800)]
def fatik (e : Element) : Fabric :=
  (alone Element.reset fun f =>
    let f := mapped (fatikImg.zipIdx.map fun x => (0x1000 + 8 * x.2, x.1)) f
    { f with els := [(65536, e)], dies := f.dies.map fun d => (d.1, { d.2 with regs := [(1, 1), (0x228, 0x1001)] }) }).fab

/-- Element 0 enrolled on the lines 0 to 2, line 3 PODQUIET; a root's data on one line. -/
def lined (e : Element) (n : Nat) (r : LodeRoot) : Fabric :=
  (alone { e with lodeen0 := 7 } fun f => { lines f with lode := [(n, r)] }).fab
def quiet : LodeRoot := { LodeRoot.reset with running := true, clean := 1 }
def podLine (f : Fabric) : Fabric := f.modBlk 0 fun b => { b with regs := [(0, 0x80000000), (0x40, 0xC0000000)] }
def aReport : Report := ⟨0, 0, true, 4, 4, none⟩

/-- A set of slot 0 parked on line 0 in the state `note`. -/
def onLine (note : Nat) : Parked := ⟨{ MSet.none with note := note, stamp := 5 }, .lode, .lode, 0, 0⟩

end Sys2Proof.Tests

/-- A load's last lane; a failed store that is not the last; a fault and a retry; routes, stripes, atomics and a wave. -/
theorem witness_AccessEvents :
    (let p := pendRec 0x92 fun p => { p with left := 1, vals := [0] }
     (Ans.mk 0 7 0 5 true false 0).el < 131072 ∧ ((holds p).el 0).pendOf 7 = some p ∧ p.phase = 0 ∧ p.isMx = false ∧ p.left = 1)
    ∧ (let p := pendRec 0x9D fun p => { p with left := 2, vals := [0, 0], args := [8, 16] }
     ((holds p).el 0).pendOf 7 = some p ∧ p.phase = 0 ∧ p.isMx = false ∧ p.store = true ∧ p.fail = false ∧ p.args.length = 2
       ∧ ((holds p).el 0).residentOf p.set.ctx = some neg0)
    ∧ (let p := pendRec 0x9C
     ((holds p).el 0).pendOf 7 = some p ∧ isFatik 0 = false ∧ isOrdered p.op = false
       ∧ ∀ x ∈ (holds p).dies, (asks .load 8 0 0, Cause.page, (0 : Word)) ∉ x.2.park)
    ∧ (let f := holds routing fun f => { f with els := f.els ++ [(1, { Element.reset with wins := [(0, 0xA0800000)] })] }
     let w := tget (0 : Word) (f.el 1).wins 0
     let a := winBase w + 16
     Local f (asks .load 4 16 0) ∧ (f.el 0).pendOf 7 = some routing ∧ (f.el 0).routeHeld 7 0 = false ∧ f.written 1 = false ∧ winRole w = 5 ∧ 16 < winLen w
       ∧ f.blkAllows (blockOf 1) 0 2 0 0 = true ∧ routing.left ≠ 0 ∧ routing.onLanes = [0, 1]
       ∧ ∀ k ∈ routing.onLanes, a + k * routing.bytes + routing.bytes ≤ winBase w + winLen w ∧ PlainAt (f.el 1) (a + k * routing.bytes) routing.bytes)
    ∧ (let f := holds (pendRec 0x9C)
     Local f (asks .load 8 0x3F0000000008 0) ∧ ∃ m a, f.stripeAt 0 ((asks .load 8 0x3F0000000008 0).addr % 2 ^ 40) = some (m, a) ∧ f.written m = false ∧ f.blkAllows (blockOf m) 0 2 0 0 = true ∧ PlainAt (f.el m) a 8)
    ∧ (let q := asks (.atomic 0 .i32) 4 0x100 3
     let f := holds (pendRec 0xB0) fun f => f.modEl 0 fun e => { e with rmw := [q] }
     let e := f.el 0
     Local f q ∧ e.rmw = [q] ∧ Fmt.i32 ≠ .f32 ∧ Fmt.i32.isInt = true ∧ q.bytes = Fmt.i32.width / 8 ∧ q.addr % q.bytes = 0 ∧ q.addr + q.bytes ≤ Config.elemBytes
       ∧ e.windowAt q.addr = none)
    ∧ (let p := pendRec 0x92
     let x : WaveAcc := ⟨0, 7, 0, 0, 0, true⟩
     let f := holds p fun f => f.modBlk 0 fun b => { b with buffer := [x], waveTab := [⟨0, 0, none, 0, 0, false⟩] }
     (∀ y ∈ f.els, ∀ p ∈ y.2.pend, p.phase ≠ 3001) ∧ (f.blk 0).buffer.find? (waveReady f (f.blk 0)) = some x ∧ (f.el 0).pendOf 7 = some p) := by
  refine ⟨by decide, by decide, by decide, ?_, ⟨by unfold Local; decide, _, _, rfl, by decide +kernel, by decide +kernel, by unfold PlainAt; decide +kernel⟩, by unfold Local; decide, by decide⟩
  refine ⟨by unfold Local; decide, by decide, by decide, by decide, by decide, by decide, by decide, by decide, by decide, ?_⟩
  unfold PlainAt
  decide +kernel

set_option maxRecDepth 100000 in
theorem witness_EngineEvents :
    (∀ p ∈ [filling 40, streaming 40], ((holds p).el 0).pendOf 7 = some p ∧ p.phase = 40 ∧ PlaceFree (holds p) 0 p)
    ∧ (((holds (streaming 41)).el 0).pendOf 7 = some (streaming 41) ∧ (streaming 41).cur.testBit 1 = false ∧ 1 < (streaming 41).left ∧ (streaming 41).op ≠ 0xA0)
    ∧ (let p := filling 41
     ((holds p).el 0).pendOf 7 = some p ∧ p.op = 0xA2 ∧ p.phase = 41 ∧ p.accs = [] ∧ p.cur < p.pieces ∧ p.gaveUp = false ∧ (holds p).copyPeer p = false ∧ p.args = [8, 1]
       ∧ p.cnt = 0 ∧ p.vals = [] ∧ pieceGoes (holds p) 0 p = true)
    ∧ (let f := fatik { Element.reset with slots := [(0, ⟨1, fatikImg, false, 0, FailRec.empty⟩)] }
     f.linkDead 0 = false ∧ f.dieAllows 0 0 2 0 3 = true ∧ f.fatikOpen 0 0 = true)
    ∧ (let f := fatik Element.reset
     (f.el (fatikKey 0 0)).idle = true ∧ bit (f.bd 0 0x228) 0 = true
       ∧ f.readImage (f.partOfStack 0) (fld (f.bd 0 0x228) 56 7 * 128) = some fatikImg ∧ loadCheck f (fatikKey 0 0) fatikImg fatikImg.priv = 0) := by
  refine ⟨?_, by decide, by decide +kernel, by decide +kernel, by decide +kernel, by decide +kernel, by decide +kernel, by decide +kernel⟩
  unfold PlaceFree
  decide +kernel

theorem witness_LineEvents :
    (let f := lined { Element.reset with arrived := 1 } 0 LodeRoot.reset
     lineV (f.rootLine 0) = true ∧ lineMode (f.rootLine 0) = 0 ∧ f.taps 0 = [0] ∧ bit (f.el 0).arrived 0 = true)
    ∧ (let f := lined Element.reset 0 LodeRoot.reset
     f.taps 0 = [0] ∧ bit (f.el 0).arrived 0 = false)
    ∧ (let e := { Element.reset with parked := [onLine 1], lodeen0 := 1 }
     e.parked = [onLine 1] ∧ (onLine 1).reason = .lode ∧ (onLine 1).on = 0 ∧ (onLine 1).set.note = 1 ∧ e.enrolled 0 = true)
    ∧ (let f := lined Element.reset 1 quiet
     (f.root 1).running = true ∧ lineV (f.rootLine 1) = true ∧ lineMode (f.rootLine 1) = 1 ∧ f.waveDirty 1 = false ∧ 1 ≤ (f.root 1).clean)
    ∧ (let f := lined { Element.reset with ready := [MSet.none], parked := [{ onLine 1 with on := 1 }] } 1 quiet
     (f.root 1).running = true ∧ lineV (f.rootLine 1) = true ∧ lineMode (f.rootLine 1) = 1 ∧ f.waveDirty 1 = true ∧ f.declWanted 1 = true)
    ∧ (let f := podLine (lined Element.reset 0 { quiet with podClean := 1, podSums := some (4, 4), reports := [(0, aReport)] })
     (f.root 0).running = true ∧ lineV (f.rootLine 0) = true ∧ lineMode (f.rootLine 0) = 2 ∧ (f.root 0).members = [] ∧ tfind (f.root 0).reports f.pkg = some aReport
       ∧ aReport.clean = true ∧ aReport.sent = aReport.recv ∧ 1 ≤ (f.root 0).podClean ∧ (f.root 0).podSums = some (aReport.sent, aReport.recv))
    ∧ (let f := lined Element.reset 0 LodeRoot.reset
     aReport.pass = none ∧ lineMode (f.rootLine aReport.line) ≠ 2 ∧ (tfind (f.root aReport.line).reports aReport.pkg).bind (·.pass) = none)
    ∧ (let f := podLine (lined { Element.reset with parked := [onLine 1] } 0 LodeRoot.reset)
     lineV (f.rootLine 0) = true ∧ lineMode (f.rootLine 0) = 2 ∧ (f.el 0).parked = [onLine 1] ∧ waitsDecl 0 (onLine 1) = true
       ∧ f.partOf 0 = linePart (f.rootLine 0) ∧ fieldOp (Image.instr ((f.el 0).imageOf (onLine 1).set.ctx) (onLine 1).set.slot) ≠ 0xC4)
    ∧ (let f := lined { holding neg0 with parked := [onLine 7] } 1 LodeRoot.reset
     (f.el 0).parked.find? (fun p => p.reason == .lode && decide (p.set.note = 7) && decide (p.set.stamp = 5)) = some (onLine 7)
       ∧ lineMode (f.rootLine (fld (Image.lit ((f.el 0).imageOf 0) 0) 13 8)) ≠ 2) :=
  ⟨by decide, by decide, by decide, by decide, by decide, by decide, by decide, by decide, by decide⟩

/-! ## Witnesses: relations and edge programs at their members -/

namespace Sys2Proof.Tests

/-- A relation 5 of BOOL, and relation 3 over two members. -/
def rel5 : Rel := [0x0503082000000000, 0, 0, 0, 0, 0]
def rel3b : Rel := [0x0311081000000000, 0x0000010000000000, 0, 0, 0, 0]

/-- Element 0 with the windows and a record: beside the tuples of `bases`, key 0 of relation 1 at its home with weight 9, key 7 of relation 5 at its home with
weight 5, and in relation 4 a base tuple 0 and a tuple 1 derived from it. -/
def members (p : Pend) (ws : List (Nat × DWord) := []) : Element :=
  let e := bases { holding neg0 with pend := [p] }
  words ([(20480, 0x0500007E40000000), (0x5780, 7), (0x5790, 0x8000000000000005), (0x5798, 0xFFFFFFFFFFFFFFFF), (0x1E30, 0x8000000000000009),
    (0x1E38, 0xFFFFFFFFFFFFFFFF), (16464, 0x800000003F800000), (16472, 0xFFFFFFFFFFFFFFFF), (16496, 0x800000003F800000), (16504, 0x04000000FFFFFFFF)] ++ ws)
    { e with wins := e.wins ++ [(4, 0x81400000)] }

/-- The relations bound for the record's firing. -/
def relating (p : Pend) (ws : List (Nat × DWord) := []) (h : Fabric → Fabric := id) : Fabric :=
  (alone (members p ws) fun f => let f := related 1 f; h { f with rels := f.rels ++ [(5, rel5)] }).fab

/-- The partition of relation n in element 0. -/
def part (n : Nat) : Member := ⟨0, 4096 * n, 126⟩

/-- A record of a relation form and of an edge form. -/
def relRec (op base : Nat) (a : DWord) (phase : Nat := 0) (vals : List DWord := []) : Pend :=
  pendRec op fun p => { p with base := base, a := a, b := w64 noRef, phase := phase, vals := vals, left := 1 }
def edgeRec (op : Nat) (v : DWord) (left : Nat := 1) : Pend :=
  pendRec op fun p => { p with a := 0x0102030000000000, b := 0x200, args := [0x0102030000000000, 0, 0, 0, 0, 0, 0, 0], vals := [v], left := left }

/-- The record's relation is r, and its member 0 is open to it. -/
def atPart (f : Fabric) (r : Rel) (n : Nat) (p : Pend) : Bool :=
  (f.el 0).pendOf 7 == some p && !p.grant && p.phase != endedPhase && f.rel (f.partOf 0) p.base == some r && f.member r 0 == some (part n) && f.engineMay 0 0 p && (f.el 0).mem.wf

theorem atPart_of (f : Fabric) (r : Rel) (n : Nat) (p : Pend) (h : atPart f r n p = true) :
    Stepping f 0 7 p ∧ AtPart f 0 p r 0 (part n) ∧ (f.el 0).mem.wf = true := by
  simp [atPart] at h
  exact ⟨⟨h.1.1.1.1.1.1, h.1.1.1.1.1.2, h.1.1.1.1.2⟩, ⟨h.1.1.1.2, h.1.1.2, h.1.2⟩, h.2⟩

/-- The sides of the edge program are the relations 1, 2 and v, and the member of relation n is open to it. -/
def atSide (f : Fabric) (v : Rel) (n : Nat) (r : Rel) (p : Pend) : Bool :=
  (f.el 0).pendOf 7 == some p && !p.grant && p.phase != endedPhase && edgeRels f 0 p == some (rel1, rel2, v) && f.member r 0 == some (part n) && f.engineMay 0 0 p

theorem atSide_of (f : Fabric) (v : Rel) (n : Nat) (r : Rel) (p : Pend) (h : atSide f v n r p = true) :
    Stepping f 0 7 p ∧ SidesAre f 0 p rel1 rel2 v ∧ AtSide f 0 p r 0 (part n) := by
  simp [atSide] at h
  exact ⟨⟨h.1.1.1.1.1, h.1.1.1.1.2, h.1.1.1.2⟩, h.1.1.2, h.1.2, h.2⟩

end Sys2Proof.Tests

/-- A live parent and none; a new key; a weight that adds nothing and one that does; deletions, probes and a closed relation. -/
theorem witness_TupleEvents :
    (([0x01000000, w64 noRef].all fun a : DWord => let p := relRec 0xCA 1 a
     let f := relating p
     atPart f rel1 1 p && p.phase == 0 && f.refMay 0 p p.a.toNat && f.refMay 0 p p.b.toNat && p.b.toNat == noRef
       && (f.entOf 0 p.a.toNat).live == decide (a = 0x01000000)) = true)
    ∧ (let p := relRec 0xCA 1 0 1 [7, 0, 9, 0]
     let f := relating p
     let x := part 1
     (homeMember rel1 (heldKey p) == 0 && atPart f rel1 1 p && !f.relClosed x && ((f.chainOf rel1 x (heldKey p)).1.find? (sameTuple (heldKey p))).isNone
       && (f.chainOf rel1 x (heldKey p)).2 == some 58 && decide ((f.relHdr x 2).toNat < 7 * x.cap / 8) && !badW rel1.alg (heldKey p).wt) = true)
    ∧ (([4, 2].all fun w : DWord => let p := relRec 0xCA 5 0 1 [7, 0, w, 0]
     let f := relating p
     let x := part 5
     let e := f.ent x 58
     homeMember rel5 (heldKey p) == 0 && atPart f rel5 5 p && !f.relClosed x && rel5.alg == 0
       && (f.chainOf rel5 x (heldKey p)).1.find? (sameTuple (heldKey p)) == some (58, e) && !e.retr && !e.susp
       && decide (e.wt ||| (heldKey p).wt = e.wt) == decide (w = 4)) = true)
    ∧ (([0, 1].all fun j => let p := { relRec 0xD2 1 (w64 (0x01000000 + j)) with fin := 6 }
     let f := relating p
     atPart f rel1 1 p && f.refAt 0 p.a.toNat == some (rel1, part 1, j) && !f.relClosed (part 1) && (f.ent (part 1) j).used == decide (j = 0)
       && !(f.ent (part 1) j).retr) = true)
    ∧ (([0xCB, 0xCE].all fun op => let p := relRec op 1 0x01000001
     let f := relating p
     atPart f rel1 1 p && f.refMay 0 p p.a.toNat && !(f.entOf 0 p.a.toNat).used) = true)
    ∧ (([0xCB, 0xCC, 0xCD].all fun op => let p := relRec op 5 0 1 [7, 0]
     let f := relating p
     homeMember rel5 (heldProbe p) == 0 && atPart f rel5 5 p && (f.chainOf rel5 (part 5) (heldProbe p)).1.length == 1) = true)
    ∧ (let p := relRec 0xCE 5 0 1 [8, 0]
     let f := relating p [(20480, 0x0500007EC0000000)]
     (homeMember rel5 (heldProbe p) == 0 && atPart f rel5 5 p && f.relClosed (part 5) && (f.chainOf rel5 (part 5) (heldProbe p)).1.isEmpty) = true) := by
  refine ⟨by decide +kernel, by decide +kernel, by decide +kernel, by decide +kernel, by decide +kernel, by decide +kernel, by decide +kernel⟩

/-- Does a scan report the entry? -/
def Sys2Proof.Tests.reports (p : Pend) (e : Ent) (rounds : Nat) : Bool := e.live && e.delta rounds && p.b == 0

theorem Sys2Proof.Tests.reports_iff (p : Pend) (e : Ent) (r : Nat) (h : p.op = 0xC9) (b : p.b = 0) : Reported p e r ↔ reports p e r = true := by
  simp [Reported, reports, h, b]

theorem witness_MemberEvents :
    (let p := { relRec 0xC8 1 0 with args := rel1 }
     let f := relating p
     (atPart f rel1 1 p && decide (0 < rel1.members) && rel1.memberEl 0 == some 0 && winRole (tget (0 : Word) (f.el 0).wins rel1.win) == 4
       && decide (rel1.members + rel1.ninit ≤ 1) && !rel1.dual) = true)
    ∧ (([0, 1, 126].all fun j => let p := { relRec 0xC9 1 0 with b := 0, cur := j }
     let f := relating p
     atPart f rel1 1 p && p.op == 0xC9 && p.b == 0 && (decide (j = 126) || reports p (f.ent (part 1) p.cur) (f.rounds (part 1)) == decide (j = 0))
       && decide ((part 1).cap ≤ p.cur) == decide (j = 126)) = true)
    ∧ (let f := relating (relRec 0xC9 1 0) [(4128, 3)]
     let w := tget (0 : Word) (f.el 0).wins 0
     (winRole w == 4 && min (f.relHdr ⟨0, winBase w, relCap w⟩ 4).toNat (relCap w) == 3 && (f.el 0).mem.wf) = true)
    ∧ (([1, 2].all fun l => let p := { relRec 0xCF 1 0 with left := l }
     let f := relating p
     atPart f rel1 1 p && f.relHdr (part 1) 4 == 0) = true)
    ∧ (([0, 1].all fun b : DWord => let p := { relRec 0xD1 1 0 with b := b }
     atPart (relating p) rel1 1 p && p.left == 1) = true)
    ∧ (([w64 noRef, 0x04000000, 0x04000001].all fun x : DWord => let p := { relRec 0xD4 4 0 with args := [x, 1, 0] }
     let f := relating p
     let j := x.toNat - 0x04000000
     atPart f rel4 4 p && f.refMay 0 p x.toNat && rel4.gbase == 0 && rel4.alg == 3
       && f.refAt 0 x.toNat == (if x = w64 noRef then none else some (rel4, part 4, j))
       && (decide (x = w64 noRef) || ((f.ent (part 4) j).used && decide ((f.ent (part 4) j).wit = 0xFFFFFFFFFFFFFFFF) == decide (x = 0x04000000)))) = true)
    ∧ (let p := { relRec 0xD4 4 0 with args := [] }
     (atPart (relating p) rel4 4 p && p.left == 1) = true) := by
  refine ⟨by decide +kernel, by decide +kernel, by decide +kernel, by decide +kernel, by decide +kernel, by decide +kernel, by decide +kernel⟩

/-! A finished member, a slot that is not live, and a source with an edge; a finished pull, a vertex of another member, and one with an in-edge. -/

theorem witness_EdgeEvents_push :
    (([0, 1, 126].all fun j : DWord => let p := edgeRec 0xD8 j
     let f := relating p
     let e := f.ent (part 1) j.toNat
     atSide f rel3 1 rel1 p && (decide (j ≠ 1) || !e.live) && (decide (j ≠ 0) || (e.live && e.delta (f.rounds (part 1))
       && !f.indexAway rel2 && isOk (indexRow (f.indexGet 0 p rel2) rel2 false (e.col 0)) [0x02000000] && (sourceContribs f 0 p.args rel1.alg e (mkRef rel1 0 0) [0x02000000]).isSome))) = true) := by decide +kernel

theorem witness_EdgeEvents_pull :
    (([1, 2].all fun i : DWord => let p := edgeRec 0xD8 i
     let f := relating p
     atSide f rel3 3 rel3 p && homeMember rel3 ⟨1, 0, 0, 0, 0⟩ == 0 && rel2.nv == 2 && isOk (indexRow (f.indexGet 0 p rel2) rel2 true 1) [0x02000000] && (f.lookup rel3 1).isNone
       && (match pullBest f 0 p.args rel1 1 [0x02000000] none with
          | some (some c) => match combineAt f 0 p rel3 c with | .ok _ => true | .error _ => false
          | _ => false)) = true) := by decide +kernel

theorem witness_EdgeEvents_pullAway :
    (let p := edgeRec 0xD8 0
     let f := relating p [] fun f => { f with rels := tset f.rels 3 rel3b, els := f.els ++ [(64, words [(12288, 0x0300407E40000000)] { Element.reset with wins := [(2, 0x80C00000)] })] }
     (atSide f rel3b 3 rel3b p && homeMember rel3b ⟨0, 0, 0, 0, 0⟩ == 1) = true) := by decide +kernel

theorem witness_EdgeEvents_combine :
    (let p := edgeRec 0xD8 0 2
     let f := relating p
     let c : Contrib := ⟨1, 5, 0x01000000, 0x02000000⟩
     (atSide f rel3 3 rel3 p && homeMember rel3 ⟨1, 0, 5, 0, 0⟩ == 0
       && (match f.insert 0 rel3 0 (part 3) ⟨1, 0, 5, 0, 0⟩ 0x0100000002000000 false true (f.rounds (part 3) + 1) c.src 3 p.slotW with
          | .ok _ => true | .error _ => false)) = true) := by decide +kernel

theorem witness_EdgeEvents_density :
    (([1, 2].all fun l => let p := edgeRec 0xD9 0 l
     let f := relating p
     atSide f rel3 1 rel1 p && !f.indexAway rel2 && p.phase != countedPhase && (densityOf f (f.indexGet 0 p rel2) rel2 (part 1) (List.range 126)).toOption.isSome
       && isOk (f.indexGet 0 p rel2 (Rel.idx rel2)) 1
       && p.b.toNat % 8 == 0 && decide (p.b.toNat + 16 ≤ Config.elemBytes) && (f.el 0).windowAt p.b.toNat == none && (f.el 0).windowAt (p.b.toNat + 8) == none) = true) := by decide +kernel

theorem witness_EdgeEvents_modes : fld (0x2000000000 : DWord) 37 36 = 2 ∧ fld (0xA000000000 : DWord) 37 36 = 2 ∧ fld (0x2000000000 : DWord) 39 39 = 0 := by decide

/-! ## Witnesses: queues and stages -/

namespace Sys2Proof.Tests

/-- Stages 1 and 2 of `staged`, and stage 3 of one port with an entry for element 0. -/
def stages (h : Fabric → Fabric := id) : Fabric :=
  (alone Element.reset fun f =>
    let f := (mapped [(0x40, 0xA001000000000000), (0x80, 0xA001000000000000), (0xC0, 0x8000008000000000), (0xC8, 0x400000001C000000)] f)
    h (f.modBlk 0 fun b => { b with regs := [(0, 0x80000000), (4, 1)] })).fab

/-- The packet of `packet`, and its item of the host bridge. -/
def thePacket : List DWord := [0x1400048000000000, 7, 8, 9, 0x0090000000000000]
def theItem : Item := ⟨0, 1, 0, thePacket, none, true⟩

/-- The bytes of words, lowest first. -/
def packetBytes (ws : List DWord) : List Byte := ws.flatMap fun w => (List.range 8).map fun i => BitVec.ofNat 8 (w.toNat / 2 ^ (8 * i))

/-- A SYS image resident at element 0: Bedrock has booted the partition. -/
def sysBooted (f : Fabric) : Fabric :=
  f.setEl 0 { f.el 0 with slots := [(1, ⟨1, img [(0, 0x0040000000000001)], false, 0, FailRec.empty⟩)] }

/-- Are bytes at an offset of the launch window a packet in form? -/
def inForm (f : Fabric) (off : Nat) (bs : List Byte) : Bool :=
  let ws := bytesWords bs
  decide (bs.length = 8 * ws.length) && decide (off % 256 = 0) && decide (ws.length = pktLen (ws.getD 0 0)) && pktOk ws && f.deliverable (f.launchBlk 0) ws

end Sys2Proof.Tests

/-- A packet in form with room and without, one at an offset that is not aligned; an item to forward, to accept and to fire. -/
theorem witness_QueueEvents :
    ((stages sysBooted).booted 0 = true ∧ inForm (stages sysBooted) 0x100 (packetBytes thePacket) = true ∧ ((stages sysBooted).launchOf 0).places.length < 64 ∧ inForm (stages sysBooted) 0x108 (packetBytes thePacket) = false ∧ inForm (stages sysBooted) 0x100 (packetBytes thePacket).tail = false)
    ∧ (let f := stages fun f => { sysBooted f with launch := [(0, ⟨List.replicate 64 theItem, 0, 0, 0, 0⟩)] }
     (f.booted 0 && inForm f 0x100 (packetBytes thePacket) && decide (64 ≤ (f.launchOf 0).places.length) && (f.launchOf 0).places.find? (fun y => decide (y.stage = 1)) == some theItem) = true)
    ∧ (let q : Item := { theItem with host := false }
     let f := stages
     (!q.host && q.asker.isNone && f.stage (f.launchBlk 0) 1 == some stage1 && f.stage stage1.anchor 1 == some stage1 && !stage1.fetch
       && !(f.blk stage1.anchor).saved && f.hasRoom stage1 1 0) = true)
    ∧ (let h : Place := ⟨3, 0, 0, [0x1000000000000000, 7, 8, 9]⟩
     let x : Stage := [0x8000008000000000, 0x400000001C000000, 0, 0, 0, 0, 0, 0]
     let f := stages fun f => f.modBlk 0 fun b => { b with places := [h] }
     (!(f.blk 0).stopped && f.stagePick 0 == some h && f.stage 0 3 == some x && x.ports == 1 && x.liveMax == 0 && x.entries == [0x400000001C000000]) = true) := by
  refine ⟨by decide +kernel, by decide +kernel, by decide +kernel, by decide +kernel⟩

/-! ## Witnesses: translation and the Geode -/

namespace Sys2Proof.Tests

/-- One stack that maps the first GiB to host memory, a record in waiting, and further changes of its base die. -/
def behind (d : BaseDie → BaseDie := id) : Fabric := holds (pendRec 0xE1) fun f => (mapped [] f).modDie 0 d

/-- A read and a write of the record, and the leaf of the map: at every privilege, without W, without U, lost, and write-protected. -/
def aRead : Req := asks .load 8 0x10000 0
def aWrite : Req := asks .store 8 0x10000 0
def theLeaf : DWord := 0xE180000000000000

/-- The entry of a translation buffer for a leaf of one GiB. -/
def tlbOf (leaf : DWord) : BaseDie → BaseDie := fun d => { d with tlb := [⟨30, 0, leaf, [0]⟩] }

/-- What a request gets: passed 0, migrated 1, refused 2, or a fault. -/
def verdictCode : Verdict → Nat
  | .pass _ _ => 0 | .migrate => 1 | .refused => 2 | .fault _ _ => 3

/-- Does the die take the request (R213, R422), and does its answer go to an element (R445)? -/
def taken (f : Fabric) (q : Req) : Bool := !f.linkDead 0 && !(f.die 0).laneAhead q
def isLocal (f : Fabric) (q : Req) : Bool := decide (q.el < 131072) && f.raws.all fun r => decide (r.el ≠ q.el)

theorem takes_taken (f : Fabric) (q : Req) (h : taken f q = true) : Takes f 0 q := by
  simpa [taken, Takes] using h

theorem local_of (f : Fabric) (q : Req) (h : isLocal f q = true) : Local f q := by
  simpa [isLocal, Local] using h

/-- What a walk's level reads: nothing 0, a leaf 1, a table 2. -/
def walkCode : WalkRes → Nat
  | .none => 0 | .leaf _ => 1 | .next _ => 2

/-- A claim request of the record for set 5, and a way of the same name in a state. -/
def greq (op : GOp) : GReq := ⟨0, 0, 7, 0, 0, 2, op, 0x1234, 1, 2, 0x900000003, 0x1000, 64, 3, 5, false⟩
def wayOf (state : Nat) (ws : List Waiter := []) : Way := ⟨0x1234, 1, 2, state, 3, false, 3, 0, 0, 0, 0, 0, ws, 0⟩
def aWaiter : Waiter := ⟨0, 1, 9, 0, 0⟩

/-- The slice with a way in set 5. -/
def slice (k : Nat) (w : Way) : Fabric := behind fun d => { d with ways := [(wayKey 5 k, w)] }

/-- Does the slice take the request (R386, R388, R392, R398, R422)? -/
def takes (f : Fabric) (g : GReq) : Bool :=
  f.geodeLive 0 g && !f.linkDead 0 && f.dieAllows 0 g.part g.priv (f.geodeKind g) 3 && !f.reportsHold 0 g
    && (List.range 8).all fun k => decide (((f.die 0).way g.set k).errs = 0)

theorem takes_of (f : Fabric) (g : GReq) (h : takes f g = true) : SliceTakes f 0 g := by
  simp [takes] at h
  exact ⟨h.1.1.1.1, h.1.1.1.2, h.1.1.2, h.1.2, h.2⟩

end Sys2Proof.Tests

/-- A lost page, one without U for privilege 0, without W, write-protected, and one that passes, for a write; and a read of it. -/
theorem witness_TranslationChecks :
    let user : Req := { aWrite with priv := 0 }
    (pteLost 0xE380000000000000 && !pteLost 0xE100000000000000 && user.priv == 0 && !pteU 0xE100000000000000
      && ReqOp.writes aWrite.op && pteU 0xE080000000000000 && !pteW 0xE080000000000000 && !pteLost 0xE080000000000000
      && pteW 0xE580000000000000 && pteWP 0xE580000000000000 && !pteLost 0xE580000000000000
      && !pteLost theLeaf && pteU theLeaf && pteW theLeaf && !pteWP theLeaf && !ReqOp.writes aRead.op
      && (behind).frameOf 0 theLeaf 30 0x10000 == some (.host 0x10000) && (behind).frameMay aWrite (.host 0x10000)) = true := by
  decide +kernel

theorem witness_TranslationEvents_requests :
    (let f := behind (tlbOf theLeaf)
     let e : TlbEntry := ⟨30, 0, theLeaf, [0]⟩
     let g := f.modDie 0 fun d => { d with tlb := d.tlb.erase e ++ [e] }
     (taken f aRead && (f.die 0).tlbHit (aRead.addr % 2 ^ 46) == some e && verdictCode (g.verdict aRead (some (theLeaf, 30))) == 0
       && decide (aRead.op ≠ .pref) && decide ((aRead.el, aRead.oid) ∉ (f.die 0).outst)) = true)
    ∧ (let f := behind (tlbOf 0xE080000000000000)
     let e : TlbEntry := ⟨30, 0, 0xE080000000000000, [0]⟩
     let g := f.modDie 0 fun d => { d with tlb := d.tlb.erase e ++ [e] }
     (taken f aWrite && (f.die 0).tlbHit (aWrite.addr % 2 ^ 46) == some e && verdictCode (g.verdict aWrite (some (0xE080000000000000, 30))) == 3) = true)
    ∧ (let f := behind
     (taken f aRead && ((f.die 0).tlbHit (aRead.addr % 2 ^ 46)).isNone && f.rootTable 0 == some 0 && (f.die 0).walkQ.isEmpty && (f.die 0).walks.isEmpty) = true)
    ∧ (let f := behind fun d => { d with regs := [] }
     (taken f aRead && ((f.die 0).tlbHit (aRead.addr % 2 ^ 46)).isNone && (f.rootTable 0).isNone) = true) :=
  ⟨by decide +kernel, by decide +kernel, by decide +kernel, by decide +kernel⟩

theorem witness_TranslationEvents_walks :
    [(0 : DWord), 0xE180000000000000, 0x8000000000000100].zipIdx.all (fun x =>
      let w : Walk := ⟨1, 1, 0, [], [aRead]⟩
      let f := behind fun d => { d with mem := d.mem.setWord 0 x.1, walks := [w] }
      (f.die 0).walks == [w] && (f.rootTable 0).isSome && (f.die 0).walkQ.isEmpty
        && walkCode (f.walkStep 0 (f.partOfStack 0) (w.piece * 65536) w.level w.table) == x.2) = true := by
  decide +kernel

theorem witness_TranslationEvents_aperture :
    (let f := behind
     (f.sequencer aWrite.part == some 0 && !f.linkDead 0 && isLocal f aRead && f.dieAllows 0 0 2 0 1 && f.dieAllows 0 0 2 0 0) = true)
    ∧ (let f := behind (tlbOf theLeaf)
     let st : ApStore := ⟨0, 0, 0xE180000000000000, aWrite⟩
     ((f.die 0).apWait.isNone && f.inFlight.isEmpty && decide ((f.die 0).parCache.length < 4096) && f.sequencer (f.partOfStack 0) == some 0 && (f.die 0).park.isEmpty
       && !makesEmpty ((f.die 0).mem.word (f.apAddr 0 st.off)) st.val) = true)
    ∧ (∀ n ∈ [1, 2], let st : ApStore := ⟨0, 0, 0, aWrite⟩
     ((behind fun d => { d with apAcks := [(st, n)] }).die 0).apAcks.find? (fun x => decide (x.1.num = 0)) = some (st, n) ∧ isLocal (behind fun d => { d with apAcks := [(st, n)] }) st.q = true)
    ∧ (let f := sysBooted ((behind).modBlk 0 fun b => { b with regs := b.regs ++ [(0x30, 0x1000000)] })
     (f.booted 0 && f.portAllows 0 aRead.part aRead.priv 3 (ReqOp.needs aRead.op) && decide (aRead.addr % 2 ^ 46 / 2 ^ 40 < 0x3D) && f.home 0 (aRead.addr % 2 ^ 46) == some 0
       && f.hostAllows 0 1 2 0 && !aRead.addr.testBit 46) = true) :=
  ⟨by decide +kernel, by decide +kernel, by decide, by decide +kernel⟩

/-- A name held done, one in the making, none; a maker with and without waiters; a set of free ways; a context that makes a way. -/
theorem witness_GeodeEvents :
    ([1, 2].all (fun n => let g := greq .claim
     let w := wayOf n
     let f := slice 0 w
     takes f g && (f.die 0).holds g.set g.part (g.dig, g.ver, g.fn) == some (0, w) && decide (w.waiters.length < 256) && decide ((f.die 0).waitersUsed < 16384)) = true)
    ∧ (let g := greq .claim
     let f := slice 0 { wayOf 2 with dig := 9 }
     (takes f g && ((f.die 0).holds g.set g.part (g.dig, g.ver, g.fn)).isNone && ((f.die 0).way g.set 1).state == 0 && ((f.die 0).way g.set 0).state == 2) = true)
    ∧ ([GOp.fulfil, GOp.abandon].all (fun op => [[], [aWaiter]].all fun ws =>
     let g := greq op
     let f := slice (fld g.eid 35 33) (wayOf 1 ws)
     takes f g && idWay f 0 g == wayOf 1 ws && (wayOf 1 ws).gen.toNat == fld g.eid 15 0 && (wayOf 1 ws).makerPkg == g.pkg && (wayOf 1 ws).makerCtx == g.ctx
       && (wayOf 1 ws).part == g.part && (f.stacksOf g.part).contains 0) = true)
    ∧ (takes (slice 0 (wayOf 2)) (greq .clqry) = true)
    ∧ (let g := greq .clinv
     let f := behind
     (takes (f.noteClinv 0 g) g && decide (g.set < 8191) && (List.range 8).all fun k => ((f.die 0).way g.set k).state == 0) = true)
    ∧ ((slice 0 (wayOf 1)).die 0).ways = [(wayKey 5 0, wayOf 1)] ∧ (wayOf 1).state = 1 ∧ (wayOf 1).waiters = []
    ∧ (slice 0 (wayOf 1)).agenda.any (claimUnder 0 (0, 0, 0)) = false := by
  refine ⟨by decide +kernel, by decide +kernel, by decide +kernel, by decide +kernel, by decide +kernel, by decide +kernel, by decide, by decide⟩

/-! ## Witnesses: channels and links -/

namespace Sys2Proof.Tests

/-- A channel free for a request at offset 0x10000, in any line but the shadow: it is the one that holds the line. -/
def chanFree (f : Fabric) (q : Req) : Bool :=
  let ch := (f.channelOf 0 (f.lineAt 0 0x10000)).getD 99
  f.lineAt 0 0x10000 != .shadow && f.channelOf 0 (f.lineAt 0 0x10000) == some ch && decide (((f.die 0).queued.countP fun x => decide (x.1 = ch)) < 64)
    && !(f.die 0).switching.contains ch && !f.predOut 0 q && (f.die 0).queued.isEmpty

theorem portFree_of (f : Fabric) (q : Req) (h : chanFree f q = true) : ∃ ch, PortFree f 0 0x10000 ch q := by
  simp [chanFree] at h
  exact ⟨_, h.1.1.1.1.1, h.1.1.1.1.2, h.1.1.1.2, by simpa using h.1.1.2, h.1.2, by simp [h.2]⟩

/-- A guarded region of 1,024 rows from row 0. -/
def guarded (d : BaseDie → BaseDie := id) : Fabric := behind fun b => d { b with regs := (0x208, 0x8000000000000000) :: b.regs }

/-- The same after channel 2, which held the line at 0x10000, was retired, while the rebuild is at row 0. -/
def rebuilding : Fabric :=
  guarded fun b => { b with regs := (0x201, 0x0200000000000000 + 2 * 2 ^ 52 + 0xFFFFFFFB) :: (0x200, 2) :: (0x202, 0x8000000000000000) :: b.regs }

/-- A block of idle flits in a direction, of a number and with the CRC that its trailer holds. -/
def aBlock (toDie : Bool) (n : Nat := 0) (crc : Nat := 1717554878) : VBlock := ⟨idleFlits, w64 (n * 2 ^ 44 + crc), toDie⟩

/-- Is a block in sequence at its end of module 0? -/
def blockNext (f : Fabric) (b : VBlock) : Bool := fld b.trailer 55 44 == ((f.vmod 0 0).taker b.toDie).rx

/-- A frame of a class for this package, from package 1. -/
def aFrame (cls : Nat) (seq : BitVec 16) : ScaleFrame := ⟨0, 1, 0, cls, seq, 0, [0]⟩

/-- A port pair with package 1 with one frame unacknowledged. -/
def pairOf (n : Nat) : Fabric := (behind).modPair 0 1 fun o => { o with unacked := [aFrame 5 0], resends := n }

end Sys2Proof.Tests

/-- A read and a store in an open line and in a guarded one, a read of a member to be rebuilt, two errors in one half. -/
theorem witness_ChannelEvents_lines :
    ([aRead, aWrite].all (fun q => [behind, guarded].all fun f => chanFree f q && (f.die 0).errs.isEmpty && !q.fe && isLocal f q) = true)
    ∧ (behind).lineAt 0 0x10000 = .open 1 32 ∧ (guarded).lineAt 0 0x10000 = .guarded 2 33
    ∧ ((guarded).unbuilt 0 2 33 || (guarded).unbuilt 0 (33 % 32) 33) = false
    ∧ (chanFree rebuilding aRead && rebuilding.lineAt 0 0x10000 == .guarded 2 33 && rebuilding.unbuilt 0 2 33
        && !rebuilding.unbuilt 0 (33 % 32) 33 && (rebuilding.die 0).errs.isEmpty) = true
    ∧ (let f := behind fun d => { d with errs := [0x10000, 0x10001] }
       (chanFree f aRead && isLocal f aRead && f.lineAt 0 0x10000 == .open 1 32 && decide (2 ≤ (f.die 0).halfErrs 0x10000)) = true) :=
  ⟨by decide +kernel, by decide +kernel, by decide +kernel, by decide +kernel, by decide +kernel, by decide +kernel⟩

/-- A request behind its predecessor; points 0, 2 and 3; a retirement granted and one too late, a rebuild and a zeroed region. -/
theorem witness_ChannelEvents :
    (let q := { aRead with pred := some 3 }
     ((behind fun d => { d with queued := [(1, .stack 0 0x10000, q)] }).die 0).queued = [(1, .stack 0 0x10000, q)] ∧ q.el = 0)
    ∧ ([0, 2, 3].all (fun v => let f := (behind).setPoint 0 5 v
     f.point 0 5 == v && decide (tget 0 (f.die 0).owed 5 < 4) && !(f.die 0).switching.contains 5 && decide (f.rateCap 0 ≤ v) == decide (2 ≤ v)
       && (f.die 0).queued.isEmpty && (v == 3 || decide (f.point 0 5 ≤ f.rateCap 0))) = true)
    ∧ ([false, true].all (fun on => bit ((behind fun d => { d with regs := (0x219, if on then 0x80000000 else 0) :: d.regs }).bd 0 0x219) 31 == on) = true)
    ∧ (let f := behind
     (f.mayRetire 0 5 && (f.die 0).queued.isEmpty && (List.range 8).all (fun n => !bit (f.bd 0 (0x208 + n)) 63) && !bit (f.bd 0 0x201) 57
       && ((f.el 0).pendOf 7).isSome) = true)
    ∧ (!rebuilding.mayRetire 0 2 && ((rebuilding.el 0).pendOf 7).isSome && bit (rebuilding.bd 0 0x202) 63) = true
    ∧ (let v : DWord := 0x8000000000000001
     let f := behind fun d => { d with zeroing := [(0, v, none)] }
     (f.die 0).zeroing.find? (fun x => decide (x.1 = 0)) = some (0, v, none) ∧ bit v 63 = true ∧ (f.die 0).mem.wf = true) :=
  ⟨by decide +kernel, by decide +kernel, by decide +kernel, by decide +kernel, by decide +kernel, by decide +kernel⟩

set_option maxRecDepth 100000 in
theorem test_idle_crc : (flitsCrc idleFlits).toNat = 1717554878 := by decide +kernel

/-- At either end of module 0: a block that is next, one that is not, and one whose CRC is wrong; blocks to send again, and none. -/
theorem witness_LinkEvents_blocks :
    ([false, true].all (fun toDie =>
      (behind).modUp 0 0 && (aBlock toDie).flits.length == 16 && blockNext (behind) (aBlock toDie) && !blockNext (behind) (aBlock toDie 1)
        && fld (aBlock toDie).trailer 31 0 == 1717554878 && fld (aBlock toDie 1).trailer 31 0 == 1717554878
        && fld (aBlock toDie 0 5).trailer 31 0 == 5
        && (((behind).vmod 0 0).taker toDie).unacked.isEmpty && decide ((((behind).vmod 0 0).taker toDie).fails < 15)) = true)
    ∧ (decide (1 < ((behind).vmod 0 0).repairs) && ((behind).vmod 0 0).base.unacked.isEmpty && ((behind).vmod 0 0).die.unacked.isEmpty) = true
    ∧ (let f := (behind).setMod 0 0 { VModule.reset with base := { VModule.reset.base with unacked := [aBlock true] } }
       f.modUp 0 0 && !(f.vmod 0 0).base.unacked.isEmpty && decide ((f.vmod 0 0).base.resends < 15) && decide ((f.vmod 0 0).die.resends < 15)) = true := by
  refine ⟨by decide +kernel, by decide +kernel, by decide +kernel⟩

theorem witness_LinkEvents_messages :
    (let fl : List (BitVec 256) := [0x0000000000000002000000000000000000000000000000000000000000000000]
     !msgBad fl && fld (fl.getD 0 0) 255 253 == 0 && !(behind).linkDead 0 && msgBad []) = true := by
  decide +kernel

/-- A pair with nothing outstanding, a frame in and out of sequence, an acknowledgment; a pair to send again, and one that gives up. -/
theorem witness_LinkEvents_ports :
    ([0, 1].all (fun q : BitVec 16 => !((behind).portAt 0).dead && (aFrame 5 q).dpkg == (behind).pkg && ((behind).pairAt 0 1).unacked.isEmpty
        && decide ((aFrame 5 q).seq = ((behind).pairAt 0 1).rx) == decide (q = 0) && (behind).peers.isEmpty && ((behind).portAt 0).pairs.isEmpty) = true)
    ∧ (!((pairOf 0).portAt 0).dead && (aFrame 7 0).dpkg == (pairOf 0).pkg && (aFrame 7 0).spkg == 1) = true
    ∧ ([0, 63].all (fun n => !((pairOf n).portAt 0).dead && ((pairOf n).portAt 0).pairs.all (fun x => !x.2.unacked.isEmpty && x.2.resends == n)
        && decide (((pairOf n).portAt 0).pairs.length = 1)) = true) :=
  ⟨by decide +kernel, by decide +kernel, by decide +kernel⟩

/-! ## Witnesses: the module, register writes, the whole machine -/

namespace Sys2Proof.Tests

/-- The machine in a state of the boot sequencer, with the flash image's header of a kind. -/
def booting (state : Byte) (h : State → State := id) : State := h { State.reset with mod := { Module.reset with seqState := state } }

/-- Stack 0 of a state holds a memory. -/
def loaded (m : Memory) (s : State) : State := { s with fab := s.fab.modDie 0 fun d => { d with mem := m } }

theorem bootStack_zero (f : Fabric) (h : f.linkDead 0 = false) : f.bootStack = some 0 := by
  rw [Fabric.bootStack, List.range_succ_eq_map, List.find?_cons_of_pos (by simp [h])]

theorem linkDead_reset : Fabric.reset.linkDead 0 = false := by decide +kernel

theorem bootMem_loaded (m : Memory) (g : Module) : bootMem ⟨Fabric.reset.modDie 0 fun d => { d with mem := m }, g⟩ = m := by
  have h : (Fabric.reset.modDie 0 fun d => { d with mem := m }).linkDead 0 = false := by
    refine Eq.trans ?_ linkDead_reset
    simp only [Fabric.linkDead, Fabric.bd]
    rfl
  rw [bootMem, bootStack_zero _ h]
  rfl

/-- The place of Bedrock's image behind a firmware image with no body. -/
abbrev bdPlace : Nat := 0x80 + sigBytes

/-- The flash with Bedrock's image at its place, in the state BDLOAD. -/
def bdFlash (key sig : List Byte) : State :=
  booting 4 fun s => { s with mod := { s.mod with flash := imageAt bdPlace 2 0 key sig, bdHash := shake256 key } }

theorem bdFlash_len (key sig : List Byte) : imageLen (bdFlash key sig).mod.flash 0 = bdPlace := by
  have low : ∀ i, i < bdPlace → (imageAt bdPlace 2 0 key sig).read i = 0 := fun i hi =>
    Memory.read_of_lt fun c hc => lt_of_lt_of_le hi (cellsAt_lt _ _ c hc)
  have h : bodyLen (imageAt bdPlace 2 0 key sig) 0 = 0 := by
    simp only [bodyLen, Memory.readN]
    rw [low _ (by decide), low _ (by decide), low _ (by decide), low _ (by decide), low _ (by decide), low _ (by decide), low _ (by decide),
      low _ (by decide)]
    rfl
  show 0x80 + bodyLen (imageAt bdPlace 2 0 key sig) 0 + sigBytes = bdPlace
  rw [h]

theorem bdFlash_check (key sig : List Byte) (s : SignedBy 2 0 key sig) :
    let t := bdFlash key sig
    let f := t.fab.loadFlash 0 t.mod.flash bdPlace bdPlace (imageLen t.mod.flash bdPlace)
    imageCheck (f.die 0).mem bdPlace 2 t.mod.bdHash t.mod.bdMin = 0 := by
  have h := imageAt_holds bdPlace 2 0 key sig
  have hb := (holdsImage_check _ _ _ _ _ _ s h _ (.inr rfl)).2.1
  have hl : imageLen (imageAt bdPlace 2 0 key sig) bdPlace = bdPlace := by rw [imageLen, hb]
  have hc := (copyFlash_read (imageAt bdPlace 2 0 key sig) [] bdPlace bdPlace bdPlace (cellsAt_wf _ _) rfl).1
  have hm : HoldsImage (copyFlash (imageAt bdPlace 2 0 key sig) [] bdPlace bdPlace bdPlace) bdPlace 2 0 key sig :=
    fun i hi => (hc i hi).trans (h i hi)
  have hr := (holdsImage_check _ _ _ _ _ _ s hm (shake256 key) (.inr rfl)).2.2.2
  have hg : (bdFlash key sig).fab.guards 0 = [] := show Fabric.reset.guards 0 = [] by decide +kernel
  simp only [Fabric.loadFlash, Fabric.setMem, hg, List.isEmpty_nil, if_true]
  rw [show (bdFlash key sig).mod.flash = imageAt bdPlace 2 0 key sig from rfl, hl]
  exact hr

/-- Does BDSTART load all of its contexts? -/
def starts (s : State) : Bool :=
  let body := imageLen s.mod.flash 0 + 0x80
  match (List.range (fld ((bootMem s).word body) 15 0)).foldlM (bootEntry body (bootMem s)) s.fab with
  | .ok _ => true
  | .error _ => false

/-- A register write on its way: unit, number and value. -/
def reg (unit num : Nat) (v : DWord) : CsrWr := ⟨unit, 0, num, v, 0, 2, none⟩

/-- Is an outcome a next state? -/
def isNext (o : Host.Outcome State Fault Refusal) : Bool := match o with | .next _ => true | _ => false

theorem next_of (o : Host.Outcome State Fault Refusal) (h : isNext o = true) : ∃ t, o = .next t := by
  cases o <;> simp_all [isNext]

/-- The word that the next step of a state reads, where an element has the turn. -/
def nextWord (s : State) : Option Word :=
  match nextTurn s.fab with
  | some (.issue 0) => (takeSet (tick s.fab) 0).bind fun x => fetchWord x.2 0 x.1
  | _ => none

/-- A small partition 0 of one die. -/
def oneDie (f : Fabric) : Fabric := { f with diePart := (List.range 15).map fun i => (i + 1, 1) }

end Sys2Proof.Tests

/-- Images that pass their checks: the firmware's, Bedrock's behind it in the flash, and a partition's for itself and for another one. -/
theorem witness_BootEvents_images :
    (∃ s : State, s.mod.seqState = 2 ∧ imageCheck (bootMem s) 0 1 s.mod.fwHash s.mod.fwMin = 0)
    ∧ (∃ s : State, s.mod.seqState = 4 ∧ s.fab.agenda = [] ∧ (∀ sd, sd < 24 → fld (s.fab.bd sd 0x22C) 7 4 = 0) ∧ s.mod.flashBad = false
      ∧ let sd := s.fab.bootStack.getD 0
        let a := imageLen s.mod.flash 0
        let f := s.fab.loadFlash sd s.mod.flash a a (imageLen s.mod.flash a)
        imageCheck (f.die sd).mem a 2 s.mod.bdHash s.mod.bdMin = 0)
    ∧ ∀ part : Byte, ∃ s : State, s.mod.seqState = 7 ∧ imageCheck (s.fab.die 0).mem 0 3 0 s.mod.partMin = 0 ∧ (s.fab.die 0).mem.read 3 = part := by
  have z : (List.replicate 32 0 : List Byte).length = 32 := rfl
  refine ⟨?_, ?_, fun part => ?_⟩
  · obtain ⟨key, sig, s⟩ := signed_by 1 0 [] [] _ z
    refine ⟨loaded (imageAt 0 1 0 key sig) (booting 2 fun s => { s with mod := { s.mod with fwHash := shake256 key } }), rfl, ?_⟩
    refine (congrArg (fun m => imageCheck m 0 1 (shake256 key) 0) (bootMem_loaded _ _)).trans ?_
    exact (holdsImage_check _ _ _ _ _ _ s (imageAt_holds 0 1 0 key sig) _ (.inr rfl)).2.2.2
  · obtain ⟨key, sig, s⟩ := signed_by 2 0 [] [] _ z
    have hr : ∀ sd, sd < 24 → fld (Fabric.reset.bd sd 0x22C) 7 4 = 0 := by decide +kernel
    refine ⟨bdFlash key sig, rfl, rfl, hr, rfl, ?_⟩
    have hb : (bdFlash key sig).fab.bootStack = some 0 := bootStack_zero Fabric.reset linkDead_reset
    simp only [bdFlash_len, hb, Option.getD_some]
    exact bdFlash_check key sig s
  · obtain ⟨key, sig, s⟩ := signed_by 3 part [] [] _ z
    have h := holdsImage_check _ _ _ _ _ _ s (imageAt_holds 0 3 part key sig) 0 (.inl rfl)
    exact ⟨loaded (imageAt 0 3 part key sig) (booting 7), rfl, h.2.2.2, h.2.2.1⟩

/-- Good and no stacks; a flash that cannot be read; settings on their way; BDSTART of no contexts and of a bad one. -/
theorem witness_BootEvents :
    (State.reset.mod.seqState = 0 ∧ State.reset.fab.linkDead 0 = false ∧ bit (1 : BitVec 24) 0 = true)
    ∧ (let s := booting 1
     (s.mod.seqState == 1 && s.fab.bootStack == some 0 && s.mod.flash.wf && (s.fab.die 0).mem.wf && !s.mod.flashBad && (s.fab.guards 0).isEmpty) = true)
    ∧ (booting 1 fun s => { s with mod := { s.mod with flashBad := true } }).mod.flashBad = true
    ∧ imageCheck (bootMem (booting 2)) 0 1 0 0 = 3
    ∧ (booting 4 fun s => { s with fab := s.fab.post (.fatikImageLoad 0 0) }).fab.agenda.any isSetting = true
    ∧ (starts (booting 5) = true ∧ starts (loaded (Memory.setWord [] (0x80 + sigBytes + 0x80) 1) (booting 5)) = false)
    ∧ (booting 6).mod.seqState = 6 := by
  refine ⟨by decide +kernel, by decide +kernel, by decide +kernel, by decide +kernel, by decide +kernel, by decide +kernel, rfl⟩

theorem witness_ModuleEvents :
    ((booting 7).mod.seqState = 7 ∧ fld (0 : BitVec 42) 41 37 < 24 ∧ fld (0 : BitVec 42) 36 0 % 65536 = 0)
    ∧ ((holds (pendRec 0xFB)).el 0).pendOf 7 = some (pendRec 0xFB) ∧ ((holds (pendRec 0xFB)).el 0).mem.wf = true := by
  refine ⟨by decide +kernel, by decide +kernel, by decide +kernel⟩

/-- Windows that break R192 and that do not, with a header and without; line registers that stand and that change; a guarded region that fits and one
that does not; a cap below and not below the points. -/
theorem witness_RegisterWrites :
    (let f := oneDie Fabric.reset
     (f.winOk 0 0 0x80400000 && winRole 0x80400000 == 4 && f.winOk 0 0 0xA0400000 && winRole 0xA0400000 == 5 && !f.winOk 0 0 0xE0400000
       && (reg 0 0x020 0x80400000).unit == 0 && (f.el 0).defers.isEmpty && f.els.isEmpty && (f.el 0).parked.isEmpty
       && f.agenda.isEmpty && (reg 2 0x228 0x1001).asker.isNone) = true)
    ∧ (let f := Fabric.reset
     (!bit (f.bk 0 0) 31 && bit (reg 1 0 0x80000000).val 31 && f.bk 0 4 == keepFlds (0 : DWord) [(56, 16), (0, 0)]
       && f.bk 0 4 != keepFlds (1 : DWord) [(56, 16), (0, 0)]) = true)
    ∧ (let f := Fabric.reset
     let old := f.bk 0 0x40
     (fld old 31 29 == fld (0x100 : DWord) 31 29 && fld old 27 24 == fld (0x100 : DWord) 27 24 && fld (0x100 : DWord) 30 29 != 3
       && fld old 31 29 != fld (0x80000000 : DWord) 31 29 && fld (0x80000000 : DWord) 30 29 != 3 && fld (0xE0000000 : DWord) 30 29 == 3
       && (blockEls 0).all fun el => (f.el el).parked.isEmpty) = true)
    ∧ (let f := Fabric.reset
     (!f.guardBad 0 0 (keepFlds 0x8000000000000000 [(63, 63), (31, 0)]) && f.guardBad 0 0 (keepFlds 0x80000000FFFFFFFF [(63, 63), (31, 0)])) = true)
    ∧ (let f := Fabric.reset
     (fld (0 : DWord) 1 0 != 3 && decide (fld (f.bd 0 0x210) 1 0 ≤ 2) && decide (0 < fld (f.bd 0 0x210) 1 0) && f.agenda.isEmpty) = true) := by
  refine ⟨by decide +kernel, by decide +kernel, by decide +kernel, by decide +kernel, by decide +kernel⟩

theorem witness_EncodingIsExact : Sys2Proof.encode (.add 0 5 1 4 1) = some 0x00014241 ∧ Sys2Proof.decode 0x00014241 = some (.add 0 5 1 4 1) := by
  refine ⟨by decide, rfl⟩

/-- The turn of an element with a word that decodes and with one that does not, and the turn of an event. -/
theorem witness_StepRunsDecoded :
    ([0x00014241, 0x21014241].all (fun w : Word => let s := State.reset.withFetchWord 32 w.toNat
     !s.mod.thermtrip && nextWord s == some w) = true)
    ∧ (Sys2Proof.decode 0x00014241).isSome = true ∧ Sys2Proof.assigned (Sys2Proof.fieldOp 0x21014241).toNat = false
    ∧ (let f := Fabric.reset.post (.barrierRelease 0)
     nextTurn f = some (.event 0) ∧ ((takeEvent (tick f) 0).map (·.1)) = some (.barrierRelease 0)) := by
  refine ⟨by decide +kernel, by decide +kernel, by decide +kernel, by decide +kernel⟩

theorem witness_ModuleKept : ModuleOk State.reset ∧ (∃ t, step State.reset = .next t)
    ∧ (Sys2Proof.encode (.neg 0 0x1F 0 0x1F 0)).isSome = true ∧ (∃ t, exec (.neg 0 0x1F 0 0x1F 0) State.reset = .next t)
    ∧ { Module.reset with thermtrip := true }.thermtrip = true ∧ powersDown Fabric.reset = false ∧ powersDown (Fabric.reset.post .powerDown) = true :=
  ⟨by unfold ModuleOk; decide, next_of _ (by decide +kernel), by decide, next_of _ (by decide +kernel), rfl, by decide +kernel, by decide +kernel⟩

theorem witness_BytesLowFirst : (Memory.setWord [] 8 5).wf = true ∧ Memory.wf [] = true := by decide

/-- A token of another format; a run under a tag action; a tag of depth 0 under one. -/
theorem witness_TrapsAreTaken :
    (let c := fr (st (fmtImg 0x22) 0 (some (tk false 3 1)) (some (tk true 2 1))) 0x00
     c.img.lazy = false ∧ c.tok c.a = some (tk false 3 1) ∧ (tk false 3 1).fmt ≠ c.fin ∧ c.stops = some (.trap .format 0) ∧ Fresh c
       ∧ Sys2Proof.encode (.add 0 1 0x1F 0x1F 0) = some (mkWord 0x00 0 1 0x1F 0x1F 0))
    ∧ (let c := firing (runs 2 3 [1, 2] [3, 4]) 0x00 0 1 0x1F 0x1F 1
     c.img.lazy = false ∧ c.vec = true)
    ∧ (let c := firing (two 2 1 1) 0x00 0 1 0x1F 0x1F 1
     c.img.lazy = false ∧ depth c.tag = 0)
    ∧ isFatik 0 = false ∧ Cause.format ≠ .hcall := by
  refine ⟨by decide, by decide, by decide, by decide, by decide⟩

/-! ## Words of the spec, and forms encoded by R40 -/

theorem test_decode_arithmetic :
    Sys2Proof.decode 0x00014241 = some (.add 0 5 1 4 1)
    ∧ Sys2Proof.decode 0x0F0087F3 = some (.shl 0 2 3 0x1F 3)
    ∧ Sys2Proof.decode 0x18048B60 = some (.cmp 0 0x12 5 0x16 0)
    ∧ Sys2Proof.decode 0x020007F3 = some (.mul 0 0 3 0x1F 3)
    ∧ Sys2Proof.decode 0x180641F0 = some (.cmp 0 0x19 0 0x1F 0)
    ∧ Sys2Proof.decode 0x0B0083F0 = some (.and 0 2 1 0x1F 0)
    ∧ Sys2Proof.decode 0x190647F0 = some (.sel 0 0x19 3 0x1F 0)
    ∧ Sys2Proof.decode 0x280041F0 = some (.fadd 0 1 0 0x1F 0)
    ∧ Sys2Proof.decode 0x310041F0 = some (.fdiv 0 1 0 0x1F 0) := by
  decide

theorem test_decode_conversions_and_runs :
    Sys2Proof.decode 0x580045F0 = some (.vmask 0 1 2 0x1F 0)
    ∧ Sys2Proof.decode 0x4007C1F0 = some (.cvt 0 0x1F 0 0x1F 0)
    ∧ Sys2Proof.decode 0x5007C1F0 = some (.vsum 0 0x1F 0 0x1F 0)
    ∧ Sys2Proof.decode 0x47008010 = some (.mxpack 0 2 0 1 0) := by
  decide

theorem test_decode_steering_and_tags :
    Sys2Proof.decode 0x78008010 = some (.loop 0 2 0 1 0)
    ∧ Sys2Proof.decode 0x700645F0 = some (.enter 0 0x19 2 0x1F)
    ∧ Sys2Proof.decode 0x6407EDF0 = some (.mov 0 0x1F 0x16 0x1F 0)
    ∧ Sys2Proof.decode 0x6507FFF3 = some (.sink 0 0x1F 3) := by
  decide

theorem test_decode_matrix_and_selection :
    Sys2Proof.decode 0x8507C010 = some (.scale 0 0x1F 0 1 0)
    ∧ Sys2Proof.decode 0x8200FDF0 = some (.mma 0 3 0x1E 0x1F 0)
    ∧ Sys2Proof.decode 0x8C008010 = some (.topk 0 2 0 1 0)
    ∧ Sys2Proof.decode 0x8B004010 = some (.mergek 0 1 0)
    ∧ Sys2Proof.decode 0x8807C1F0 = some (.hist 0 0x1F 0 0x1F 0) := by
  decide

theorem test_decode_memory :
    Sys2Proof.decode 0x92204010 = some (.ldx 4 1 0 1 0)
    ∧ Sys2Proof.decode 0x9C004010 = some (.gld 0 1 0 1 0)
    ∧ Sys2Proof.decode 0x910047F0 = some (.st 0 1 3 0x1F 0)
    ∧ Sys2Proof.decode 0xB80045F0 = some (.aaddRel 0 1 2 0x1F 0)
    ∧ Sys2Proof.decode 0x980041F0 = some (.iwrite 0 1 0 0x1F 0)
    ∧ Sys2Proof.decode 0xA207C1F0 = some (.cpy 0 0x1F 0 0x1F 0) := by
  decide

theorem test_decode_ordering :
    Sys2Proof.decode 0xC10041F0 = some (.ordj 0 1 0 0x1F 0)
    ∧ Sys2Proof.decode 0xC0184430 = some (.fence 3 1 2 3 0)
    ∧ Sys2Proof.decode 0xC22849F0 = some (.barw 5 1 4 0x1F 0)
    ∧ Sys2Proof.decode 0xC4204BF0 = some (.qwait 4 1 5 0x1F 0) := by
  decide

theorem test_decode_relations_and_edges :
    Sys2Proof.decode 0xD9104010 = some (.edens 2 1 0 1 0)
    ∧ Sys2Proof.decode 0xC907C250 = some (.rule 0 0x1F 1 5 0)
    ∧ Sys2Proof.decode 0xCC07C5F0 = some (.tprobeD 0 0x1F 2 0x1F 0)
    ∧ Sys2Proof.decode 0xCA07C640 = some (.tins 0 0x1F 3 4 0)
    ∧ Sys2Proof.decode 0xD8104430 = some (.eprog 2 1 2 3 0)
    ∧ Sys2Proof.decode 0xDA00C9F0 = some (.emode 0 3 4 0x1F 0) := by
  decide

theorem test_decode_claims_and_tasks :
    Sys2Proof.decode 0xE2004850 = some (.fulfil 0 1 4 5 0)
    ∧ Sys2Proof.decode 0xE8204010 = some (.task 4 1 0 1 0)
    ∧ Sys2Proof.decode 0xE007C1F0 = some (.name 0 0x1F 0 0x1F 0)
    ∧ Sys2Proof.decode 0xE00043F0 = some (.name 0 1 1 0x1F 0)
    ∧ Sys2Proof.decode 0xE1004430 = some (.claim 0 1 2 3 0)
    ∧ Sys2Proof.decode 0xE91845F0 = some (.tile 3 1 2 0x1F 0)
    ∧ Sys2Proof.decode 0xEA0047F0 = some (.stageq 0 1 3 0x1F 0) := by
  decide

theorem test_decode_traps_and_registers :
    Sys2Proof.decode 0xF207C010 = some (.discard 0 0x1F 0 1 0)
    ∧ Sys2Proof.decode 0xF41045F0 = some (.csrr 2 1 2 0x1F 0)
    ∧ Sys2Proof.decode 0xF51847F0 = some (.csrw 3 1 3 0x1F 0)
    ∧ Sys2Proof.decode 0xF0007FF0 = some (.trap 0 1 0x1F 0x1F 0)
    ∧ Sys2Proof.decode 0xF1004010 = some (.resume 0 1 0 1 0) := by
  decide

/-- The first opcode that R60 leaves unassigned. -/
theorem test_decode_refuses_unassigned : Sys2Proof.decode 0x21014241 = none := by decide

/-- The first byte of a word is its lowest. -/
theorem test_decode_bytes : Sys2Proof.decodeBytes [0x41, 0x42, 0x01, 0x00, 0x99] = some (.add 0 5 1 4 1, [0x99]) := by decide

/-! ## Ill-formed terms, one for each check -/

theorem test_wf_accepts : Sys2Proof.wf (.add 0 5 1 4 1) = true ∧ Sys2Proof.wf (.add 0x1B 0x1F 0x19 0x1F 7) = true := by decide
theorem test_wf_refuses_source : Sys2Proof.wf (.add 0x1C 5 1 4 1) = false ∧ Sys2Proof.wf (.add 0 0x1E 1 4 1) = false := by decide
theorem test_wf_refuses_destination : Sys2Proof.wf (.add 0 5 0x1A 4 1) = false ∧ Sys2Proof.wf (.mrg 0 0x1E 1) = false := by decide
theorem test_wf_refuses_tag_action : Sys2Proof.wf (.add 0 5 1 4 8) = false ∧ Sys2Proof.wf (.sink 0 0 0xF) = false := by decide
theorem test_wf_refuses_element : Sys2Proof.wf (Ev.instr (.trapRecordDeliver 65632)) = false ∧ Sys2Proof.wf (Ev.instr (.trapRecordDeliver 65631)) = true := by decide
theorem test_wf_refuses_block : Sys2Proof.wf (Ev.instr (.stageFire 1024)) = false ∧ Sys2Proof.wf (Ev.instr (.stageFire 1023)) = true := by decide
theorem test_wf_refuses_stack : Sys2Proof.wf (Ev.instr (.patrolStep 24)) = false ∧ Sys2Proof.wf (Ev.instr (.patrolStep 23)) = true := by decide
theorem test_wf_refuses_long_run : Sys2Proof.wf (Ev.instr (.tokenArrive 0 .packet ⟨0, 0, 0, List.replicate 33 0⟩)) = false := by decide
theorem test_wf_refuses_partition : Sys2Proof.wf (Ev.instr (.signerClear 16)) = false := by decide
theorem test_wf_refuses_port : Sys2Proof.wf (Ev.instr (.scaleoutPortDead 16)) = false := by decide

/-! ## A word of every form, with SRCA 1, SRCB 2, DSTA 3, DSTB 4 and TAGACT 5 where R40 and the form leave them free -/

theorem test_forms_0 :
    Sys2Proof.decode 0x00088645 = some (.add 1 2 3 4 5)
    ∧ Sys2Proof.decode 0x01088645 = some (.sub 1 2 3 4 5)
    ∧ Sys2Proof.decode 0x02088645 = some (.mul 1 2 3 4 5)
    ∧ Sys2Proof.decode 0x03088645 = some (.mulh 1 2 3 4 5)
    ∧ Sys2Proof.decode 0x04088645 = some (.mad 1 2 3 4 5)
    ∧ Sys2Proof.decode 0x05088645 = some (.div 1 2 3 4 5)
    ∧ Sys2Proof.decode 0x06088645 = some (.rem 1 2 3 4 5)
    ∧ Sys2Proof.decode 0x07088645 = some (.neg 1 2 3 4 5)
    ∧ Sys2Proof.decode 0x08088645 = some (.abs 1 2 3 4 5)
    ∧ Sys2Proof.decode 0x09088645 = some (.min 1 2 3 4 5)
    ∧ Sys2Proof.decode 0x0A088645 = some (.max 1 2 3 4 5)
    ∧ Sys2Proof.decode 0x0B088645 = some (.and 1 2 3 4 5)
    ∧ Sys2Proof.decode 0x0C088645 = some (.or 1 2 3 4 5)
    ∧ Sys2Proof.decode 0x0D088645 = some (.xor 1 2 3 4 5)
    ∧ Sys2Proof.decode 0x0E088645 = some (.not 1 2 3 4 5)
    ∧ Sys2Proof.decode 0x0F088645 = some (.shl 1 2 3 4 5) := by
  decide

theorem test_forms_1 :
    Sys2Proof.decode 0x10088645 = some (.shr 1 2 3 4 5)
    ∧ Sys2Proof.decode 0x11088645 = some (.sar 1 2 3 4 5)
    ∧ Sys2Proof.decode 0x12088645 = some (.rot 1 2 3 4 5)
    ∧ Sys2Proof.decode 0x13088645 = some (.clz 1 2 3 4 5)
    ∧ Sys2Proof.decode 0x14088645 = some (.popc 1 2 3 4 5)
    ∧ Sys2Proof.decode 0x15088645 = some (.brev 1 2 3 4 5)
    ∧ Sys2Proof.decode 0x16088645 = some (.bfx 1 2 3 4 5)
    ∧ Sys2Proof.decode 0x17088645 = some (.bfi 1 2 3 4 5)
    ∧ Sys2Proof.decode 0x18088645 = some (.cmp 1 2 3 4 5)
    ∧ Sys2Proof.decode 0x19088645 = some (.sel 1 2 3 4 5)
    ∧ Sys2Proof.decode 0x1A088645 = some (.addSat 1 2 3 4 5)
    ∧ Sys2Proof.decode 0x1B088645 = some (.subSat 1 2 3 4 5)
    ∧ Sys2Proof.decode 0x1C088645 = some (.mulSat 1 2 3 4 5)
    ∧ Sys2Proof.decode 0x1D088645 = some (.madSat 1 2 3 4 5)
    ∧ Sys2Proof.decode 0x1E088645 = some (.negSat 1 2 3 4 5)
    ∧ Sys2Proof.decode 0x1F088645 = some (.absSat 1 2 3 4 5) := by
  decide

theorem test_forms_2 :
    Sys2Proof.decode 0x20088645 = some (.shlSat 1 2 3 4 5)
    ∧ Sys2Proof.decode 0x28088645 = some (.fadd 1 2 3 4 5)
    ∧ Sys2Proof.decode 0x29088645 = some (.fsub 1 2 3 4 5)
    ∧ Sys2Proof.decode 0x2A088645 = some (.fmul 1 2 3 4 5)
    ∧ Sys2Proof.decode 0x2B088645 = some (.ffma 1 2 3 4 5)
    ∧ Sys2Proof.decode 0x2C088645 = some (.fmin 1 2 3 4 5)
    ∧ Sys2Proof.decode 0x2D088645 = some (.fmax 1 2 3 4 5)
    ∧ Sys2Proof.decode 0x2E088645 = some (.fabs 1 2 3 4 5)
    ∧ Sys2Proof.decode 0x2F088645 = some (.fneg 1 2 3 4 5) := by
  decide

theorem test_forms_3 :
    Sys2Proof.decode 0x30088645 = some (.fcmp 1 2 3 4 5)
    ∧ Sys2Proof.decode 0x31088645 = some (.fdiv 1 2 3 4 5)
    ∧ Sys2Proof.decode 0x32088645 = some (.fsqrt 1 2 3 4 5)
    ∧ Sys2Proof.decode 0x33088645 = some (.frcp 1 2 3 4 5)
    ∧ Sys2Proof.decode 0x34088645 = some (.frsq 1 2 3 4 5)
    ∧ Sys2Proof.decode 0x35088645 = some (.fexp2 1 2 3 4 5)
    ∧ Sys2Proof.decode 0x36088645 = some (.flog2 1 2 3 4 5)
    ∧ Sys2Proof.decode 0x37088645 = some (.ftanh 1 2 3 4 5)
    ∧ Sys2Proof.decode 0x38088645 = some (.fsigm 1 2 3 4 5)
    ∧ Sys2Proof.decode 0x39088645 = some (.fclass 1 2 3 4 5) := by
  decide

theorem test_forms_4 :
    Sys2Proof.decode 0x40088645 = some (.cvt 1 2 3 4 5)
    ∧ Sys2Proof.decode 0x41088645 = some (.cvtSat 1 2 3 4 5)
    ∧ Sys2Proof.decode 0x42088645 = some (.cvtS 1 2 3 4 5)
    ∧ Sys2Proof.decode 0x43088645 = some (.cvtN 1 2 3 4 5)
    ∧ Sys2Proof.decode 0x44088645 = some (.quant 1 2 3 4 5)
    ∧ Sys2Proof.decode 0x45088645 = some (.quantS 1 2 3 4 5)
    ∧ Sys2Proof.decode 0x46088645 = some (.quantN 1 2 3 4 5)
    ∧ Sys2Proof.decode 0x47088645 = some (.mxpack 1 2 3 4 5)
    ∧ Sys2Proof.decode 0x48088645 = some (.mxpackS 1 2 3 4 5)
    ∧ Sys2Proof.decode 0x49088645 = some (.mxpackN 1 2 3 4 5)
    ∧ Sys2Proof.decode 0x4A0FC645 = some (.mxunpk 1 3 4 5)
    ∧ Sys2Proof.decode 0x4B088645 = some (.keyx 1 2 3 4 5) := by
  decide

theorem test_forms_5 :
    Sys2Proof.decode 0x50088645 = some (.vsum 1 2 3 4 5)
    ∧ Sys2Proof.decode 0x51088645 = some (.vmax 1 2 3 4 5)
    ∧ Sys2Proof.decode 0x52088645 = some (.vmin 1 2 3 4 5)
    ∧ Sys2Proof.decode 0x53088645 = some (.vscan 1 2 3 4 5)
    ∧ Sys2Proof.decode 0x54088645 = some (.vperm 1 2 3 4 5)
    ∧ Sys2Proof.decode 0x55088645 = some (.vsplat 1 2 3 4 5)
    ∧ Sys2Proof.decode 0x56088645 = some (.vpack 1 2 3 4 5)
    ∧ Sys2Proof.decode 0x57088645 = some (.vunpk 1 2 3 4 5)
    ∧ Sys2Proof.decode 0x58088645 = some (.vmask 1 2 3 4 5)
    ∧ Sys2Proof.decode 0x59088645 = some (.vcount 1 2 3 4 5) := by
  decide

theorem test_forms_6 :
    Sys2Proof.decode 0x60088645 = some (.sw 1 2 3 4 5)
    ∧ Sys2Proof.decode 0x61004645 = some (.mrg 3 4 5)
    ∧ Sys2Proof.decode 0x62088645 = some (.gate 1 2 3 4 5)
    ∧ Sys2Proof.decode 0x63088645 = some (.fan 1 2 3 4 5)
    ∧ Sys2Proof.decode 0x64088645 = some (.mov 1 2 3 4 5)
    ∧ Sys2Proof.decode 0x6508BFF5 = some (.sink 1 2 5)
    ∧ Sys2Proof.decode 0x6608BFF5 = some (.exit 1 2 5)
    ∧ Sys2Proof.decode 0x67088645 = some (.csw 1 2 3 4 5)
    ∧ Sys2Proof.decode 0x68088645 = some (.trig 1 2 3 4 5)
    ∧ Sys2Proof.decode 0x69088645 = some (.delay 1 2 3 4 5) := by
  decide

theorem test_forms_7 :
    Sys2Proof.decode 0x70088640 = some (.enter 1 2 3 4)
    ∧ Sys2Proof.decode 0x71088640 = some (.leave 1 2 3 4)
    ∧ Sys2Proof.decode 0x72088640 = some (.spawn 1 2 3 4)
    ∧ Sys2Proof.decode 0x73088640 = some (.retn 1 2 3 4)
    ∧ Sys2Proof.decode 0x74088640 = some (.tget 1 2 3 4)
    ∧ Sys2Proof.decode 0x75088640 = some (.tset 1 2 3 4)
    ∧ Sys2Proof.decode 0x76088640 = some (.renm 1 2 3 4)
    ∧ Sys2Proof.decode 0x78088645 = some (.loop 1 2 3 4 5)
    ∧ Sys2Proof.decode 0x79088645 = some (.sloop 1 2 3 4 5)
    ∧ Sys2Proof.decode 0x7A088645 = some (.stree 1 2 3 4 5)
    ∧ Sys2Proof.decode 0x7C088645 = some (.eos 1 2 3 4 5)
    ∧ Sys2Proof.decode 0x7D004645 = some (.zip 3 4 5) := by
  decide

theorem test_forms_8 :
    Sys2Proof.decode 0x80088645 = some (.mxmode 1 2 3 4 5)
    ∧ Sys2Proof.decode 0x81088645 = some (.wload 1 2 3 4 5)
    ∧ Sys2Proof.decode 0x82088645 = some (.mma 1 2 3 4 5)
    ∧ Sys2Proof.decode 0x83088645 = some (.accrd 1 2 3 4 5)
    ∧ Sys2Proof.decode 0x84088645 = some (.accz 1 2 3 4 5)
    ∧ Sys2Proof.decode 0x85088645 = some (.scale 1 2 3 4 5)
    ∧ Sys2Proof.decode 0x86088645 = some (.burst 1 2 3 4 5)
    ∧ Sys2Proof.decode 0x87088645 = some (.mxexit 1 2 3 4 5)
    ∧ Sys2Proof.decode 0x88088645 = some (.hist 1 2 3 4 5)
    ∧ Sys2Proof.decode 0x89088645 = some (.hscan 1 2 3 4 5)
    ∧ Sys2Proof.decode 0x8A088645 = some (.rsel 1 2 3 4 5)
    ∧ Sys2Proof.decode 0x8B004645 = some (.mergek 3 4 5)
    ∧ Sys2Proof.decode 0x8C088645 = some (.topk 1 2 3 4 5) := by
  decide

theorem test_forms_9 :
    Sys2Proof.decode 0x90088645 = some (.ld 1 2 3 4 5)
    ∧ Sys2Proof.decode 0x91088645 = some (.st 1 2 3 4 5)
    ∧ Sys2Proof.decode 0x92088645 = some (.ldx 1 2 3 4 5)
    ∧ Sys2Proof.decode 0x93088645 = some (.stx 1 2 3 4 5)
    ∧ Sys2Proof.decode 0x94088645 = some (.agset 1 2 3 4 5)
    ∧ Sys2Proof.decode 0x95088645 = some (.lda 1 2 3 4 5)
    ∧ Sys2Proof.decode 0x96088645 = some (.sta 1 2 3 4 5)
    ∧ Sys2Proof.decode 0x97088645 = some (.pref 1 2 3 4 5)
    ∧ Sys2Proof.decode 0x98088645 = some (.iwrite 1 2 3 4 5)
    ∧ Sys2Proof.decode 0x99088645 = some (.iread 1 2 3 4 5)
    ∧ Sys2Proof.decode 0x9A088645 = some (.feset 1 2 3 4 5)
    ∧ Sys2Proof.decode 0x9B088645 = some (.feclr 1 2 3 4 5)
    ∧ Sys2Proof.decode 0x9C088645 = some (.gld 1 2 3 4 5)
    ∧ Sys2Proof.decode 0x9D088645 = some (.gst 1 2 3 4 5)
    ∧ Sys2Proof.decode 0x9E088645 = some (.sld 1 2 3 4 5)
    ∧ Sys2Proof.decode 0x9F088645 = some (.sst 1 2 3 4 5) := by
  decide

theorem test_forms_A :
    Sys2Proof.decode 0xA0088645 = some (.igath 1 2 3 4 5)
    ∧ Sys2Proof.decode 0xA1088645 = some (.iscat 1 2 3 4 5)
    ∧ Sys2Proof.decode 0xA2088645 = some (.cpy 1 2 3 4 5)
    ∧ Sys2Proof.decode 0xA3088645 = some (.igathOrd 1 2 3 4 5)
    ∧ Sys2Proof.decode 0xA4088645 = some (.iscatOrd 1 2 3 4 5)
    ∧ Sys2Proof.decode 0xA8088645 = some (.aadd 1 2 3 4 5)
    ∧ Sys2Proof.decode 0xA9088645 = some (.amin 1 2 3 4 5)
    ∧ Sys2Proof.decode 0xAA088645 = some (.amax 1 2 3 4 5)
    ∧ Sys2Proof.decode 0xAB088645 = some (.aand 1 2 3 4 5)
    ∧ Sys2Proof.decode 0xAC088645 = some (.aor 1 2 3 4 5)
    ∧ Sys2Proof.decode 0xAD088645 = some (.axor 1 2 3 4 5)
    ∧ Sys2Proof.decode 0xAE088645 = some (.axchg 1 2 3 4 5)
    ∧ Sys2Proof.decode 0xAF088645 = some (.acas 1 2 3 4 5) := by
  decide

theorem test_forms_B :
    Sys2Proof.decode 0xB0088645 = some (.aaddAcq 1 2 3 4 5)
    ∧ Sys2Proof.decode 0xB1088645 = some (.aminAcq 1 2 3 4 5)
    ∧ Sys2Proof.decode 0xB2088645 = some (.amaxAcq 1 2 3 4 5)
    ∧ Sys2Proof.decode 0xB3088645 = some (.aandAcq 1 2 3 4 5)
    ∧ Sys2Proof.decode 0xB4088645 = some (.aorAcq 1 2 3 4 5)
    ∧ Sys2Proof.decode 0xB5088645 = some (.axorAcq 1 2 3 4 5)
    ∧ Sys2Proof.decode 0xB6088645 = some (.axchgAcq 1 2 3 4 5)
    ∧ Sys2Proof.decode 0xB7088645 = some (.acasAcq 1 2 3 4 5)
    ∧ Sys2Proof.decode 0xB8088645 = some (.aaddRel 1 2 3 4 5)
    ∧ Sys2Proof.decode 0xB9088645 = some (.aminRel 1 2 3 4 5)
    ∧ Sys2Proof.decode 0xBA088645 = some (.amaxRel 1 2 3 4 5)
    ∧ Sys2Proof.decode 0xBB088645 = some (.aandRel 1 2 3 4 5)
    ∧ Sys2Proof.decode 0xBC088645 = some (.aorRel 1 2 3 4 5)
    ∧ Sys2Proof.decode 0xBD088645 = some (.axorRel 1 2 3 4 5)
    ∧ Sys2Proof.decode 0xBE088645 = some (.axchgRel 1 2 3 4 5)
    ∧ Sys2Proof.decode 0xBF088645 = some (.acasRel 1 2 3 4 5) := by
  decide

theorem test_forms_C :
    Sys2Proof.decode 0xC0088645 = some (.fence 1 2 3 4 5)
    ∧ Sys2Proof.decode 0xC1088645 = some (.ordj 1 2 3 4 5)
    ∧ Sys2Proof.decode 0xC2088645 = some (.barw 1 2 3 4 5)
    ∧ Sys2Proof.decode 0xC3088645 = some (.bara 1 2 3 4 5)
    ∧ Sys2Proof.decode 0xC4088645 = some (.qwait 1 2 3 4 5)
    ∧ Sys2Proof.decode 0xC5088645 = some (.lodeq 1 2 3 4 5)
    ∧ Sys2Proof.decode 0xC8088645 = some (.rbind 1 2 3 4 5)
    ∧ Sys2Proof.decode 0xC9088645 = some (.rule 1 2 3 4 5)
    ∧ Sys2Proof.decode 0xCA088645 = some (.tins 1 2 3 4 5)
    ∧ Sys2Proof.decode 0xCB088645 = some (.tprobe 1 2 3 4 5)
    ∧ Sys2Proof.decode 0xCC088645 = some (.tprobeD 1 2 3 4 5)
    ∧ Sys2Proof.decode 0xCD088645 = some (.tprobeAll 1 2 3 4 5)
    ∧ Sys2Proof.decode 0xCE088645 = some (.tnot 1 2 3 4 5)
    ∧ Sys2Proof.decode 0xCF088645 = some (.round 1 2 3 4 5) := by
  decide

theorem test_forms_D :
    Sys2Proof.decode 0xD0088645 = some (.fixq 1 2 3 4 5)
    ∧ Sys2Proof.decode 0xD1088645 = some (.rclose 1 2 3 4 5)
    ∧ Sys2Proof.decode 0xD2088645 = some (.tdel 1 2 3 4 5)
    ∧ Sys2Proof.decode 0xD3088645 = some (.tredr 1 2 3 4 5)
    ∧ Sys2Proof.decode 0xD4088645 = some (.tgrad 1 2 3 4 5)
    ∧ Sys2Proof.decode 0xD5088645 = some (.twit 1 2 3 4 5)
    ∧ Sys2Proof.decode 0xD8088645 = some (.eprog 1 2 3 4 5)
    ∧ Sys2Proof.decode 0xD9088645 = some (.edens 1 2 3 4 5)
    ∧ Sys2Proof.decode 0xDA088645 = some (.emode 1 2 3 4 5) := by
  decide

theorem test_forms_E :
    Sys2Proof.decode 0xE0088645 = some (.name 1 2 3 4 5)
    ∧ Sys2Proof.decode 0xE1088645 = some (.claim 1 2 3 4 5)
    ∧ Sys2Proof.decode 0xE2088645 = some (.fulfil 1 2 3 4 5)
    ∧ Sys2Proof.decode 0xE3088645 = some (.abandon 1 2 3 4 5)
    ∧ Sys2Proof.decode 0xE4088645 = some (.clinv 1 2 3 4 5)
    ∧ Sys2Proof.decode 0xE5088645 = some (.clqry 1 2 3 4 5)
    ∧ Sys2Proof.decode 0xE8088645 = some (.task 1 2 3 4 5)
    ∧ Sys2Proof.decode 0xE9088645 = some (.tile 1 2 3 4 5)
    ∧ Sys2Proof.decode 0xEA088645 = some (.stageq 1 2 3 4 5) := by
  decide

theorem test_forms_F :
    Sys2Proof.decode 0xF0088645 = some (.trap 1 2 3 4 5)
    ∧ Sys2Proof.decode 0xF1088645 = some (.resume 1 2 3 4 5)
    ∧ Sys2Proof.decode 0xF2088645 = some (.discard 1 2 3 4 5)
    ∧ Sys2Proof.decode 0xF3088645 = some (.kill 1 2 3 4 5)
    ∧ Sys2Proof.decode 0xF4088645 = some (.csrr 1 2 3 4 5)
    ∧ Sys2Proof.decode 0xF5088645 = some (.csrw 1 2 3 4 5)
    ∧ Sys2Proof.decode 0xF6088645 = some (.hcall 1 2 3 4 5)
    ∧ Sys2Proof.decode 0xF7088645 = some (.cfgld 1 2 3 4 5)
    ∧ Sys2Proof.decode 0xF8088645 = some (.save 1 2 3 4 5)
    ∧ Sys2Proof.decode 0xF9088645 = some (.restore 1 2 3 4 5)
    ∧ Sys2Proof.decode 0xFA088645 = some (.cfgfl 1 2 3 4 5)
    ∧ Sys2Proof.decode 0xFB088645 = some (.pgmig 1 2 3 4 5)
    ∧ Sys2Proof.decode 0xFC088645 = some (.scrub 1 2 3 4 5)
    ∧ Sys2Proof.decode 0xFD088645 = some (.retire 1 2 3 4 5)
    ∧ Sys2Proof.decode 0xFE088645 = some (.attest 1 2 3 4 5) := by
  decide

/-! ## Worked examples of the spec, and single steps with results worked out by hand -/

namespace Sys2Proof.Tests

/-- The lanes of the tokens that leave an instruction for D0, which leads to element 0, on two tokens of a format. -/
def result (i : Instr) (fmt : DWord) (a b : Option Tok) : List DWord :=
  match exec i (st (img [(42, fmt), (34, 0x40000000)]) 0 a b) with
  | .next t => t.fab.agenda.flatMap fun v => match v with | .tokenArrive _ _ x => x.lanes | _ => []
  | _ => []

/-- The flags of element 0 after an instruction. -/
def flagsOf (i : Instr) (fmt : DWord) (a b : Option Tok) : Word :=
  match exec i (st (img [(42, fmt)]) 0 a b) with
  | .next t => (t.fab.el 0).aflags
  | _ => 0xFFFFFFFF

/-- The stack of R437's example: a guarded region of BASE 0x90 and COUNT 1, and channel 7 retired. -/
def guardedStack : Fabric := (Fabric.reset.modDie 0 fun d => { d with regs := [(0x208, 0x8000000000010090)] })

end Sys2Proof.Tests

/-- R375's example: the hash of a name, its stack and its set. -/
theorem test_name_home : nameHash (0x0011D1000029B204, 3, 0x42) = 3695485
    ∧ Fabric.reset.geodeHome 0 1 (0x0011D1000029B204, 3, 0x42) = (13, 6522) := by decide +kernel

/-- The example after R437: offset 0x1232AF40 lies on channel 7 in row 149130, and the row's redirected channel is 21. -/
theorem test_guarded_line : guardedStack.lineAt 0 0x1232AF40 = .guarded 7 149130
    ∧ (guardedStack.setBd 0 0x201 0x02700000FFFFFF7F).redirect 0 0 149130 = 21 := by decide +kernel

/-- I8: 0x7F + 1 wraps to 0x80 and sets OF. -/
theorem test_add_wraps : result (.add 0 1 0 0x1F 0) 0 (some (tk false 0 0x7F)) (some (tk true 0 1)) = [0x80]
    ∧ flagsOf (.add 0 1 0x1F 0x1F 0) 0 (some (tk false 0 0x7F)) (some (tk true 0 1)) ≠ 0 := by decide +kernel
/-- I8: 5 - 7 is -2. -/
theorem test_sub_order : result (.sub 0 1 0 0x1F 0) 0 (some (tk false 0 5)) (some (tk true 0 7)) = [0xFE] := by decide +kernel
/-- R114: -1 is less than 1 in I8 and greater in N8. -/
theorem test_cmp_sign : result (.cmp 0 1 0 0x1F 0) 0 (some (tk false 0 0xFF)) (some (tk true 0 1)) = [1]
    ∧ result (.cmp 0 1 0 0x1F 0) 0x44 (some (tk false 4 0xFF)) (some (tk true 4 1)) = [4] := by decide +kernel
/-- SAR keeps the sign, SHR does not. -/
theorem test_shifts_right : result (.sar 0 1 0 0x1F 0) 0 (some (tk false 0 0x80)) (some (tk true 0 3)) = [0xF0]
    ∧ result (.shr 0 1 0 0x1F 0) 0 (some (tk false 0 0x80)) (some (tk true 0 3)) = [0x10] := by decide +kernel
/-- F32: 1.5 + 2.25 = 3.75. -/
theorem test_fadd : result (.fadd 0 1 0 0x1F 0) 0xAA (some (tk false 10 0x3FC00000)) (some (tk true 10 0x40100000)) = [0x40700000] := by decide +kernel
/-- F32: 1 / 4, and the square root of 2.25. -/
theorem test_fdiv_fsqrt : result (.fdiv 0 1 0 0x1F 0) 0xAA (some (tk false 10 0x3F800000)) (some (tk true 10 0x40800000)) = [0x3E800000]
    ∧ result (.fsqrt 0 1 0 0x1F 0) 0xAA (some (tk false 10 0x40100000)) (some (tk true 10 0)) = [0x3FC00000] := by decide +kernel
/-- I32 to F32: -3. -/
theorem test_cvt : result (.cvt 0 1 0 0x1F 0) 0x2A (some (tk false 2 0xFFFFFFFD)) (some (tk true 2 0)) = [0xC0400000] := by decide +kernel
/-- The valid lanes 0 and 2 of a run of four are summed. -/
theorem test_vsum : result (.vsum 0 1 0 0x1F 0) 0x22 (some (rn false 2 5 [1, 2, 3, 4])) (some (rn true 2 5 [0, 0, 0, 0])) = [4] := by decide +kernel

set_option maxRecDepth 100000 in
/-- SHAKE256 of the empty string, as FIPS 202's published examples give it. -/
theorem test_shake256 : shake [] 4 = [0x46, 0xB9, 0xDD, 0x2B] := by decide +kernel

end
end

/-! ## Proofs: encoding and decoding (R40, R60) -/

namespace Sys2Proof.Laws.Encoding

open Sys2Proof

/-! ### The fields of a word -/

/-- R40's layout as a sum: each field weighs two to the place of its lowest bit. -/
theorem mkWord_toNat (op : Byte) (a b d e : BitVec 5) (t : BitVec 4) :
    (mkWord op a b d e t).toNat
      = op.toNat * 2 ^ 24 + a.toNat * 2 ^ 19 + b.toNat * 2 ^ 14 + d.toNat * 2 ^ 9 + e.toNat * 2 ^ 4 + t.toNat := by
  simp only [mkWord, BitVec.toNat_append]
  rw [← Nat.shiftLeft_add_eq_or_of_lt t.isLt, ← Nat.shiftLeft_add_eq_or_of_lt e.isLt, ← Nat.shiftLeft_add_eq_or_of_lt d.isLt,
    ← Nat.shiftLeft_add_eq_or_of_lt b.isLt, ← Nat.shiftLeft_add_eq_or_of_lt a.isLt]
  simp only [Nat.shiftLeft_eq]
  omega

/-- A bit range of a word is a quotient and remainder of its number. -/
theorem extractLsb'_eq_of_div_mod {w : Word} {lo len : Nat} {x : BitVec len} (h : w.toNat / 2 ^ lo % 2 ^ len = x.toNat) :
    w.extractLsb' lo len = x := by
  apply BitVec.eq_of_toNat_eq
  rw [BitVec.extractLsb'_toNat, Nat.shiftRight_eq_div_pow, h]

section FieldsOfMkWord

variable (op : Byte) (a b d e : BitVec 5) (t : BitVec 4)

@[simp] theorem fieldA_mkWord : fieldA (mkWord op a b d e t) = a := extractLsb'_eq_of_div_mod (by rw [mkWord_toNat]; omega)
@[simp] theorem fieldB_mkWord : fieldB (mkWord op a b d e t) = b := extractLsb'_eq_of_div_mod (by rw [mkWord_toNat]; omega)
@[simp] theorem fieldD_mkWord : fieldD (mkWord op a b d e t) = d := extractLsb'_eq_of_div_mod (by rw [mkWord_toNat]; omega)
@[simp] theorem fieldE_mkWord : fieldE (mkWord op a b d e t) = e := extractLsb'_eq_of_div_mod (by rw [mkWord_toNat]; omega)
@[simp] theorem fieldT_mkWord : fieldT (mkWord op a b d e t) = t := extractLsb'_eq_of_div_mod (by rw [mkWord_toNat]; omega)

end FieldsOfMkWord

/-- The six fields leave no bit of a word out. -/
theorem mkWord_fields (w : Word) : mkWord (fieldOp w) (fieldA w) (fieldB w) (fieldD w) (fieldE w) (fieldT w) = w := by
  apply BitVec.eq_of_toNat_eq
  rw [mkWord_toNat]
  simp only [fieldOp, fieldA, fieldB, fieldD, fieldE, fieldT, BitVec.extractLsb'_toNat, Nat.shiftRight_eq_div_pow]
  omega

/-! ### The two directions -/

/-- By cases on the instruction: an event has no word, and the word of a form has known fields, at which the decoder's table gives the form
back. The fields get names of their own before the case split, so that a case puts its values into the table by substitution. -/
theorem decode_of_encode (i : Instr) (w : Word) (h : encode i = some w) : decode w = some i := by
  delta decode
  generalize hop : fieldOp w = op, ha : fieldA w = a, hb : fieldB w = b, hd : fieldD w = d, he : fieldE w = e, ht : fieldT w = t
  cases i <;> cases h
  all_goals
    simp only [op_mkWord, fieldA_mkWord, fieldB_mkWord, fieldD_mkWord, fieldE_mkWord, fieldT_mkWord] at hop ha hb hd he ht
    subst hop ha hb hd he ht
    rfl

/-- By cases on the opcode. The decoder drops only fields whose codes it has compared with the form's (R124, R143, R144, R147, R156, R187), so
the encoder, which writes those codes, restores the word. -/
theorem encode_of_decode (w : Word) (i : Instr) (h : decode w = some i) : encode i = some w := by
  have hlt := (fieldOp w).isLt
  have hop : fieldOp w = BitVec.ofNat 8 (fieldOp w).toNat := by simp
  rw [← mkWord_fields w, hop]
  clear hop
  delta decode at h
  generalize (fieldOp w).toNat = op at *
  interval_cases op
  -- A form that keeps every field is its own arm; an unassigned opcode decodes to nothing.
  any_goals cases h
  any_goals rfl
  -- Left are MXUNPK, MRG, SINK, EXIT, the tag forms, ZIP and MERGEK: the arm's guard gives the field that the form does not hold.
  all_goals
    obtain ⟨hcodes, h⟩ := Option.ite_none_right_eq_some.mp h
    cases h
    simp only [hcodes]
    rfl

/-- Settles O54: the two directions, and R40's layout of a word. -/
theorem encodingIsExact : Obligations.EncodingIsExact := by
  unfold Obligations.EncodingIsExact
  refine ⟨decode_of_encode, encode_of_decode, fun op a b d e t => ?_⟩
  exact ⟨mkWord_toNat op a b d e t, op_mkWord op a b d e t, fieldA_mkWord op a b d e t, fieldB_mkWord op a b d e t,
    fieldD_mkWord op a b d e t, fieldE_mkWord op a b d e t, fieldT_mkWord op a b d e t⟩

end Sys2Proof.Laws.Encoding

/-! ## Proofs: VSUM, VMAX, VMIN and VSCAN over the fixed tree (R100, R101, R126, R128) -/

namespace Sys2Proof.Laws.Vector

open Sys2Proof Sys2Proof.Machine

/-! ### Values read are finite and not zero, or have a constructor of their own -/

theorem pow2_n_pos (k : Int) : 0 < (pow2 k).n := by
  unfold pow2
  split <;> simp

theorem magVal_n_pos (p : FP) {m : Nat} (h : m ≠ 0) : 0 < (p.magVal m).n := by
  have hnorm : 0 < m % 2 ^ p.t ∨ m / 2 ^ p.t ≠ 0 := by
    have := Nat.div_add_mod m (2 ^ p.t)
    by_contra! hc
    rw [hc.2] at this
    omega
  unfold FP.magVal
  dsimp only [Q.mul]
  split
  case isTrue he => exact mul_pos (Int.natCast_pos.mpr (hnorm.resolve_right (not_not.mpr he))) (pow2_n_pos _)
  case isFalse => exact mul_pos (by positivity) (pow2_n_pos _)

theorem fread_fin_ne_zero {p : FP} {x : DWord} {q : Q} (h : fread p x = .fin q) : q.n ≠ 0 := by
  unfold fread at h
  dsimp only at h
  repeat' split at h
  all_goals cases h
  -- Left are the finite values of either sign, whose magnitude code is not zero.
  all_goals
    have hmag := (magVal_n_pos p ‹¬p.magOf _ = 0›).ne'
    simpa [Q.neg] using hmag

/-! ### What a node of the tree computes -/

section Finish

variable {p : FP} {m : Round}

theorem isNan_finishFR (iv : Bool) :
    IsNan p iv (finishFR p m 0 (.nan false, flagIf iv flIV)).bits (finishFR p m 0 (.nan false, flagIf iv flIV)).fl :=
  ⟨rfl, BitVec.zero_or⟩

theorem isNan_nanOf (x y : FV) : IsNan p (x.isSig || y.isSig) (finishFR p m 0 (nanOf [x, y])).bits (finishFR p m 0 (nanOf [x, y])).fl := by
  simpa [nanOf] using isNan_finishFR (p := p) (m := m) (x.isSig || y.isSig)

theorem isInf_finishFR (hs : p.signed = true) (hi : p.hasInf = true) (neg : Bool) :
    IsInf p neg (finishFR p m 0 (.inf neg, 0)).bits (finishFR p m 0 (.inf neg, 0)).fl := by
  simp [IsInf, finishFR, roundFV, hs, hi]

theorem isZero_finishFR (neg : Bool) : IsZero p neg (finishFR p m 0 (.zero neg, 0)).bits (finishFR p m 0 (.zero neg, 0)).fl :=
  ⟨rfl, BitVec.or_zero⟩

theorem rounds_finishFR (q : Q) (zneg : Bool) :
    Rounds p m zneg q.n q.d (finishFR p m 0 (qFV q zneg, 0)).bits (finishFR p m 0 (qFV q zneg, 0)).fl := by
  unfold Rounds qFV
  split
  case isTrue => exact isZero_finishFR zneg
  case isFalse => exact ⟨rfl, BitVec.or_zero⟩

theorem qFV_of_ne_zero {q : Q} (h : q.n ≠ 0) (zneg : Bool) : qFV q zneg = .fin q := if_neg h

/-- In a format with a sign and infinities, the sum rounded once is what R116 gives case by case. -/
theorem sumIs_finishFR (hs : p.signed = true) (hi : p.hasInf = true) {x y : FV}
    (hx : ∀ q, x = .fin q → q.n ≠ 0) (hy : ∀ q, y = .fin q → q.n ≠ 0) :
    SumIs p m x y (finishFR p m 0 (addFV m x y)).bits (finishFR p m 0 (addFV m x y)).fl := by
  have hm : (m == Round.rdn) = decide (m = .rdn) := by cases m <;> rfl
  cases x with
  | nan s => exact isNan_nanOf (.nan s) y
  | inf s =>
    cases y with
    | nan t => exact isNan_nanOf (.inf s) (.nan t)
    | inf t =>
      by_cases hst : s = t
      · simpa [SumIs, addFV, hst] using isInf_finishFR hs hi t
      · simpa [SumIs, addFV, hst, flagIf] using isNan_finishFR true
    | _ => exact isInf_finishFR hs hi s
  | zero s =>
    cases y with
    | nan t => exact isNan_nanOf (.zero s) (.nan t)
    | inf t => exact isInf_finishFR hs hi t
    | zero t => simpa [SumIs, addFV, hm] using isZero_finishFR (if s = t then s else decide (m = .rdn))
    | fin q => simpa [SumIs, addFV, qFV_of_ne_zero (hy q rfl)] using rounds_finishFR q false
  | fin q =>
    cases y with
    | nan t => exact isNan_nanOf (.fin q) (.nan t)
    | inf t => exact isInf_finishFR hs hi t
    | zero t => simpa [SumIs, addFV, qFV_of_ne_zero (hx q rfl)] using rounds_finishFR q false
    | fin r => simpa [SumIs, addFV, hm, Q.add] using rounds_finishFR (Q.add q r) (decide (m = .rdn))

end Finish

/-- A wrapped integer keeps its low bits and says where they are not the number (R110). -/
theorem wrapsTo_wrapInt (f : Fmt) (x : Int) : WrapsTo f x (wrapInt f x).1 (wrapInt f x).2 := by
  refine ⟨keepBits_lt f x, ?_, ?_⟩
  · rw [wrapInt, toNat_keepBits]
    simp
  · by_cases h : intMin f ≤ x ∧ x ≤ intMax f
    · simp [wrapInt, inRange, flagIf, h]
    · have hout : inRange f x = false := by simpa [inRange, ← Bool.decide_and] using h
      simp [wrapInt, flagIf, hout, h]

/-- The model's minimum and maximum are those of R118. -/
theorem pickIs_minmaxF (p : FP) (isMax : Bool) (x y : DWord) : PickIs p isMax x y (minmaxF p isMax x y).1 (minmaxF p isMax x y).2 := by
  unfold PickIs minmaxF flagIf
  cases hx : (fread p x).isNan <;> cases hy : (fread p y).isNan
  case false.false => cases isMax <;> simp [hx, hy]
  all_goals simp [hx, hy]

/-- What a node computes of two values is what a rule of the spec says of them. -/
def Computes (G : DWord → DWord → DWord → Flags → Prop) (g : DWord → DWord → DWord × Flags) : Prop := ∀ u v, G u v (g u v).1 (g u v).2

theorem isFlt_signed {f : Fmt} (h : f.isFlt = true) (m : Byte) : (fparams f m).signed = true ∧ (fparams f m).hasInf = true := by
  obtain (rfl | rfl) | rfl : (f = .f16 ∨ f = .bf16) ∨ f = .f32 := by simpa [Fmt.isFlt] using h
  all_goals exact ⟨rfl, rfl⟩

theorem isFltB_of_isIntX {f : Fmt} (h : f.isIntX = true) : f.isFltB = false := by
  revert h
  cases f <;> decide

theorem isFlt_of_isFltB {f : Fmt} (h : f.isFltB = false) : f.isFlt = false := (Bool.or_eq_false_iff.mp h).1

/-- VSUM's node adds as R100 says. -/
theorem computes_sumNode (c : FCtx) : Computes c.addsTo c.sumNode := by
  refine fun u v => ⟨fun hflt => ?_, fun hint => ?_⟩
  · obtain ⟨hs, hi⟩ := isFlt_signed hflt c.img.b8mode
    simp only [FCtx.sumNode, hflt, if_true]
    exact sumIs_finishFR hs hi (fun q => fread_fin_ne_zero) (fun q => fread_fin_ne_zero)
  · simp only [FCtx.sumNode, isFlt_of_isFltB (isFltB_of_isIntX hint)]
    exact wrapsTo_wrapInt _ _

/-- A node of VMAX or VMIN picks as R126 says. -/
theorem computes_pickNode (isMax : Bool) (c : FCtx) : Computes (c.picks isMax) (c.pickNode isMax) := by
  refine fun u v => ⟨fun hflt => ?_, fun hint => ?_⟩
  · simp only [FCtx.pickNode, hflt, if_true]
    exact pickIs_minmaxF _ _ _ _
  · simp only [FCtx.pickNode, isFltB_of_isIntX hint]
    cases isMax <;> simp

/-! ### The tree of the model is the tree of R100 -/

/-- The value of a node. -/
def nodeVal (n : Node) : Option DWord := n.map (·.1)

/-- The flags raised beneath a node; an empty one has none. -/
def nodeFlags (n : Node) : Flags := (n.map (·.2)).getD 0

/-- The lowest level of a tree holds its leaves, without flags. -/
def LeavesAre (leaf : Nat → Option DWord) (leaves : List Node) : Prop :=
  ∀ k < leaves.length, nodeVal (leaves.getD k none) = leaf k ∧ nodeFlags (leaves.getD k none) = 0

section Tree

variable {G : DWord → DWord → DWord → Flags → Prop} {g : DWord → DWord → DWord × Flags}
  {leaf : Nat → Option DWord} {leaves : List Node}

theorem joinIs_joinNode (hg : Computes G g) (x y : Node) :
    JoinIs G (nodeVal x) (nodeFlags x) (nodeVal y) (nodeFlags y) (nodeVal (joinNode g x y)) (nodeFlags (joinNode g x y)) := by
  cases x with
  | none => exact ⟨rfl, rfl⟩
  | some a =>
    cases y with
    | none => exact ⟨rfl, rfl⟩
    | some b => exact ⟨_, _, hg a.1 b.1, rfl, rfl⟩

theorem joinIs_isSome {x y r : Option DWord} {fx fy fl : Flags} (h : JoinIs G x fx y fy r fl) : r.isSome = (x.isSome || y.isSome) := by
  cases x with
  | none => obtain ⟨rfl, _⟩ := h; rfl
  | some u =>
    cases y with
    | none => obtain ⟨rfl, _⟩ := h; rfl
    | some v => obtain ⟨w, fw, _, rfl, _⟩ := h; rfl

theorem nextLevel_getD (l : List Node) {i : Nat} (h : 2 * i + 1 < l.length) :
    (nextLevel g l).getD i none = joinNode g (l.getD (2 * i) none) (l.getD (2 * i + 1) none) := by
  induction l using nextLevel.induct generalizing i with
  | case1 x y r ih =>
    cases i with
    | zero => rfl
    | succ i => simpa [nextLevel, Nat.mul_succ] using ih (i := i) (by simp at h; omega)
  | case2 l hl =>
    rcases l with _ | ⟨x, _ | ⟨y, r⟩⟩
    · simp at h
    · simp at h
    · exact (hl x y r rfl).elim

theorem treeLevels_getD {n j : Nat} (h : j ≤ n) (l : List Node) : (treeLevels g n l).getD j [] = (nextLevel g)^[j] l := by
  induction j generalizing n l with
  | zero => cases n <;> rfl
  | succ j ih =>
    obtain ⟨n, rfl⟩ : ∃ k, n = k + 1 := ⟨n - 1, by omega⟩
    simpa [treeLevels] using ih (n := n) (by omega) (nextLevel g l)

theorem treeLevels_length (n : Nat) (l : List Node) : (treeLevels g n l).length = n + 1 := by
  induction n generalizing l with
  | zero => rfl
  | succ n ih => simp [treeLevels, ih]

/-- The last level is the root's. -/
theorem treeLevels_getLastD (n : Nat) (l : List Node) : (treeLevels g n l).getLastD [] = (nextLevel g)^[n] l := by
  rw [← treeLevels_getD le_rfl, List.getLastD_eq_getLast?, List.getLast?_eq_getElem?, treeLevels_length, List.getD_eq_getElem?_getD]
  rfl

theorem nextLevel_length (l : List Node) : (nextLevel g l).length = l.length / 2 := by
  induction l using nextLevel.induct with
  | case1 x y r ih => simp [nextLevel, ih]; omega
  | case2 l hl =>
    rcases l with _ | ⟨x, _ | ⟨y, r⟩⟩
    · rfl
    · simp [nextLevel]
    · exact (hl x y r rfl).elim

theorem iterate_nextLevel_length (j : Nat) (l : List Node) : ((nextLevel g)^[j] l).length = l.length / 2 ^ j := by
  induction j with
  | zero => simp
  | succ j ih => rw [Function.iterate_succ_apply', nextLevel_length, ih, Nat.div_div_eq_div_mul, pow_succ]

/-- Node i of level j is R100's node over the 2^j leaves from leaf i × 2^j on. -/
theorem treeIs_iterate_nextLevel (hg : Computes G g) (hleaf : LeavesAre leaf leaves) {j i : Nat}
    (h : (i + 1) * 2 ^ j ≤ leaves.length) :
    TreeIs G leaf j (i * 2 ^ j) (nodeVal (((nextLevel g)^[j] leaves).getD i none)) (nodeFlags (((nextLevel g)^[j] leaves).getD i none)) := by
  induction j generalizing i with
  | zero => simpa [TreeIs] using hleaf i (by simpa using h)
  | succ j ih =>
    have hright : (2 * i + 1 + 1) * 2 ^ j ≤ leaves.length := by rw [pow_succ] at h; linarith
    have hleft : (2 * i + 1) * 2 ^ j ≤ leaves.length := le_trans (Nat.mul_le_mul_right _ (by omega)) hright
    have hlen : 2 * i + 1 < ((nextLevel g)^[j] leaves).length := by
      rw [iterate_nextLevel_length]
      exact (Nat.le_div_iff_mul_le (by positivity)).mpr hright
    have hspan : 2 * i * 2 ^ j = i * 2 ^ (j + 1) ∧ (2 * i + 1) * 2 ^ j = i * 2 ^ (j + 1) + 2 ^ j := by
      constructor <;> ring
    rw [Function.iterate_succ_apply', nextLevel_getD _ hlen]
    exact ⟨_, _, _, _, hspan.1 ▸ ih hleft, hspan.2 ▸ ih hright, joinIs_joinNode hg _ _⟩

/-- A node is empty where all its leaves are. -/
theorem treeIs_isSome {h i : Nat} {r : Option DWord} {fl : Flags} (ht : TreeIs G leaf h i r fl) :
    r.isSome = true ↔ ∃ k, i ≤ k ∧ k < i + 2 ^ h ∧ (leaf k).isSome = true := by
  induction h generalizing i r fl with
  | zero =>
    obtain ⟨rfl, _⟩ := ht
    refine ⟨fun hs => ⟨i, le_rfl, by simp, hs⟩, fun ⟨k, h1, h2, hs⟩ => ?_⟩
    obtain rfl : k = i := by simp at h2; omega
    exact hs
  | succ h ih =>
    obtain ⟨x, fx, y, fy, hx, hy, hj⟩ := ht
    rw [joinIs_isSome hj, Bool.or_eq_true, ih hx, ih hy, pow_succ]
    constructor
    · rintro (⟨k, h1, h2, hs⟩ | ⟨k, h1, h2, hs⟩)
      · exact ⟨k, h1, by omega, hs⟩
      · exact ⟨k, by omega, by omega, hs⟩
    · rintro ⟨k, h1, h2, hs⟩
      rcases lt_or_ge k (i + 2 ^ h) with hk | hk
      · exact .inl ⟨k, h1, hk, hs⟩
      · exact .inr ⟨k, hk, by omega, hs⟩

end Tree

/-! ### The running sums of R101 -/

section RunningSum

variable {G : DWord → DWord → DWord → Flags → Prop} {g : DWord → DWord → DWord × Flags}
  {leaf : Nat → Option DWord} {leaves : List Node}

/-- One power of two of the sum of n lanes: the sum so far, and the lane after it. -/
def prefixStep (g : DWord → DWord → DWord × Flags) (levels : List (List Node)) (n : Nat) (p : Node × Nat) (lv : Nat) : Node × Nat :=
  if n.testBit lv then (joinNode g p.1 ((levels.getD lv []).getD (p.2 / 2 ^ lv) none), p.2 + 2 ^ lv) else p

theorem prefixNode_eq (levels : List (List Node)) (k : Nat) :
    prefixNode g levels k = ((List.range 6).reverse.foldl (prefixStep g levels (k + 1)) (none, 0)).1 := rfl

/-- With the powers from 2^H on taken, the fold over the rest adds the nodes of the lanes that are left. -/
theorem prefixIs_foldl (hg : Computes G g) (hleaf : LeavesAre leaf leaves)
    {h : Nat} (hlen : leaves.length = 2 ^ h) {n : Nat} (hn : n ≤ 2 ^ h) (H : Nat) (acc : Node) {i : Nat} (hi : i + n % 2 ^ H = n) :
    PrefixIs G leaf H i (n % 2 ^ H) (nodeVal acc) (nodeFlags acc)
      (nodeVal ((List.range H).reverse.foldl (prefixStep g (treeLevels g h leaves) n) (acc, i)).1)
      (nodeFlags ((List.range H).reverse.foldl (prefixStep g (treeLevels g h leaves) n) (acc, i)).1) := by
  induction H generalizing acc i with
  | zero => exact ⟨rfl, rfl⟩
  | succ H ih =>
    have hmod : n % 2 ^ (H + 1) = n % 2 ^ H + 2 ^ H * (n.testBit H).toNat := by rw [Nat.mod_pow_succ, Nat.toNat_testBit]
    have hlt : n % 2 ^ H < 2 ^ H := Nat.mod_lt _ (by positivity)
    rw [List.range_succ, List.reverse_append, List.reverse_singleton, List.singleton_append, List.foldl_cons, PrefixIs]
    cases hb : n.testBit H with
    | false =>
      simp only [hb, Bool.toNat_false, mul_zero, add_zero] at hmod
      rw [hmod] at hi ⊢
      rw [if_neg (by omega), prefixStep, hb, if_neg Bool.false_ne_true]
      exact ih acc hi
    | true =>
      simp only [hb, Bool.toNat_true, mul_one] at hmod
      rw [hmod] at hi ⊢
      have hdvd : i / 2 ^ H * 2 ^ H = i := by
        refine Nat.div_mul_cancel (dvd_trans (pow_dvd_pow 2 (Nat.le_succ H)) ?_)
        rw [show i = n - n % 2 ^ (H + 1) by omega]
        exact Nat.dvd_sub_mod n
      have hnode : (i / 2 ^ H + 1) * 2 ^ H ≤ leaves.length := by rw [add_mul, hdvd, hlen]; omega
      have hH : H ≤ h := (Nat.pow_le_pow_iff_right (by decide)).mp (show 2 ^ H ≤ 2 ^ h by omega)
      have ht := treeIs_iterate_nextLevel hg hleaf hnode
      rw [hdvd, ← treeLevels_getD hH] at ht
      rw [if_pos (by omega), prefixStep, hb, if_pos rfl, Nat.add_sub_cancel]
      exact ⟨_, _, _, _, ht, joinIs_joinNode hg _ _, ih _ (by omega)⟩

/-- A sum with a valid lane in it is not empty. -/
theorem prefixIs_isSome {H i n : Nat} {acc r : Option DWord} {fa fl : Flags} (hp : PrefixIs G leaf H i n acc fa r fl) (hn : n < 2 ^ H)
    (hs : acc.isSome = true ∨ ∃ k, i ≤ k ∧ k < i + n ∧ (leaf k).isSome = true) : r.isSome = true := by
  induction H generalizing i n acc fa with
  | zero =>
    obtain ⟨rfl, _⟩ := hp
    refine hs.resolve_right ?_
    rintro ⟨k, h1, h2, _⟩
    simp at hn
    omega
  | succ H ih =>
    rw [pow_succ] at hn
    unfold PrefixIs at hp
    split at hp
    case isTrue hle =>
      obtain ⟨x, fx, m, fm, hx, hm, hrest⟩ := hp
      refine ih hrest (by omega) ?_
      rw [joinIs_isSome hm, Bool.or_eq_true, treeIs_isSome hx]
      rcases hs with hs | ⟨k, h1, h2, hs⟩
      · exact .inl (.inl hs)
      · rcases lt_or_ge k (i + 2 ^ H) with hk | hk
        · exact .inl (.inr ⟨k, h1, hk, hs⟩)
        · exact .inr ⟨k, hk, by omega, hs⟩
    case isFalse => exact ih hp (by omega) hs

end RunningSum

/-! ### The tree of a firing -/

theorem le_two_pow_treeHeight (L : Nat) : L ≤ 2 ^ treeHeight L := by
  unfold treeHeight
  split
  case isTrue h => simpa using h
  case isFalse =>
    have := @Nat.lt_log2_self (L - 1)
    omega

theorem two_pow_pred_treeHeight_lt {L : Nat} (h : treeHeight L ≠ 0) : 2 ^ (treeHeight L - 1) < L := by
  unfold treeHeight at h ⊢
  split at h
  case isTrue => exact absurd rfl h
  case isFalse hL =>
    rw [if_neg hL, Nat.add_sub_cancel]
    have := Nat.log2_self_le (n := L - 1) (by omega)
    omega

/-- 2^h is the least power of two that is not below a run's length for one h alone. -/
theorem treeHeight_unique {L h : Nat} (hle : L ≤ 2 ^ h) (hmin : h = 0 ∨ 2 ^ (h - 1) < L) : treeHeight L = h := by
  have hmono : ∀ {a b : Nat}, a ≠ 0 → 2 ^ (a - 1) < 2 ^ b → a ≤ b := fun ha hlt => by
    have := (Nat.pow_lt_pow_iff_right (by decide)).mp hlt
    omega
  have hge : treeHeight L ≤ h := by
    by_cases h0 : treeHeight L = 0
    · omega
    · exact hmono h0 (lt_of_lt_of_le (two_pow_pred_treeHeight_lt h0) hle)
  have hle' : h ≤ treeHeight L := by
    by_cases h0 : h = 0
    · omega
    · exact hmono h0 (lt_of_lt_of_le (hmin.resolve_left h0) (le_two_pow_treeHeight L))
  omega

theorem leaves_length (c : FCtx) : c.leaves.length = 2 ^ treeHeight c.len := by simp [FCtx.leaves]

theorem leavesAre_leaves (c : FCtx) : LeavesAre c.leaf c.leaves := by
  intro k h
  have hk : c.leaves.getD k none = if k < c.len ∧ c.on k then some (c.va k, 0) else none := by
    rw [leaves_length] at h
    simp [FCtx.leaves, List.getD_eq_getElem?_getD, h]
  rw [hk, FCtx.leaf]
  split <;> exact ⟨rfl, rfl⟩

theorem leaf_isSome (c : FCtx) (k : Nat) : (c.leaf k).isSome = true ↔ k ∈ c.onLanes := by
  unfold FCtx.leaf FCtx.onLanes FCtx.lanes
  split <;> simp_all

/-- The levels of a firing's tree. -/
def levels (g : DWord → DWord → DWord × Flags) (c : FCtx) : List (List Node) := treeLevels g (treeHeight c.len) c.leaves

/-- The root that a reduction reads off the last level. -/
def root (g : DWord → DWord → DWord × Flags) (c : FCtx) : Node := ((levels g c).getLastD []).headD none

section Firing

variable {G : DWord → DWord → DWord → Flags → Prop} {g : DWord → DWord → DWord × Flags} {c : FCtx}

theorem treeIs_root (hg : Computes G g) : TreeIs G c.leaf (treeHeight c.len) 0 (nodeVal (root g c)) (nodeFlags (root g c)) := by
  have ht := treeIs_iterate_nextLevel hg (leavesAre_leaves c) (j := treeHeight c.len) (i := 0) (by rw [leaves_length]; simp)
  rw [zero_mul] at ht
  rwa [root, levels, treeLevels_getLastD, List.headD_eq_head?_getD, List.head?_eq_getElem?, ← List.getD_eq_getElem?_getD]

theorem root_isSome (hg : Computes G g) : (nodeVal (root g c)).isSome = true ↔ c.onLanes ≠ [] := by
  rw [treeIs_isSome (treeIs_root hg)]
  constructor
  · rintro ⟨k, _, _, hs⟩
    exact List.ne_nil_of_mem ((leaf_isSome c k).mp hs)
  · intro hne
    obtain ⟨k, hk⟩ := List.exists_mem_of_ne_nil _ hne
    have hlen : k < c.len := List.mem_range.mp (List.mem_of_mem_filter hk)
    have hle := le_two_pow_treeHeight c.len
    exact ⟨k, Nat.zero_le k, by omega, (leaf_isSome c k).mpr hk⟩

theorem prefixIs_prefixNode (hg : Computes G g) {k : Nat} (hk : k < c.len) (hk' : k < 32) :
    PrefixIs G c.leaf 6 0 (k + 1) none 0 (nodeVal (prefixNode g (levels g c) k)) (nodeFlags (prefixNode g (levels g c) k)) := by
  have hmod : (k + 1) % 2 ^ 6 = k + 1 := Nat.mod_eq_of_lt (by omega)
  have hp := prefixIs_foldl hg (leavesAre_leaves c) (leaves_length c) (le_trans hk (le_two_pow_treeHeight c.len)) 6 none (i := 0) (by omega)
  rw [hmod] at hp
  rwa [prefixNode_eq]

end Firing

/-! ### The forms -/

theorem atF0_plain {c : FCtx} (h : Clear c) (valid : Bool) (v : DWord) : ∀ o ∈ c.atF0 valid v, plainDst c o.dst = true ∧ o.pool = false := by
  obtain ⟨_, _, _, _, _, hd, he⟩ := h
  simpa [FCtx.atF0, FCtx.scalar] using ⟨hd, he⟩

theorem reduceForm_of_root_none {g : FCtx → DWord → DWord → DWord × Flags} {c : FCtx} (h : root (g c) c = none) :
    reduceForm g c = .ok (Res.of c.f 0 (c.reduced false 0) none) := by
  unfold root levels at h
  simp only [reduceForm, h, FCtx.emits]

theorem reduceForm_of_root_some {g : FCtx → DWord → DWord → DWord × Flags} {c : FCtx} {x : DWord × Flags} (h : root (g c) c = some x) :
    reduceForm g c = .ok (Res.of c.f x.2 (c.reduced true x.1) none) := by
  unfold root levels at h
  simp only [reduceForm, h]

/-- A reduction computes the root of R100 with its flags, and changes nothing else. -/
theorem reduceForm_reduces {G : FCtx → DWord → DWord → DWord → Flags → Prop} {g : FCtx → DWord → DWord → DWord × Flags}
    (hg : ∀ c, Computes (G c) (g c)) (c : FCtx) :
    ∃ fl outs, reduceForm g c = .ok (Res.of c.f fl outs none) ∧ Reduces G c c.f fl outs := by
  have hsome := root_isSome (hg c) (c := c)
  have htree := treeIs_root (hg c) (c := c)
  cases hr : root (g c) c with
  | none =>
    have hon : c.onLanes = [] := by simpa [hr, nodeVal] using hsome
    refine ⟨0, c.reduced false 0, reduceForm_of_root_none hr, rfl, 0, ?_, fun _ => ⟨rfl, rfl⟩, fun h hne => absurd hon hne⟩
    rw [hon]
    rfl
  | some x =>
    rw [hr] at hsome htree
    have hon : c.onLanes ≠ [] := hsome.mp rfl
    refine ⟨x.2, c.reduced true x.1, reduceForm_of_root_some hr, rfl, x.1, ?_, fun h0 => absurd h0 hon, fun h _ hle hmin => ?_⟩
    · rw [List.isEmpty_eq_false_iff.mpr hon]
      rfl
    · exact treeHeight_unique hle hmin ▸ htree

theorem sendOp_reduceForm {op : Nat} {mk : BitVec 5 → BitVec 5 → BitVec 5 → BitVec 5 → BitVec 4 → Instr}
    {G : FCtx → DWord → DWord → DWord → Flags → Prop} {g : FCtx → DWord → DWord → DWord × Flags}
    (hx : ∀ a b d e t s, exec (mk a b d e t) s = fire op a b d e t (reduceForm g) s) (hop : op < 0x70)
    (hg : ∀ c, Computes (G c) (g c)) : SendOp op mk (fun _ => True) (Reduces G) := by
  intro s a b d e t hready _
  obtain ⟨fl, outs, hbody, hred⟩ := reduceForm_reduces hg (firing s op a b d e t)
  obtain ⟨_, v, houts, _⟩ := id hred
  refine ⟨_, fl, outs, hred, ?_⟩
  exact sends_of _ (hx a b d e t s) hready (.inl hop) (.inl (by omega)) hbody rfl rfl (keeps_self s op a b d e t)
    (houts ▸ atF0_plain hready.1 _ v)

theorem lanewise_imp {i : Instr} {s : State} {c : FCtx} {L L' : Nat → DWord → Flags → Prop} (h : Lanewise i s c L)
    (himp : ∀ k, k < c.len → c.on k = true → ∀ v fl, L k v fl → L' k v fl) : Lanewise i s c L' := by
  obtain ⟨r, ⟨hlen, hr⟩, hsends⟩ := h
  refine ⟨r, ⟨hlen, fun k hk => ?_⟩, hsends⟩
  have hk' := hr k hk
  split at hk'
  case isTrue hon =>
    rw [if_pos hon]
    exact himp k (hlen ▸ hk) hon _ _ hk'
  case isFalse hoff =>
    rw [if_neg hoff]
    exact hk'

/-- Lane k of VSCAN before its validity is looked at: the sum of lanes 0 to k, +0 where all of them are empty. -/
def scanLane (c : FCtx) (k : Nat) (sr : Word) : Rounded :=
  ⟨(nodeVal (prefixNode c.sumNode (levels c.sumNode c) k)).getD 0, nodeFlags (prefixNode c.sumNode (levels c.sumNode c) k), sr⟩

theorem vscanForm_eq (c : FCtx) : vscanForm c = c.lanewise (scanLane c) := by
  refine congrArg c.lanewise (funext fun k => funext fun sr => ?_)
  unfold scanLane levels
  cases prefixNode c.sumNode (treeLevels c.sumNode (treeHeight c.len) c.leaves) k <;> rfl

/-- A valid lane of VSCAN is the sum of R101 up to itself: it is not empty, for the lane itself is in it. -/
theorem prefixIs_scanLane (c : FCtx) {k : Nat} (hk : k < c.len) (hon : c.on k = true) (sr : Word) :
    PrefixIs c.addsTo c.leaf 6 0 (k + 1) none 0 (some (scanLane c k sr).bits) (scanLane c k sr).fl := by
  have hk32 : k < 32 := BitVec.lt_of_getLsbD hon
  have hp := prefixIs_prefixNode (computes_sumNode c) hk hk32
  have hleaf : (c.leaf k).isSome = true := (leaf_isSome c k).mpr (List.mem_filter.mpr ⟨List.mem_range.mpr hk, hon⟩)
  obtain ⟨v, hv⟩ := Option.isSome_iff_exists.mp (prefixIs_isSome hp (by omega) (.inr ⟨k, Nat.zero_le k, by omega, hleaf⟩))
  rw [scanLane, hv, Option.getD_some, ← hv]
  exact hp

theorem laneOp_vscanForm : LaneOp 0x53 Instr.vscan fun c k v fl => PrefixIs c.addsTo c.leaf 6 0 (k + 1) none 0 (some v) fl := by
  intro s a b d e t hready
  have hlanes : Lanewise (.vscan a b d e t) s (firing s 0x53 a b d e t) fun k v fl =>
      k < (firing s 0x53 a b d e t).len → (firing s 0x53 a b d e t).on k = true →
        PrefixIs (firing s 0x53 a b d e t).addsTo (firing s 0x53 a b d e t).leaf 6 0 (k + 1) none 0 (some v) fl :=
    lanewise_of (scanLane (firing s 0x53 a b d e t)) _ rfl hready (.inl (by decide)) (vscanForm_eq _)
      fun k sr => ⟨fun hk hon => prefixIs_scanLane _ hk hon sr, rfl⟩
  exact lanewise_imp hlanes fun k hk hon v fl h => h hk hon

/-- Settles O9: the three reductions share one form over the tree of R100, and VSCAN adds the nodes of R101. -/
theorem vectorSums : Obligations.VectorSums := by
  unfold Obligations.VectorSums
  exact ⟨sendOp_reduceForm (fun _ _ _ _ _ _ => rfl) (by decide) computes_sumNode,
    sendOp_reduceForm (fun _ _ _ _ _ _ => rfl) (by decide) (computes_pickNode true),
    sendOp_reduceForm (fun _ _ _ _ _ _ => rfl) (by decide) (computes_pickNode false), laneOp_vscanForm⟩

end Sys2Proof.Laws.Vector

/-! ## Proofs: the integer forms (R109 to R114) -/

namespace Sys2Proof.Laws.Integer

open Sys2Proof Sys2Proof.Machine Sys2Proof.Laws.Vector

/-! ### Forms that compute each lane by itself -/

/-- A form whose lanes each give a value and flags, and leave the stochastic-rounding state, is a lane operation under what is known
of the two. -/
theorem laneOp_of_plain {op : Nat} {mk : BitVec 5 → BitVec 5 → BitVec 5 → BitVec 5 → BitVec 4 → Instr} {L : LaneRule}
    (g : FCtx → Nat → DWord × Flags) (hL : ∀ c k, L c k (g c k).1 (g c k).2)
    (hop : op < 0x70 := by decide)
    (hx : ∀ a b d e t s, exec (mk a b d e t) s = fire op a b d e t (fun c => c.lanewise fun k sr => plain (g c k) sr) s := by intros; rfl) :
    LaneOp op mk L :=
  fun s a b d e t h => lanewise_of _ _ (hx a b d e t s) h (.inl hop) rfl fun k _ => ⟨hL _ k, rfl⟩

theorem va_lt (c : FCtx) (k : Nat) : (c.va k).toNat < 2 ^ c.w := src_lt c c.a k
theorem w_le (c : FCtx) : c.w ≤ 64 := fmt_width_le c.ifmt

/-! ### Quotients and remainders -/

theorem intMin_le_zero (f : Fmt) : intMin f ≤ 0 := by
  unfold intMin
  split
  · exact Int.neg_nonpos_of_nonneg (by positivity)
  · exact le_rfl

theorem zero_le_intMax (f : Fmt) : 0 ≤ intMax f := by
  have hpos : ∀ n : Nat, (0 : Int) < 2 ^ n := fun n => by positivity
  unfold intMax
  split
  · exact Int.le_sub_one_of_lt (hpos _)
  · exact Int.le_sub_one_of_lt (hpos _)

/-- A number between 0 and one of the format is one of the format. -/
theorem tmod_in_range {f : Fmt} {a : Int} (ha : intMin f ≤ a ∧ a ≤ intMax f) (b : Int) :
    intMin f ≤ a.tmod b ∧ a.tmod b ≤ intMax f := by
  have hmin := intMin_le_zero f
  have hmax := zero_le_intMax f
  rcases le_total 0 a with h | h
  · have h0 : 0 ≤ a.tmod b := Int.tmod_nonneg b h
    have h1 : a.tmod b ≤ a := by
      lift a to Nat using h
      rw [← Int.natAbs_of_nonneg h0, Int.natAbs_tmod]
      exact_mod_cast Nat.mod_le _ _
    omega
  · have h0 : 0 ≤ (-a).tmod b := Int.tmod_nonneg b (by omega)
    have h1 : (-a).tmod b ≤ -a := by
      obtain ⟨n, hn⟩ := Int.eq_ofNat_of_zero_le (a := -a) (by omega)
      rw [hn] at h0 ⊢
      rw [← Int.natAbs_of_nonneg h0, Int.natAbs_tmod]
      exact_mod_cast Nat.mod_le _ _
    rw [Int.neg_tmod] at h0 h1
    omega

/-- An unsigned format holds no negative number. -/
theorem signed_of_readInt_neg {f : Fmt} {x : DWord} (h : readInt f x < 0) : f.signed = true := by
  by_contra hs
  have := (readInt_range f x).1
  rw [intMin, if_neg hs] at this
  omega

theorem divInt_zero (f : Fmt) (x : DWord) :
    (divInt f (readInt f x) 0).1.toNat < 2 ^ f.width ∧ (divInt f (readInt f x) 0).2 = flDZ
      ∧ readInt f (divInt f (readInt f x) 0).1 = if readInt f x < 0 then intMin f else intMax f := by
  have hle : intMin f ≤ intMax f := (intMin_le_zero f).trans (zero_le_intMax f)
  have hbound : (if f.signed = true then (if 0 ≤ readInt f x then intMax f else intMin f) else intMax f)
      = if readInt f x < 0 then intMin f else intMax f := by
    by_cases h : readInt f x < 0
    · rw [if_pos (signed_of_readInt_neg h), if_neg (by omega), if_pos h]
    · rw [if_pos (by omega : 0 ≤ readInt f x), if_neg h, ite_self]
  rw [divInt, if_pos rfl, hbound]
  refine ⟨keepBits_lt f _, rfl, readInt_keepBits f _ ?_⟩
  split
  · exact ⟨le_rfl, hle⟩
  · exact ⟨hle, le_rfl⟩

theorem remInt_zero (f : Fmt) (x : DWord) :
    (remInt f (readInt f x) 0).1.toNat < 2 ^ f.width ∧ (remInt f (readInt f x) 0).2 = flDZ
      ∧ readInt f (remInt f (readInt f x) 0).1 = readInt f x := by
  rw [remInt, if_pos rfl]
  exact ⟨keepBits_lt f _, rfl, readInt_keepBits f _ (readInt_range f x)⟩

theorem remInt_of_ne_zero (f : Fmt) (x : DWord) {b : Int} (hb : b ≠ 0) :
    Gives f (readInt f x - b * (readInt f x).tdiv b) (remInt f (readInt f x) b).1 (remInt f (readInt f x) b).2 := by
  rw [remInt, if_neg hb, ← Int.tmod_def]
  exact ⟨keepBits_lt f _, readInt_keepBits f _ (tmod_in_range (readInt_range f x) b), rfl⟩

/-- The high half of a product, cut to its low bits. -/
theorem trunc_keepBits (f : Fmt) (v : Int) :
    (trunc f.width (keepBits f.width v)).toNat < 2 ^ f.width
      ∧ (((trunc f.width (keepBits f.width v)).toNat : Int) - v) % 2 ^ f.width = 0 := by
  rw [toNat_trunc, Nat.mod_eq_of_lt (keepBits_lt f v), toNat_keepBits]
  exact ⟨keepBits_lt f v, by simp⟩

/-- Settles O2: each lane divides as R111 says, by cases on a zero divisor, and the remainder lies between 0 and the dividend. -/
theorem integerDivision : Obligations.IntegerDivision := by
  unfold Obligations.IntegerDivision
  refine ⟨laneOp_of_plain (fun c k => divInt c.ifmt (c.ia k) (c.ib k)) fun c k => ⟨fun h0 => ?_, fun hb => ?_⟩,
    laneOp_of_plain (fun c k => remInt c.ifmt (c.ia k) (c.ib k)) fun c k => ⟨fun h0 => ?_, fun hb => ?_⟩,
    laneOp_of_plain (fun c k => (trunc c.w (keepBits c.w (c.ia k * c.ib k / 2 ^ c.w)), 0)) fun c k => ?_⟩
  · rw [h0]
    exact divInt_zero c.ifmt (c.va k)
  · rw [divInt, if_neg hb]
    exact wrapsTo_wrapInt c.ifmt _
  · rw [h0]
    exact remInt_zero c.ifmt (c.va k)
  · exact remInt_of_ne_zero c.ifmt (c.va k) hb
  · obtain ⟨hlt, hmod⟩ := trunc_keepBits c.ifmt (c.ia k * c.ib k / 2 ^ c.w)
    exact ⟨hlt, hmod, rfl⟩

/-! ### Numbers of a width as bit vectors of that width -/

theorem trunc_eq_setWidth (w : Nat) (x : DWord) : trunc w x = (x.setWidth w).setWidth 64 := by
  apply BitVec.eq_of_toNat_eq
  simp [trunc, w64]

theorem keepBits_eq_ofInt (w : Nat) (v : Int) : keepBits w v = (BitVec.ofInt w v).setWidth 64 := by
  apply BitVec.eq_of_toNat_eq
  simp [keepBits, w64]

theorem sint_eq_toInt (w : Nat) (x : DWord) : sint w x = (x.setWidth w).toInt := by
  rw [sint, BitVec.toInt_eq_toNat_cond, BitVec.toNat_setWidth]
  rcases w with _ | w
  · simp [Nat.mod_one]
  · rw [pow_succ, Nat.add_sub_cancel]
    exact if_congr (by omega) rfl (by push_cast; ring)

theorem getLsbD_trunc (w : Nat) (x : DWord) (i : Nat) : (trunc w x).getLsbD i = (decide (i < w) && x.getLsbD i) := by
  rw [trunc_eq_setWidth, BitVec.getLsbD_setWidth, BitVec.getLsbD_setWidth]
  by_cases h : i < 64
  · simp [h]
  · simp [h, BitVec.getLsbD_of_ge x i (by omega)]

theorem getLsbD_w64 (n i : Nat) : (w64 n).getLsbD i = (decide (i < 64) && n.testBit i) := BitVec.getLsbD_ofNat 64 n i

/-- A form on raw bits gives the bits that its function gives below the width. -/
theorem bitsAre_trunc {w : Nat} {x : DWord} {g : Nat → Bool} (h : ∀ i < w, x.getLsbD i = g i) : BitsAre w g (trunc w x) 0 := by
  refine ⟨rfl, fun i => ?_⟩
  rw [getLsbD_trunc]
  by_cases hi : i < w
  · rw [h i hi]
  · simp [hi]

/-- The same of a function on numbers. -/
theorem bitsAre_trunc_w64 {w : Nat} (hw : w ≤ 64) {n : Nat} {g : Nat → Bool} (h : ∀ i < w, n.testBit i = g i) :
    BitsAre w g (trunc w (w64 n)) 0 :=
  bitsAre_trunc fun i hi => by rw [getLsbD_w64, h i hi, decide_eq_true (by omega : i < 64), Bool.true_and]

/-- A form on raw bits is a lane operation under a rule that holds of its function's value cut to the width. -/
theorem laneOp_bitForm {op : Nat} {mk : BitVec 5 → BitVec 5 → BitVec 5 → BitVec 5 → BitVec 4 → Instr} {L : LaneRule}
    (g : FCtx → Nat → DWord) (hL : ∀ c k, L c k (trunc c.w (g c k)) 0) (hop : op < 0x70 := by decide)
    (hx : ∀ a b d e t s, exec (mk a b d e t) s = fire op a b d e t (bitForm g) s := by intros; rfl) : LaneOp op mk L :=
  laneOp_of_plain (fun c k => (trunc c.w (g c k), 0)) hL hop hx

/-! ### Shifts and rotation -/

theorem testBit_shlBits (w x s : Nat) {i : Nat} (hi : i < w) : (shlBits w x s).testBit i = (decide (s ≤ i) && x.testBit (i - s)) := by
  unfold shlBits
  split
  case isTrue h => simp [show ¬s ≤ i by omega]
  case isFalse => rw [Nat.testBit_mod_two_pow, Nat.testBit_mul_two_pow, decide_eq_true hi, Bool.true_and]

theorem testBit_shrBits {w x : Nat} (hx : x < 2 ^ w) (s i : Nat) : (shrBits w x s).testBit i = (decide (i + s < w) && x.testBit (i + s)) := by
  have hhigh : ¬i + s < w → x.testBit (i + s) = false := fun h =>
    Nat.testBit_lt_two_pow (hx.trans_le (Nat.pow_le_pow_right (by decide) (by omega)))
  unfold shrBits
  split
  case isTrue h => simp [show ¬i + s < w by omega]
  case isFalse =>
    rw [Nat.testBit_div_two_pow]
    by_cases h : i + s < w
    · simp [h]
    · simp [h, hhigh h]

/-- An arithmetic shift is that of bit vectors. -/
theorem sarBits_eq_sshiftRight (w : Nat) (x : DWord) (s : Nat) : sarBits w x s = ((x.setWidth w).sshiftRight (min s w)).setWidth 64 := by
  rw [sarBits, keepBits_eq_ofInt, sint_eq_toInt, show (2 : Int) ^ min s w = (2 ^ min s w : Nat) by norm_cast, ← Int.shiftRight_eq_div_pow,
    ← BitVec.toInt_sshiftRight, BitVec.ofInt_toInt]

theorem getLsbD_sarBits {w : Nat} (hw : w ≤ 64) (x : DWord) (s : Nat) {i : Nat} (hi : i < w) :
    (sarBits w x s).getLsbD i = x.getLsbD (min (i + s) (w - 1)) := by
  rw [sarBits_eq_sshiftRight, BitVec.getLsbD_setWidth, decide_eq_true (hi.trans_le hw), Bool.true_and, BitVec.getLsbD_sshiftRight,
    decide_eq_false (by omega), Bool.not_false, Bool.true_and, BitVec.msb_eq_getLsbD_last, BitVec.getLsbD_setWidth, BitVec.getLsbD_setWidth]
  split
  case isTrue h => rw [decide_eq_true h, Bool.true_and, show min (i + s) (w - 1) = min s w + i by omega]
  case isFalse h => rw [decide_eq_true (by omega), Bool.true_and, show min (i + s) (w - 1) = w - 1 by omega]

theorem testBit_rotBits {w x : Nat} (hx : x < 2 ^ w) (s : Nat) {i : Nat} (hi : i < w) :
    (rotBits w x s).testBit i = x.testBit ((i + w - s % w) % w) := by
  have hr : s % w < w := Nat.mod_lt _ (by omega)
  unfold rotBits
  generalize s % w = r at *
  have hlow : x / 2 ^ (w - r) < 2 ^ r := by
    rw [Nat.div_lt_iff_lt_mul (by positivity), ← pow_add]
    rwa [show r + (w - r) = w by omega]
  rw [Nat.testBit_mod_two_pow, decide_eq_true hi, Bool.true_and, mul_comm, Nat.testBit_two_pow_mul_add _ hlow]
  split
  case isTrue h => rw [Nat.testBit_div_two_pow, Nat.mod_eq_of_lt (by omega), show i + w - r = i + (w - r) by omega]
  case isFalse h => rw [show i + w - r = i - r + w by omega, Nat.add_mod_right, Nat.mod_eq_of_lt (by omega)]

/-! ### Counts and the reversal -/

theorem clzBits_le (w x : Nat) : clzBits w x ≤ w := by
  unfold clzBits
  split <;> omega

theorem testBit_of_lt_clzBits {w x : Nat} {i : Nat} (h : i < clzBits w x) : x.testBit (w - 1 - i) = false := by
  unfold clzBits at h
  split at h
  case isTrue h0 => simp [h0]
  case isFalse h0 => exact Nat.testBit_lt_two_pow ((Nat.log2_lt h0).mp (by omega))

theorem testBit_clzBits {w x : Nat} (hx : x < 2 ^ w) (h : clzBits w x < w) : x.testBit (w - 1 - clzBits w x) = true := by
  unfold clzBits at h ⊢
  split at h
  case isTrue h0 => omega
  case isFalse h0 =>
    have hlog := (Nat.log2_lt h0).mpr hx
    rw [if_neg h0, show w - 1 - (w - 1 - Nat.log2 x) = Nat.log2 x by omega]
    exact Nat.testBit_log2 h0

theorem popBits_le (w x : Nat) : popBits w x ≤ w := List.countP_le_length.trans_eq List.length_range

theorem testBit_revBits (w x i : Nat) : (revBits w x).testBit i = (decide (i < w) && x.testBit (w - 1 - i)) := by
  induction w generalizing i with
  | zero => simp [revBits]
  | succ w ih =>
    have hstep : revBits (w + 1) x = 2 * revBits w x + (x.testBit w).toNat := by simp [revBits, List.range_succ]
    rw [hstep]
    cases i with
    | zero => cases h : x.testBit w <;> simp [h]
    | succ i =>
      have hbit := Bool.toNat_lt (x.testBit w)
      rw [Nat.testBit_succ, show (2 * revBits w x + (x.testBit w).toNat) / 2 = revBits w x by omega, ih]
      rw [show w + 1 - 1 - (i + 1) = w - 1 - i by omega]
      simp

/-- A count of at most the width is not cut. -/
theorem toNat_trunc_count (f : Fmt) {n : Nat} (h : n ≤ f.width) : (trunc f.width (w64 n)).toNat = n := by
  have hlt : n < 2 ^ f.width := h.trans_lt Nat.lt_two_pow_self
  rw [toNat_trunc, toNat_w64 (hlt.trans_le (pow_le_64 f)), Nat.mod_eq_of_lt hlt]

/-! ### Bit fields -/

theorem fieldPos_eq (x : DWord) : fieldPos x = x.toNat % 64 := by simp [fieldPos, fld]

theorem fieldLen_eq (x : DWord) : fieldLen x = min 64 (x.toNat / 256 % 128) := by simp [fieldLen, fld]

/-- A word below 2^w has no bit at or above w. -/
theorem decide_lt_and_getLsbD {w : Nat} {a : DWord} (ha : a.toNat < 2 ^ w) (i : Nat) : (decide (i < w) && a.getLsbD i) = a.getLsbD i := by
  by_cases h : i < w
  · simp [h]
  · have hbit : a.getLsbD i = false := Nat.testBit_lt_two_pow (ha.trans_le (Nat.pow_le_pow_right (by decide) (by omega)))
    simp [hbit]

/-- The field that BFX takes, as a bit vector of the field's width. -/
def field (a ctl : DWord) : BitVec (fieldLen ctl) := BitVec.ofNat _ (a.toNat / 2 ^ fieldPos ctl)

theorem getLsbD_field (a ctl : DWord) (i : Nat) :
    (field a ctl).getLsbD i = (decide (i < fieldLen ctl) && a.getLsbD (fieldPos ctl + i)) := by
  rw [field, BitVec.getLsbD_ofNat, Nat.testBit_div_two_pow, add_comm, BitVec.testBit_toNat]

/-- BFX extends its field to the width: with its sign in a signed format, with zeros in another. -/
theorem bfxBits_eq_extend {f : Fmt} {a : DWord} (ha : a.toNat < 2 ^ f.width) {ctl : DWord} (hn : 0 < fieldLen ctl) :
    bfxBits f a ctl = (if f.signed = true then (field a ctl).signExtend f.width else (field a ctl).setWidth f.width).setWidth 64 := by
  have hx : (trunc f.width a).toNat / 2 ^ fieldPos ctl % 2 ^ fieldLen ctl = (field a ctl).toNat := by
    rw [toNat_trunc, Nat.mod_eq_of_lt ha, field, BitVec.toNat_ofNat]
  have hpow : 2 ^ fieldLen ctl = 2 * 2 ^ (fieldLen ctl - 1) := (mul_pow_sub_one hn.ne' 2).symm
  have hnat : (field a ctl).setWidth f.width = BitVec.ofInt f.width (field a ctl).toNat := by
    rw [BitVec.ofInt_natCast, ← BitVec.ofNat_toNat]
  unfold bfxBits
  simp only [hx, if_neg hn.ne', keepBits_eq_ofInt]
  by_cases hs : f.signed = true
  · rw [if_pos hs, BitVec.signExtend, BitVec.toInt_eq_toNat_cond]
    by_cases hneg : 2 ^ (fieldLen ctl - 1) ≤ (field a ctl).toNat
    · rw [if_pos (by simp [hs, hneg]), if_neg (by omega)]
      norm_cast
    · rw [if_neg (by simp [hneg]), if_pos (by omega)]
  · rw [if_neg hs, if_neg (by simp [hs]), hnat]

theorem getLsbD_bfxBits {f : Fmt} {a : DWord} (ha : a.toNat < 2 ^ f.width) (ctl : DWord) {i : Nat} (hi : i < f.width) :
    (bfxBits f a ctl).getLsbD i = if i < fieldLen ctl then a.getLsbD (fieldPos ctl + i)
      else decide (0 < fieldLen ctl) && f.signed && a.getLsbD (fieldPos ctl + fieldLen ctl - 1) := by
  have hi64 : i < 64 := hi.trans_le (fmt_width_le f)
  rcases Nat.eq_zero_or_pos (fieldLen ctl) with h0 | hn
  · simp [bfxBits, h0]
  have hmsb : (field a ctl).msb = a.getLsbD (fieldPos ctl + fieldLen ctl - 1) := by
    rw [BitVec.msb_eq_getLsbD_last, getLsbD_field, decide_eq_true (by omega), Bool.true_and, Nat.add_sub_assoc hn]
  rw [bfxBits_eq_extend ha hn, BitVec.getLsbD_setWidth, decide_eq_true hi64, Bool.true_and]
  by_cases hs : f.signed = true
  · rw [if_pos hs, BitVec.getLsbD_signExtend, decide_eq_true hi, Bool.true_and, hmsb, getLsbD_field]
    split <;> simp_all
  · rw [if_neg hs, BitVec.getLsbD_setWidth, decide_eq_true hi, Bool.true_and, getLsbD_field]
    split <;> simp_all

/-- Of a number with its field at p of width n replaced, the bits of the field are the new ones and any other is as it was. -/
theorem testBit_replaceField (x y p n i : Nat) :
    (x - x / 2 ^ p % 2 ^ n * 2 ^ p + y % 2 ^ n * 2 ^ p).testBit i = if p ≤ i ∧ i < p + n then y.testBit (i - p) else x.testBit i := by
  have hx : x = 2 ^ p * (2 ^ n * (x / 2 ^ p / 2 ^ n) + x / 2 ^ p % 2 ^ n) + x % 2 ^ p := by
    rw [Nat.div_add_mod, Nat.div_add_mod]
  have hnew : x - x / 2 ^ p % 2 ^ n * 2 ^ p + y % 2 ^ n * 2 ^ p
      = 2 ^ p * (2 ^ n * (x / 2 ^ p / 2 ^ n) + y % 2 ^ n) + x % 2 ^ p := by
    rw [mul_add] at hx ⊢
    rw [mul_comm (x / 2 ^ p % 2 ^ n), mul_comm (y % 2 ^ n)]
    omega
  have hp : x % 2 ^ p < 2 ^ p := Nat.mod_lt _ (by positivity)
  have hy : y % 2 ^ n < 2 ^ n := Nat.mod_lt _ (by positivity)
  rw [hnew, Nat.testBit_two_pow_mul_add _ hp, Nat.testBit_two_pow_mul_add _ hy, Nat.testBit_mod_two_pow, Nat.testBit_mod_two_pow]
  by_cases h1 : i < p
  · rw [if_pos h1, if_neg (by omega), decide_eq_true h1, Bool.true_and]
  by_cases h2 : i - p < n
  · rw [if_neg h1, if_pos h2, if_pos (by omega), decide_eq_true h2, Bool.true_and]
  · rw [if_neg h1, if_neg h2, if_neg (by omega), Nat.testBit_div_two_pow, Nat.testBit_div_two_pow]
    congr 1
    omega

theorem getLsbD_bfiBits {f : Fmt} {a : DWord} (ha : a.toNat < 2 ^ f.width) (b ctl : DWord) {i : Nat} (hi : i < f.width) :
    (bfiBits f a b ctl).getLsbD i
      = if fieldPos ctl ≤ i ∧ i < fieldPos ctl + fieldLen ctl then b.getLsbD (i - fieldPos ctl) else a.getLsbD i := by
  have hi64 : i < 64 := hi.trans_le (fmt_width_le f)
  unfold bfiBits
  simp only [toNat_trunc, Nat.mod_eq_of_lt ha]
  split
  case isTrue h => rw [if_neg (by omega), getLsbD_w64, decide_eq_true hi64, Bool.true_and, BitVec.testBit_toNat]
  case isFalse =>
    rw [getLsbD_trunc, getLsbD_w64, decide_eq_true hi, decide_eq_true hi64, testBit_replaceField, BitVec.testBit_toNat, BitVec.testBit_toNat]
    rfl

/-! ### The forms -/

/-- Settles O3: each form gives its bits one by one; CLZ, POPC and CMP give small numbers that no width cuts. -/
theorem integerBitForms : Obligations.IntegerBitForms := by
  unfold Obligations.IntegerBitForms
  refine ⟨⟨?and, ?or, ?xor, ?not, ?shl, ?shr, ?sar, ?rot⟩, ?clz, ?popc, ?brev, ?bfx, ?bfi, ?cmp⟩
  case and => exact laneOp_bitForm (fun c k => c.va k &&& c.vb k) fun c k => bitsAre_trunc fun i _ => BitVec.getLsbD_and
  case or => exact laneOp_bitForm (fun c k => c.va k ||| c.vb k) fun c k => bitsAre_trunc fun i _ => BitVec.getLsbD_or
  case xor => exact laneOp_bitForm (fun c k => c.va k ^^^ c.vb k) fun c k => bitsAre_trunc fun i _ => BitVec.getLsbD_xor
  case not =>
    refine laneOp_bitForm (fun c k => ~~~c.va k) fun c k => bitsAre_trunc fun i hi => ?_
    rw [BitVec.getLsbD_not, decide_eq_true (hi.trans_le (w_le c)), Bool.true_and]
    rfl
  case shl =>
    exact laneOp_bitForm (fun c k => w64 (shlBits c.w (c.va k).toNat (c.vb k).toNat)) fun c k =>
      bitsAre_trunc_w64 (w_le c) fun i hi => testBit_shlBits c.w _ _ hi
  case shr =>
    exact laneOp_bitForm (fun c k => w64 (shrBits c.w (c.va k).toNat (c.vb k).toNat)) fun c k =>
      bitsAre_trunc_w64 (w_le c) fun i _ => testBit_shrBits (va_lt c k) _ i
  case sar =>
    exact laneOp_bitForm (fun c k => sarBits c.w (c.va k) (c.vb k).toNat) fun c k =>
      bitsAre_trunc fun i hi => getLsbD_sarBits (w_le c) _ _ hi
  case rot =>
    exact laneOp_bitForm (fun c k => w64 (rotBits c.w (c.va k).toNat (c.vb k).toNat)) fun c k =>
      bitsAre_trunc_w64 (w_le c) fun i hi => testBit_rotBits (va_lt c k) _ hi
  case clz =>
    refine laneOp_bitForm (fun c k => w64 (clzBits c.w (c.va k).toNat)) fun c k => ?_
    have hv : (trunc c.w (w64 (clzBits c.w (c.va k).toNat))).toNat = clzBits c.w (c.va k).toNat :=
      toNat_trunc_count c.ifmt (clzBits_le _ _)
    rw [hv]
    exact ⟨rfl, clzBits_le _ _, fun i hi => testBit_of_lt_clzBits hi, fun h => testBit_clzBits (va_lt c k) h⟩
  case popc =>
    refine laneOp_bitForm (fun c k => w64 (popBits c.w (c.va k).toNat)) fun c k => ⟨rfl, ?_⟩
    exact (toNat_trunc_count c.ifmt (popBits_le _ _)).trans List.countP_eq_length_filter
  case brev =>
    exact laneOp_bitForm (fun c k => w64 (revBits c.w (c.va k).toNat)) fun c k =>
      bitsAre_trunc_w64 (w_le c) fun i hi => by rw [testBit_revBits, decide_eq_true hi, Bool.true_and]; rfl
  case bfx =>
    refine laneOp_bitForm (fun c k => bfxBits c.ifmt (c.va k) (c.vb k)) fun c k => ?_
    rw [← fieldPos_eq, ← fieldLen_eq]
    refine bitsAre_trunc fun i hi => (getLsbD_bfxBits (va_lt c k) _ hi).trans ?_
    simp only [FCtx.abit, Bool.and_assoc, decide_lt_and_getLsbD (va_lt c k)]
  case bfi =>
    refine laneOp_bitForm (fun c k => bfiBits c.ifmt (c.va k) (c.vb k) (c.vc k)) fun c k => ?_
    rw [← fieldPos_eq, ← fieldLen_eq]
    exact bitsAre_trunc fun i hi => getLsbD_bfiBits (va_lt c k) _ _ hi
  case cmp =>
    refine laneOp_of_plain (fun c k => (w64 (condCode (decide (c.ia k < c.ib k)) (decide (c.ia k = c.ib k))), 0)) fun c k => ⟨rfl, ?_⟩
    rcases lt_trichotomy (c.ia k) (c.ib k) with h | h | h
    · simp [condCode, w64, h]
    · simp [condCode, w64, h]
    · simp [condCode, w64, not_lt_of_gt h, h.ne']

end Sys2Proof.Laws.Integer

/-! ## Proofs: the vector moves, SEL and VCOUNT (R115, R127, R129 to R132) -/

namespace Sys2Proof.Laws.Moves

open Sys2Proof Sys2Proof.Machine Sys2Proof.Laws.Vector Sys2Proof.Laws.Integer

/-! ### Forms that send at once -/

theorem tok_len_le (t : Tok) : t.len ≤ 32 := by
  have : fld t.hdr 35 31 < 2 ^ 5 := Nat.mod_lt _ (by decide)
  unfold Tok.len
  omega

/-- A firing has at most the lanes of a token (R17). -/
theorem firing_len_le (s : State) (op : Nat) (a b d e : BitVec 5) (t : BitVec 4) : (firing s op a b d e t).len ≤ 32 := by
  show (match runTok op a.toNat b.toNat s.fab.fire with | some x => (if x.vec then x.len else 1) | none => 1) ≤ 32
  cases runTok op a.toNat b.toNat s.fab.fire with
  | none => decide
  | some x =>
    dsimp only
    split
    · exact tok_len_le x
    · decide

section SendForms

variable {op : Nat} {mk : BitVec 5 → BitVec 5 → BitVec 5 → BitVec 5 → BitVec 4 → Instr} {P : FCtx → Prop}
  {R : FCtx → Fabric → Flags → List Out → Prop}

/-- A form that only emits tokens for plain destinations is what is known of the tokens. -/
theorem sendOp_of_emits {body : FCtx → Except Stop Res} (outs : FCtx → List Out)
    (hb : ∀ c, P c → body c = c.emits (outs c)) (hplain : ∀ c, Clear c → ∀ o ∈ outs c, plainDst c o.dst = true ∧ o.pool = false)
    (hR : ∀ c, c.len ≤ 32 → P c → R c c.f 0 (outs c)) (hop : op < 0x70 := by decide)
    (hx : ∀ a b d e t s, exec (mk a b d e t) s = fire op a b d e t body s := by intros; rfl) : SendOp op mk P R := by
  intro s a b d e t hready hP
  refine ⟨_, 0, _, hR _ (firing_len_le s op a b d e t) hP, ?_⟩
  exact sends_of _ (hx a b d e t s) hready (.inl hop) (.inl (by omega)) (hb _ hP) rfl rfl (keeps_self s op a b d e t) (hplain _ hready.1)

/-- A form that emits the same run to both destinations. -/
theorem sendOp_of_emits_both {body : FCtx → Except Stop Res} (valid : FCtx → BitVec 32) (vals : FCtx → List DWord)
    (hb : ∀ c, P c → body c = c.emits (c.both (valid c) (vals c))) (hR : ∀ c, c.len ≤ 32 → P c → R c c.f 0 (c.both (valid c) (vals c)))
    (hop : op < 0x70 := by decide) (hx : ∀ a b d e t s, exec (mk a b d e t) s = fire op a b d e t body s := by intros; rfl) : SendOp op mk P R :=
  sendOp_of_emits (fun c => c.both (valid c) (vals c)) hb (fun _ h => both_plain h _ _) hR hop hx

/-- A form that moves lanes without a change writes the stochastic-rounding state back as it was. -/
theorem sendOp_of_moves {body : FCtx → Except Stop Res} (l : FCtx → List (Option DWord))
    (hb : ∀ c, P c → body c = .ok (Res.of (c.f.modEl c.el fun e => { e with srstate := c.elt.srstate }) 0
      (c.both (optLanes (l c)).2 (optLanes (l c)).1) none))
    (hR : ∀ c, P c → R c (c.f.modEl c.el fun e => { e with srstate := c.elt.srstate }) 0 (c.both (optLanes (l c)).2 (optLanes (l c)).1))
    (hop : op < 0x70 := by decide) (hx : ∀ a b d e t s, exec (mk a b d e t) s = fire op a b d e t body s := by intros; rfl) : SendOp op mk P R := by
  intro s a b d e t hready hP
  refine ⟨_, 0, _, hR _ hP, ?_⟩
  exact sends_of _ (hx a b d e t s) hready (.inl hop) (.inl (by omega)) (hb _ hP) rfl rfl (keeps_modEl s op a b d e t _ rfl rfl)
    (both_plain hready.1 _ _)

end SendForms

/-- Settles O12: the model counts the bits of V. -/
theorem validCount : Obligations.ValidCount := by
  unfold Obligations.ValidCount
  exact sendOp_of_emits (fun c => c.atF0 true (w64 (popBits 32 c.valid.toNat))) (fun _ _ => rfl) (fun _ h => atF0_plain h _ _)
    fun _ _ _ => ⟨rfl, rfl, rfl⟩

/-! ### Validity words -/

/-- A word summed from the powers of two of the lanes that meet a condition has the bits of those lanes. -/
theorem sumBits_spec (p : Nat → Prop) [DecidablePred p] (n : Nat) :
    (List.range n).foldl (fun m k => if p k then m + 2 ^ k else m) 0 < 2 ^ n
      ∧ ∀ i, ((List.range n).foldl (fun m k => if p k then m + 2 ^ k else m) 0).testBit i = (decide (i < n) && decide (p i)) := by
  induction n with
  | zero => simp
  | succ n ih =>
    obtain ⟨hlt, hbits⟩ := ih
    rw [List.range_succ, List.foldl_append, List.foldl_cons, List.foldl_nil]
    generalize (List.range n).foldl (fun m k => if p k then m + 2 ^ k else m) 0 = m at *
    rw [pow_succ]
    split
    case isTrue hp =>
      refine ⟨by omega, fun i => ?_⟩
      rw [show m + 2 ^ n = 2 ^ n * 1 + m by ring, Nat.testBit_two_pow_mul_add _ hlt]
      rcases lt_trichotomy i n with h | rfl | h
      · rw [if_pos h, hbits, decide_eq_true h, decide_eq_true (by omega : i < n + 1)]
      · simp [hp]
      · have h1 : (1 : Nat) < 2 ^ (i - n) := Nat.one_lt_two_pow (by omega)
        rw [if_neg (by omega), Nat.testBit_lt_two_pow h1, decide_eq_false (by omega), Bool.false_and]
    case isFalse hp =>
      refine ⟨by omega, fun i => ?_⟩
      rw [hbits]
      by_cases h : i = n
      · simp [h, hp]
      · simp [show i < n + 1 ↔ i < n by omega]

/-- The same as a valid word. -/
theorem bit_sumBits (p : Nat → Prop) [DecidablePred p] (n : Nat) {k : Nat} (hk : k < 32) :
    bit (BitVec.ofNat 32 ((List.range n).foldl (fun m k => if p k then m + 2 ^ k else m) 0)) k = (decide (k < n) && decide (p k)) := by
  rw [bit, BitVec.getLsbD_ofNat, decide_eq_true hk, Bool.true_and, (sumBits_spec p n).2]

theorem bit_of_le {v : BitVec 32} {k : Nat} (h : 32 ≤ k) : bit v k = false := BitVec.getLsbD_of_ge v k h

theorem isMask_maskB {c : FCtx} (h : c.len ≤ 32) : IsMask c c.maskB := by
  intro k
  by_cases hk : k < 32
  · exact bit_sumBits (fun k => c.vb k ≠ 0) c.len hk
  · rw [bit_of_le (by omega), decide_eq_false (by omega : ¬k < c.len), Bool.false_and]

theorem bit_lanesMask {n : Nat} (hn : n ≤ 32) (k : Nat) : bit (lanesMask n) k = decide (k < n) := by
  rw [bit, lanesMask, BitVec.getLsbD_ofNat, Nat.testBit_two_pow_sub_one]
  by_cases h : k < n
  · simp [h, show k < 32 by omega]
  · simp [h]

/-- A list of optional lanes, numbered, is its lanes under their numbers. -/
theorem zipIdx_eq_map_range (l : List (Option DWord)) : l.zipIdx = (List.range l.length).map fun k => (l.getD k none, k) := by
  apply List.ext_getElem
  · simp
  · intro k h1 h2
    simp at h1
    simp [h1]

/-- The run of a list of optional lanes holds each with its validity. -/
theorem laneIs_optLanes {l : List (Option DWord)} {k : Nat} {x : Option DWord} (hk : k < 32) (hx : l[k]? = some x) :
    LaneIs (optLanes l).2 (optLanes l).1 k x := by
  obtain ⟨hlen, hget⟩ := List.getElem?_eq_some_iff.mp hx
  have hval : (optLanes l).1[k]? = some (x.getD 0) := by simp [optLanes, hx]
  have hbit : bit (optLanes l).2 k = x.isSome := by
    have hb := bit_sumBits (fun k => (l.getD k none).isSome = true) l.length hk
    rw [optLanes, zipIdx_eq_map_range, List.foldl_map]
    simpa [hlen, hget] using hb
  cases x with
  | none => exact ⟨hbit, hval⟩
  | some v => exact ⟨hbit, hval⟩

theorem lanes_getElem? {c : FCtx} {k : Nat} (hk : k < c.len) : c.lanes[k]? = some k := by simp [FCtx.lanes, hk]

/-! ### Packing and unpacking within one integer format -/

theorem trunc_eq_self {w : Nat} {x : DWord} (h : x.toNat < 2 ^ w) : trunc w x = x := by
  rw [trunc, Nat.mod_eq_of_lt h, w64, BitVec.ofNat_toNat, BitVec.setWidth_eq]

/-- Within an integer format a lane moves as it is. -/
theorem convLane_same {f : Fmt} (hf : f.isInt = true) {x : DWord} (hx : x.toNat < 2 ^ f.width) (b8 : Byte) (m : Round) (sat : Bool) (sr : Word) :
    convLane f f b8 m sat x sr = ⟨x, 0, sr⟩ := by
  have hread : readFV f b8 x = .zero false ∨ ∃ q, readFV f b8 x = .fin q := by
    rw [readFV, if_pos hf, intFV]
    split
    · exact .inl rfl
    · exact .inr ⟨_, rfl⟩
  unfold convLane
  rw [if_pos rfl]
  rcases hread with h | ⟨q, h⟩
  · simp only [h, trunc_eq_self hx]
  · simp only [h, trunc_eq_self hx]

theorem convMove_same {c : FCtx} (hsame : c.ifmt = c.ofmt) (hint : c.ifmt.isInt = true) {l : List (Option DWord)}
    (hl : ∀ x, some x ∈ l → x.toNat < 2 ^ c.ifmt.width) (sr : Word) : convMove c l sr = (l.map (·.getD 0), 0, sr) := by
  induction l with
  | nil => rfl
  | cons y l ih =>
    have hrest := ih fun x hx => hl x (List.mem_cons_of_mem _ hx)
    cases y with
    | none => simp [convMove, hrest]
    | some x =>
      have hx := convLane_same hint (hl x List.mem_cons_self) c.img.b8mode c.cvtMode false sr
      simp [convMove, ← hsame, hx, hrest]

theorem moveForm_same {c : FCtx} (hsame : c.ifmt = c.ofmt) (hint : c.ifmt.isInt = true) {l : List (Option DWord)}
    (hl : ∀ x, some x ∈ l → x.toNat < 2 ^ c.ifmt.width) :
    moveForm c l = .ok (Res.of (c.f.modEl c.el fun e => { e with srstate := c.elt.srstate }) 0 (c.both (optLanes l).2 (optLanes l).1) none) := by
  simp only [moveForm, convMove_same hsame hint hl, optLanes]

theorem packed_lt {c : FCtx} {x : DWord} (h : x ∈ c.packed) : x.toNat < 2 ^ c.ifmt.width := by
  obtain ⟨k, _, rfl⟩ := List.mem_map.mp h
  exact va_lt c k

theorem spread_length (m : List Bool) (l : List DWord) : (spread m l).length = m.length := by
  induction m, l using spread.induct <;> simp_all [spread]

theorem mem_of_mem_spread {m : List Bool} {l : List DWord} {x : DWord} (h : some x ∈ spread m l) : x ∈ l := by
  induction m, l using spread.induct <;> simp_all [spread]
  all_goals tauto

/-- A lane that the mask names takes the value numbered by the named lanes below it. -/
theorem spread_getElem? {m : List Bool} {l : List DWord} {k : Nat} {b : Bool} (hk : m[k]? = some b) :
    (spread m l)[k]? = some (if b = true then l[(m.take k).count true]? else none) := by
  induction m, l using spread.induct generalizing k with
  | case1 => simp at hk
  | case2 m x r ih =>
    cases k with
    | zero => simp_all [spread]
    | succ k => simpa [spread] using ih (by simpa using hk)
  | case3 m ih =>
    cases k with
    | zero => simp_all [spread]
    | succ k => simpa [spread] using ih (by simpa using hk)
  | case4 m l ih =>
    cases k with
    | zero => simp_all [spread]
    | succ k => simpa [spread] using ih (by simpa using hk)

/-- The lanes that VUNPK's mask names. -/
def takes (c : FCtx) (k : Nat) : Bool := c.sideValid c.b k && decide (c.vb k ≠ 0)

theorem count_take_takes {c : FCtx} {k : Nat} (hk : k < c.len) : ((c.lanes.map (takes c)).take k).count true = ((List.range k).filter (takes c)).length := by
  rw [← List.map_take, FCtx.lanes, List.take_range, min_eq_left hk.le, List.count, List.countP_map, ← List.countP_eq_length_filter]
  congr 1
  funext j
  simp


/-- The tokens of VSPLAT (R130): a run of n copies of lane 0 of a for each destination, with F0 as the firing tag holds it. -/
def splats (c : FCtx) (n : Nat) : List Out :=
  let v := if c.sideValid c.a 0 then lanesMask n else 0
  [{ c.run c.d v (List.replicate n (c.va 0)) with vec := true, f0 := some c.base },
    { c.run c.e v (List.replicate n (c.va 0)) with vec := true, f0 := some c.base }]

/-- The condition under which VSPLAT sends its run (R130): a scalar a, and a length that token and tag can hold. -/
def SplatInRange (c : FCtx) (n : Nat) : Prop :=
  c.intVal c.b = some (n : Int) ∧ 1 ≤ n ∧ n ≤ 32 ∧ n * c.ofmt.width ≤ 1024 ∧ c.overF0 c.base n = false

theorem vsplatForm_eq {c : FCtx} (hscalar : ∀ x, c.tok c.a = some x → x.vec = false) {n : Nat} (h : SplatInRange c n) :
    vsplatForm c = c.emits (splats c n) := by
  obtain ⟨hval, h1, h32, hbits, hf0⟩ := h
  have hlen : ¬((n : Int) < 1 ∨ 32 < (n : Int) ∨ 1024 < (n : Int) * c.ofmt.width) := by
    refine not_or.mpr ⟨by omega, not_or.mpr ⟨by omega, ?_⟩⟩
    exact_mod_cast not_lt.mpr hbits
  obtain ⟨hn1, hn⟩ := not_or.mp hlen
  obtain ⟨hn32, hn1024⟩ := not_or.mp hn
  unfold vsplatForm
  cases htok : c.tok c.a with
  | none => simp only [hval, hn1, hn32, hn1024, Int.toNat_natCast, hf0, Bool.false_eq_true, or_self, if_false]; rfl
  | some x => simp only [hval, hn1, hn32, hn1024, Int.toNat_natCast, hf0, hscalar x htok, Bool.false_eq_true, or_self, if_false]; rfl

theorem splats_plain {c : FCtx} (h : Clear c) (n : Nat) : ∀ o ∈ splats c n, plainDst c o.dst = true ∧ o.pool = false := by
  obtain ⟨_, _, _, _, _, hd, he⟩ := h
  simpa [splats, FCtx.run] using ⟨hd, he⟩

/-- The validity word of VSPLAT's run. -/
theorem bit_splatMask (c : FCtx) {n : Nat} (hn : n ≤ 32) (k : Nat) :
    bit (if c.sideValid c.a 0 = true then lanesMask n else 0) k = (decide (k < n) && c.sideValid c.a 0) := by
  cases c.sideValid c.a 0
  · simp [bit]
  · simp [bit_lanesMask hn]

/-! ### The forms -/

/-- The lanes of SEL (R115): a where it is valid, else b where it is valid, else a. -/
def selected (c : FCtx) : List DWord :=
  c.lanes.map fun k => if c.sideValid c.a k then c.va k else if c.sideValid c.b k then c.vb k else c.va k

/-- The validity word of SEL: the lanes in which a side is valid. -/
def selectedMask (c : FCtx) : BitVec 32 :=
  BitVec.ofNat 32 (c.lanes.foldl (fun n k => if c.sideValid c.a k || c.sideValid c.b k then n + 2 ^ k else n) 0)

/-- The lanes of VPERM (R129). -/
def permuted (c : FCtx) : List (Option DWord) :=
  c.lanes.map fun k => if c.sideValid c.b k ∧ fld (c.vb k) 4 0 < c.len ∧ c.sideValid c.a (fld (c.vb k) 4 0) then some (c.va (fld (c.vb k) 4 0)) else none

/-- The lanes of VPACK (R131). -/
def packedLanes (c : FCtx) : List (Option DWord) := c.lanes.map fun k => c.packed[k]?

/-- The lanes of VUNPK (R131). -/
def unpacked (c : FCtx) : List (Option DWord) := spread (c.lanes.map (takes c)) c.packed

theorem bit_selectedMask {c : FCtx} {k : Nat} (hk : k < c.len) (hk32 : k < 32) :
    bit (selectedMask c) k = (c.sideValid c.a k || c.sideValid c.b k) :=
  (bit_sumBits (fun k => (c.sideValid c.a k || c.sideValid c.b k) = true) c.len hk32).trans (by simp [hk])

theorem optLanes_length_of_eq {c : FCtx} {l : List (Option DWord)} (h : l.length = c.lanes.length) : (optLanes l).1.length = c.len := by
  simp [optLanes, h, FCtx.lanes]

theorem permuted_getElem? {c : FCtx} {k : Nat} (hk : k < c.len) :
    (permuted c)[k]? = some (if c.sideValid c.b k = true ∧ (c.vb k).toNat % 32 < c.len ∧ c.sideValid c.a ((c.vb k).toNat % 32) = true
      then some (c.va ((c.vb k).toNat % 32)) else none) := by
  simp [permuted, lanes_getElem? hk, fld]

theorem packedLanes_getElem? {c : FCtx} {k : Nat} (hk : k < c.len) : (packedLanes c)[k]? = some (c.packed[k]?) := by
  simp [packedLanes, lanes_getElem? hk]

theorem packedLanes_lt {c : FCtx} {x : DWord} (h : some x ∈ packedLanes c) : x.toNat < 2 ^ c.ifmt.width := by
  obtain ⟨k, _, hk⟩ := List.mem_map.mp h
  exact packed_lt (List.mem_of_getElem? hk)

theorem unpacked_getElem? {c : FCtx} {k : Nat} (hk : k < c.len) :
    (unpacked c)[k]? = some (if takes c k = true then c.packed[((List.range k).filter (takes c)).length]? else none) := by
  rw [unpacked, spread_getElem? (b := takes c k) (by simp [lanes_getElem? hk]), count_take_takes hk]

theorem sendOp_vsplat : SendOp 0x55 Instr.vsplat
    (fun c => (∀ x, c.tok c.a = some x → x.vec = false) ∧ ∃ n : Nat, SplatInRange c n)
    (fun c f fl outs => f = c.f ∧ fl = 0 ∧ ∃ n : Nat, c.intVal c.b = some (n : Int) ∧ ∃ valid : BitVec 32,
        (∀ k, k < 32 → bit valid k = (decide (k < n) && c.sideValid c.a 0))
        ∧ outs = [{ c.run c.d valid (List.replicate n (c.va 0)) with vec := true, f0 := some c.base },
            { c.run c.e valid (List.replicate n (c.va 0)) with vec := true, f0 := some c.base }]) := by
  have hval : ∀ {c n}, SplatInRange c n → ((c.intVal c.b).getD 0).toNat = n := fun h => by rw [h.1]; rfl
  refine sendOp_of_emits (fun c => splats c ((c.intVal c.b).getD 0).toNat) ?_ (fun _ h => splats_plain h _) ?_
  · rintro c ⟨hscalar, n, hn⟩
    rw [hval hn]
    exact vsplatForm_eq hscalar hn
  · rintro c - ⟨_, n, hn⟩
    rw [hval hn]
    obtain ⟨hint, _, h32, _⟩ := hn
    exact ⟨rfl, rfl, n, hint, _, fun k _ => bit_splatMask c h32 k, rfl⟩

/-- Settles O11: the moves within a firing are lists of optional lanes, and each lane of such a list has its own validity. -/
theorem vectorMoves : Obligations.VectorMoves := by
  unfold Obligations.VectorMoves
  refine ⟨?sel, ?vperm, sendOp_vsplat, ?vpack, ?vunpk, ?vmask⟩
  case sel =>
    exact sendOp_of_emits_both selectedMask selected (fun _ _ => rfl) fun c _ _ =>
      ⟨rfl, rfl, _, _, rfl, by simp [selected, FCtx.lanes], fun k hk hk32 => ⟨bit_selectedMask hk hk32, by simp [selected, lanes_getElem? hk]⟩⟩
  case vperm =>
    exact sendOp_of_emits_both (fun c => (optLanes (permuted c)).2) (fun c => (optLanes (permuted c)).1) (fun _ _ => rfl) fun c _ _ =>
      ⟨rfl, rfl, _, _, rfl, optLanes_length_of_eq (by simp [permuted]), fun k hk hk32 => laneIs_optLanes hk32 (permuted_getElem? hk)⟩
  case vpack =>
    exact sendOp_of_moves packedLanes (fun c h => moveForm_same h.1 h.2 fun x hx => packedLanes_lt hx) fun c _ =>
      ⟨rfl, _, _, rfl, optLanes_length_of_eq (by simp [packedLanes]), rfl, fun k hk hk32 => laneIs_optLanes hk32 (packedLanes_getElem? hk)⟩
  case vunpk =>
    refine sendOp_of_moves unpacked (fun c h => moveForm_same h.1 h.2 fun x hx => packed_lt (mem_of_mem_spread hx)) fun c _ =>
      ⟨rfl, _, _, rfl, optLanes_length_of_eq (by simp [unpacked, spread_length]), rfl, fun k hk hk32 => laneIs_optLanes hk32 ?_⟩
    rw [unpacked_getElem? hk]
    simp only [takes, Bool.and_eq_true, decide_eq_true_eq]
    rfl
  case vmask =>
    exact sendOp_of_emits_both (fun c => c.valid &&& c.maskB) FCtx.avals (fun _ _ => rfl) fun c h _ => ⟨rfl, rfl, _, isMask_maskB h, rfl⟩

end Sys2Proof.Laws.Moves

/-! ## Proofs: the float selections (R118 to R120) -/

namespace Sys2Proof.Laws.FloatSelect

open Sys2Proof Sys2Proof.Machine Sys2Proof.Laws.Vector Sys2Proof.Laws.Integer

/-! ### Reading a float code -/

/-- F16, BF16 and F32 have a negative zero, and their codes fill the width. -/
theorem isFlt_negZero {f : Fmt} (h : f.isFlt = true) (m : Byte) : (fparams f m).negZero = true ∧ (fparams f m).w = f.width := by
  obtain (rfl | rfl) | rfl : (f = .f16 ∨ f = .bf16) ∨ f = .f32 := by simpa [Fmt.isFlt] using h
  all_goals exact ⟨rfl, rfl⟩

section Read

variable {p : FP} {x : DWord}

/-- Sign and magnitude of a word's code. -/
def signAt (p : FP) (x : DWord) : Bool := p.signOf (x.toNat % 2 ^ p.w)
def magAt (p : FP) (x : DWord) : Nat := p.magOf (x.toNat % 2 ^ p.w)

theorem signAt_of_inf {s : Bool} (h : fread p x = .inf s) : signAt p x = s := by
  unfold fread at h
  dsimp only at h
  repeat' split at h
  all_goals cases h
  all_goals rfl

theorem signAt_of_fin {q : Q} (h : fread p x = .fin q) : signAt p x = decide (q.n < 0) := by
  unfold fread at h
  dsimp only at h
  repeat' split at h
  all_goals cases h
  -- Left are the finite values of either sign, whose magnitude is not zero.
  all_goals
    have hpos := magVal_n_pos p ‹¬p.magOf _ = 0›
    simp_all [signAt, Q.neg]
  all_goals omega

end Read

/-! ### The sign forms -/

/-- The sign bit of a word below 2^w changed. -/
theorem flipTop_eq {w x : Nat} (hw : 0 < w) (hx : x < 2 ^ w) :
    (if 2 ^ (w - 1) ≤ x then x - 2 ^ (w - 1) else x + 2 ^ (w - 1)) = (x + 2 ^ (w - 1)) % 2 ^ w := by
  have hpow : 2 ^ w = 2 * 2 ^ (w - 1) := (mul_pow_sub_one hw.ne' 2).symm
  rw [hpow] at hx ⊢
  split
  case isTrue h => rw [show x + 2 ^ (w - 1) = x - 2 ^ (w - 1) + 2 * 2 ^ (w - 1) by omega, Nat.add_mod_right, Nat.mod_eq_of_lt (by omega)]
  case isFalse => rw [Nat.mod_eq_of_lt (by omega)]

section SignForm

variable {p : FP} {x : DWord}

theorem signForm_nan {g : Bool} (h : fread p x = .nan g) (neg : Bool) : signForm neg p x = (w64 p.nan, flagIf g flIV) := by
  unfold signForm
  simp only [h]

/-- In a format with a sign bit and a negative zero, FABS clears the bit and FNEG changes it. -/
theorem signForm_of_negZero (hs : p.signed = true) (hz : p.negZero = true) (h : (fread p x).isNan = false) (neg : Bool) :
    signForm neg p x = (w64 (if neg then (if x.toNat % 2 ^ p.w / 2 ^ (p.w - 1) = 1 then x.toNat % 2 ^ p.w - 2 ^ (p.w - 1)
      else x.toNat % 2 ^ p.w + 2 ^ (p.w - 1)) else x.toNat % 2 ^ p.w % 2 ^ (p.w - 1)), 0) := by
  unfold signForm
  cases hx : fread p x with
  | nan g => simp [hx, FV.isNan] at h
  | _ => cases neg <;> simp [hs, hz]

end SignForm

theorem toNat_fabs {f : Fmt} (hf : f.isFlt = true) (m : Byte) {x : DWord} (hx : x.toNat < 2 ^ f.width)
    (h : (fread (fparams f m) x).isNan = false) :
    (signForm false (fparams f m) x).2 = 0 ∧ (signForm false (fparams f m) x).1.toNat = x.toNat % 2 ^ (f.width - 1) := by
  obtain ⟨hz, hw⟩ := isFlt_negZero hf m
  rw [signForm_of_negZero (isFlt_signed hf m).1 hz h, hw, Nat.mod_eq_of_lt hx]
  exact ⟨rfl, toNat_w64 ((Nat.mod_le _ _).trans_lt (hx.trans_le (pow_le_64 f)))⟩

theorem toNat_fneg {f : Fmt} (hf : f.isFlt = true) (m : Byte) {x : DWord} (hx : x.toNat < 2 ^ f.width)
    (h : (fread (fparams f m) x).isNan = false) :
    (signForm true (fparams f m) x).2 = 0 ∧ (signForm true (fparams f m) x).1.toNat = (x.toNat + 2 ^ (f.width - 1)) % 2 ^ f.width := by
  obtain ⟨hz, hw⟩ := isFlt_negZero hf m
  have hpow : 2 ^ f.width = 2 * 2 ^ (f.width - 1) := (mul_pow_sub_one (fmt_width_pos f).ne' 2).symm
  have htop : x.toNat / 2 ^ (f.width - 1) = 1 ↔ 2 ^ (f.width - 1) ≤ x.toNat := by
    have hpos : 0 < 2 ^ (f.width - 1) := by positivity
    rw [Nat.div_eq_iff hpos]
    omega
  rw [signForm_of_negZero (isFlt_signed hf m).1 hz h, hw, Nat.mod_eq_of_lt hx]
  simp only [if_true, htop, flipTop_eq (fmt_width_pos f) hx]
  exact ⟨trivial, toNat_w64 ((Nat.mod_lt _ (by positivity)).trans_le (pow_le_64 f))⟩

theorem isNan_signForm {p : FP} {x : DWord} {g : Bool} (h : fread p x = .nan g) (neg : Bool) :
    IsNan p g (signForm neg p x).1 (signForm neg p x).2 := by
  rw [signForm_nan h]
  exact ⟨rfl, rfl⟩

/-! ### Comparison and class -/

theorem isSig_of_not_nan {v : FV} (h : v.isNan = false) : v.isSig = false := by
  cases v with
  | nan g => exact absurd h (by simp [FV.isNan])
  | _ => rfl

theorem fcmpCode_spec (a b : FV) :
    (fcmpCode a b).2 = (if (a.isSig || b.isSig) = true then flIV else 0)
      ∧ (fcmpCode a b).1 = if a.isNan = true ∨ b.isNan = true then 8 else if ltFV a b then 1 else if ltFV b a then 4 else 2 := by
  unfold fcmpCode
  by_cases h : a.isNan = true ∨ b.isNan = true
  · rw [if_pos (by simpa using h), if_pos h]
    exact ⟨rfl, rfl⟩
  · obtain ⟨ha, hb⟩ : a.isNan = false ∧ b.isNan = false := by simpa using h
    rw [if_neg (by simp [ha, hb]), if_neg h, isSig_of_not_nan ha, isSig_of_not_nan hb]
    refine ⟨rfl, ?_⟩
    cases ltFV a b <;> cases ltFV b a <;> rfl

/-- The class of a value of F16, BF16 or F32 (R120). -/
theorem classOf_spec {f : Fmt} (hf : f.isFlt = true) (m : Byte) {x : DWord} (hx : x.toNat < 2 ^ f.width) :
    (∀ g, fread (fparams f m) x = .nan g → classOf (fparams f m) x = 0)
      ∧ (∀ s, fread (fparams f m) x = .inf s → classOf (fparams f m) x = if s then 1 else 8)
      ∧ (∀ s, fread (fparams f m) x = .zero s → classOf (fparams f m) x = if s then 4 else 5)
      ∧ (∀ q, fread (fparams f m) x = .fin q → classOf (fparams f m) x
          = if q.n < 0 then (if decide (x.toNat % 2 ^ (f.width - 1) < 2 ^ (fparams f m).t) = true then 3 else 2)
            else (if decide (x.toNat % 2 ^ (f.width - 1) < 2 ^ (fparams f m).t) = true then 6 else 7)) := by
  obtain ⟨hs, _⟩ := isFlt_signed hf m
  obtain ⟨_, hw⟩ := isFlt_negZero hf m
  have hmag : magAt (fparams f m) x = x.toNat % 2 ^ (f.width - 1) := by
    rw [magAt, FP.magOf, if_pos hs, hw, Nat.mod_eq_of_lt hx]
  refine ⟨fun g h => ?_, fun s h => ?_, fun s h => ?_, fun q h => ?_⟩
  · simp only [classOf, h]
  · have hsign := signAt_of_inf h
    rw [signAt] at hsign
    simp only [classOf, h, hsign]
  · simp only [classOf, h]
  · have hsign := signAt_of_fin h
    rw [signAt] at hsign
    rw [magAt] at hmag
    simp only [classOf, h, hsign, hmag, decide_eq_true_eq]

/-- Settles O6: each form by the classes of its operands; none of them calls the rounding. -/
theorem floatSelection : Obligations.FloatSelection := by
  unfold Obligations.FloatSelection
  refine ⟨?fmin, ?fmax, ?fabs, ?fneg, ?fcmp, ?fclass⟩
  case fmin => exact laneOp_of_plain (fun c k => minmaxF c.pin false (c.va k) (c.vb k)) fun c k => pickIs_minmaxF _ _ _ _
  case fmax => exact laneOp_of_plain (fun c k => minmaxF c.pin true (c.va k) (c.vb k)) fun c k => pickIs_minmaxF _ _ _ _
  case fabs =>
    exact laneOp_of_plain (fun c k => signForm false c.pin (c.va k)) fun c k hf =>
      ⟨fun g h => isNan_signForm h false, toNat_fabs hf _ (va_lt c k)⟩
  case fneg =>
    exact laneOp_of_plain (fun c k => signForm true c.pin (c.va k)) fun c k hf =>
      ⟨fun g h => isNan_signForm h true, toNat_fneg hf _ (va_lt c k)⟩
  case fcmp => exact laneOp_of_plain (fun c k => fcmpCode (c.fa k) (c.fb k)) fun c k => fcmpCode_spec _ _
  case fclass =>
    refine laneOp_of_plain (fun c k => (w64 (classOf c.pin (c.va k)), 0)) fun c k hf => ⟨rfl, ?_⟩
    obtain ⟨hnan, hinf, hzero, hfin⟩ := classOf_spec hf c.img.b8mode (va_lt c k)
    refine ⟨fun g h => ?_, fun s h => ?_, fun s h => ?_, fun q h => ?_⟩
    · exact congrArg w64 (hnan g h)
    · exact (congrArg w64 (hinf s h)).trans (apply_ite w64 _ _ _)
    · exact (congrArg w64 (hzero s h)).trans (apply_ite w64 _ _ _)
    · refine (congrArg w64 (hfin q h)).trans ?_
      simp only [apply_ite w64]
      rfl

end Sys2Proof.Laws.FloatSelect

/-! ## Proofs: QUANT and the sort keys (R84 to R87, R95, R122, R125) -/

namespace Sys2Proof.Laws.Quant

open Sys2Proof Sys2Proof.Machine Sys2Proof.Laws.Vector Sys2Proof.Laws.Integer Sys2Proof.Laws.FloatSelect

/-- A form whose lanes draw on the stochastic-rounding state is a lane operation under what is known of each lane. -/
theorem laneOpSR_of {op : Nat} {mk : BitVec 5 → BitVec 5 → BitVec 5 → BitVec 5 → BitVec 4 → Instr}
    {L : FCtx → Nat → Word → DWord → Flags → Word → Prop} (g : FCtx → Nat → Word → Rounded)
    (hL : ∀ c k sr, L c k sr (g c k sr).bits (g c k sr).fl (g c k sr).sr) (hop : op < 0x70 := by decide)
    (hx : ∀ a b d e t s, exec (mk a b d e t) s = fire op a b d e t (fun c => c.lanewise (g c)) s := by intros; rfl) : LaneOpSR op mk L :=
  fun s a b d e t h => lanewiseSR_of _ _ (hx a b d e t s) h (.inl hop) rfl fun k sr => hL _ k sr

/-! ### Rounding to an integer (R84, R87) -/

/-- Quotient and remainder of a negative number, by those of its magnitude. -/
theorem neg_ediv_emod (n : Nat) {d : Nat} (hd : 0 < d) :
    -(n : Int) / d = -((n / d : Nat) : Int) - (if n % d = 0 then 0 else 1) ∧ -(n : Int) % d = if n % d = 0 then 0 else (d : Int) - (n % d : Nat) := by
  have hdvd : (d : Int) ∣ n ↔ n % d = 0 := by rw [Int.natCast_dvd_natCast, Nat.dvd_iff_mod_eq_zero]
  have hsign : (d : Int).sign = 1 := Int.sign_eq_one_of_pos (by exact_mod_cast hd)
  constructor
  · simp only [Int.neg_ediv, hdvd, hsign, Int.natCast_ediv]
  · simp only [Int.neg_emod, hdvd, Int.natCast_emod, Int.natAbs_natCast]

/-- The nearest integer, ties to even, by quotient and remainder. -/
theorem nearInt_rne (n : Int) (d : Nat) :
    nearInt .rne n d = if 2 * (n % d) < d ∨ (2 * (n % d) = d ∧ n / d % 2 = 0) then n / d else n / d + 1 := by
  have hr : n - n / d * d = n % d := by rw [Int.emod_def, mul_comm]
  simp only [nearInt, hr]

theorem natAbs_mod_eq_zero_iff (n : Int) (d : Nat) : n.natAbs % d = 0 ↔ n % d = 0 := by
  rw [← Nat.dvd_iff_mod_eq_zero, ← Int.dvd_iff_emod_eq_zero, Int.natCast_dvd]

/-! Where the model takes the greater magnitude, by the mode. -/

section RoundUp

variable (neg odd : Bool) (rem den : Nat) (sr : Word)

theorem roundUp_rne : (roundUp .rne neg odd rem den sr).1.toNat = if rem ≠ 0 ∧ (den < 2 * rem ∨ 2 * rem = den ∧ odd = true) then 1 else 0 := by
  unfold roundUp
  by_cases h : rem = 0
  · simp [h]
  · simp [h, Bool.toNat, Bool.cond_eq_ite]

theorem roundUp_rtz : (roundUp .rtz neg odd rem den sr).1.toNat = 0 := by
  unfold roundUp
  split <;> rfl

theorem roundUp_rdn : (roundUp .rdn neg odd rem den sr).1.toNat = if rem ≠ 0 ∧ neg = true then 1 else 0 := by
  unfold roundUp
  by_cases h : rem = 0
  · simp [h]
  · cases neg <;> simp [h]

theorem roundUp_rup : (roundUp .rup neg odd rem den sr).1.toNat = if rem ≠ 0 ∧ neg = false then 1 else 0 := by
  unfold roundUp
  by_cases h : rem = 0
  · simp [h]
  · cases neg <;> simp [h]

theorem roundUp_state {m : Round} (hm : m ≠ .sr) : (roundUp m neg odd rem den sr).2 = sr := by
  unfold roundUp
  split
  · rfl
  · cases m with
    | sr => exact absurd rfl hm
    | _ => rfl

end RoundUp

/-- The integer that a mode selects for a number that is not negative. -/
theorem nearInt_natCast {m : Round} (hm : m ≠ .sr) (k : Nat) {d : Nat} (hd : 0 < d) (sr : Word) :
    nearInt m k d = (k / d + (roundUp m false (decide (k / d % 2 = 1)) (k % d) d sr).1.toNat : Nat) := by
  have hlt : k % d < d := Nat.mod_lt _ hd
  have hdiv : (k : Int) / d = (k / d : Nat) := (Int.natCast_ediv k d).symm
  have hmod : (k : Int) % d = (k % d : Nat) := (Int.natCast_emod k d).symm
  have hneg := (neg_ediv_emod k hd).1
  cases m with
  | rne =>
    rw [nearInt_rne, hdiv, hmod, roundUp_rne]
    generalize k / d = a, k % d = r at *
    simp only [decide_eq_true_eq]
    split_ifs <;> omega
  | rtz => rw [roundUp_rtz, nearInt, ← Int.ofNat_tdiv, Nat.add_zero]
  | rdn => rw [roundUp_rdn, nearInt, hdiv]; simp
  | rup =>
    rw [roundUp_rup, nearInt, hneg]
    simp only [and_true]
    split_ifs <;> omega
  | sr => exact absurd rfl hm

/-- The same for a number that is not positive. -/
theorem nearInt_neg_natCast {m : Round} (hm : m ≠ .sr) (k : Nat) {d : Nat} (hd : 0 < d) (sr : Word) :
    nearInt m (-(k : Int)) d = -((k / d + (roundUp m true (decide (k / d % 2 = 1)) (k % d) d sr).1.toNat : Nat) : Int) := by
  have hlt : k % d < d := Nat.mod_lt _ hd
  obtain ⟨hdiv, hmod⟩ := neg_ediv_emod k hd
  cases m with
  | rne =>
    rw [nearInt_rne, hdiv, hmod, roundUp_rne]
    generalize k / d = a, k % d = r at *
    simp only [decide_eq_true_eq]
    split_ifs <;> omega
  | rtz => rw [roundUp_rtz, nearInt, Int.neg_tdiv, ← Int.ofNat_tdiv, Nat.add_zero]
  | rdn =>
    rw [roundUp_rdn, nearInt, hdiv]
    simp only [and_true]
    clear hmod
    split_ifs <;> omega
  | rup => rw [roundUp_rup, nearInt, neg_neg, ← Int.natCast_ediv]; simp
  | sr => exact absurd rfl hm

/-- Without stochastic rounding the model's choice between the two neighbours of a magnitude is the integer that the mode selects. -/
theorem roundInt_eq_nearInt {m : Round} (hm : m ≠ .sr) (sr : Word) (n : Int) {d : Nat} (hd : 0 < d) :
    (roundInt m sr ⟨n, d⟩).1 = nearInt m n d ∧ (roundInt m sr ⟨n, d⟩).2.2 = sr := by
  refine ⟨?_, roundUp_state _ _ _ _ _ hm⟩
  rcases lt_or_ge n 0 with hneg | hpos
  · have hn : n = -(n.natAbs : Int) := by omega
    conv_rhs => rw [hn, nearInt_neg_natCast hm _ hd sr]
    simp only [roundInt, hneg, decide_true, if_true]
  · have hn : n = (n.natAbs : Int) := by omega
    conv_rhs => rw [hn, nearInt_natCast hm _ hd sr]
    simp only [roundInt, not_lt.mpr hpos, decide_false, Bool.false_eq_true, if_false]

theorem roundInt_inexact (m : Round) (sr : Word) (q : Q) : (roundInt m sr q).2.1 = decide (q.n % q.d ≠ 0) := by
  simp only [roundInt, ne_eq, natAbs_mod_eq_zero_iff]

/-- What follows the rounding of n/d follows of the model's integer. -/
theorem roundsToInt_roundInt (m : Round) (sr : Word) {n : Int} {d : Nat} (hd : 0 < d) {lim : Int → Prop} (h : lim (roundInt m sr ⟨n, d⟩).1) :
    RoundsToInt m sr (roundInt m sr ⟨n, d⟩).2.2 n d lim := by
  unfold RoundsToInt
  split
  case isTrue hsr =>
    subst hsr
    unfold StochasticInt
    simp only
    by_cases h0 : n.natAbs % d = 0
    · simp only [roundInt, roundUp, h0, if_true, decide_eq_true_eq, Bool.toNat_false, Nat.add_zero] at h ⊢
      exact ⟨trivial, h⟩
    · simp only [roundInt, roundUp, h0, if_false, decide_eq_true_eq, Bool.toNat, Bool.cond_decide] at h ⊢
      exact ⟨rfl, h⟩
  case isFalse hsr =>
    obtain ⟨hval, hstate⟩ := roundInt_eq_nearInt hsr sr n hd
    exact ⟨hstate, hval ▸ h⟩

/-! ### A value brought into an integer format (R95, R122) -/

theorem intMin_le_intMax (f : Fmt) : intMin f ≤ intMax f := (intMin_le_zero f).trans (zero_le_intMax f)

theorem holds_keepBits {f : Fmt} {v : Int} (h : intMin f ≤ v ∧ v ≤ intMax f) : Holds f v (keepBits f.width v) :=
  ⟨keepBits_lt f v, readInt_keepBits f v h⟩

theorem isInvalid_invalidInt (f : Fmt) : IsInvalid f (invalidInt f) := by cases f <;> rfl

theorem clampInt_of_out {f : Fmt} {v : Int} (h : ¬(intMin f ≤ v ∧ v ≤ intMax f)) :
    clampInt f v = if v < intMin f then intMin f else intMax f := by
  have := intMin_le_intMax f
  unfold clampInt
  split <;> omega

theorem holds_bound (f : Fmt) (low : Prop) [Decidable low] :
    Holds f (if low then intMin f else intMax f) (keepBits f.width (if low then intMin f else intMax f)) := by
  apply holds_keepBits
  split
  · exact ⟨le_rfl, intMin_le_intMax f⟩
  · exact ⟨intMin_le_intMax f, le_rfl⟩

theorem inexactTo_eq (n : Int) (d : Nat) (r : Int) :
    flagIf (decide (n % d ≠ 0)) flNX ||| flagIf (decide (n % d ≠ 0) && decide (r = 0)) flUF = InexactTo n d r := by
  unfold InexactTo flagIf
  by_cases h : n % d = 0
  · simp [h]
  · by_cases h0 : r = 0
    · simp [h, h0, flNX, flUF]
    · simp [h, h0]

/-- The model's conversion into an integer format is that of R95, by the class of the value. -/
theorem toIntIs_toIntFmt (f : Fmt) (m : Round) (sat : Bool) (k : Nat) {x : FV} (hx : ∀ q, x = .fin q → 0 < q.d) (sr : Word) :
    ToIntIs f m sat k x sr (toIntFmt f m sat sr k x).bits (toIntFmt f m sat sr k x).fl (toIntFmt f m sat sr k x).sr := by
  cases x with
  | nan g => cases sat <;> exact ⟨⟨rfl, by simp [toIntFmt, isInvalid_invalidInt]⟩, rfl⟩
  | inf s =>
    cases sat
    · exact ⟨⟨isInvalid_invalidInt f, rfl⟩, rfl⟩
    · exact ⟨⟨holds_bound f _, rfl⟩, rfl⟩
  | zero s => exact ⟨⟨rfl, rfl⟩, rfl⟩
  | fin q =>
    have hd := hx q rfl
    have hq : Q.mul q ⟨2 ^ k, 1⟩ = ⟨q.n * 2 ^ k, q.d⟩ := by simp [Q.mul]
    have hnx := roundInt_inexact m sr ⟨q.n * 2 ^ k, q.d⟩
    have hr := fun lim => roundsToInt_roundInt m sr hd (n := q.n * 2 ^ k) (lim := lim)
    unfold ToIntIs toIntFmt
    simp only [hq, hnx]
    by_cases hin : intMin f ≤ (roundInt m sr ⟨q.n * 2 ^ k, q.d⟩).1 ∧ (roundInt m sr ⟨q.n * 2 ^ k, q.d⟩).1 ≤ intMax f
    · rw [if_pos (by simpa [inRange] using hin)]
      refine hr _ ?_
      rw [if_pos hin]
      exact ⟨holds_keepBits hin, inexactTo_eq _ _ _⟩
    · rw [if_neg (by simpa [inRange] using hin)]
      cases sat
      · refine hr _ ?_
        rw [if_neg hin]
        exact ⟨isInvalid_invalidInt f, rfl⟩
      · refine hr _ ?_
        rw [if_neg hin, if_pos rfl, clampInt_of_out hin]
        exact ⟨holds_bound f _, rfl⟩

/-! ### A value rounded into a float format under the `.SAT` column (R61, R85) -/

section RoundFin

variable (p : FP) (m : Round) (sat : Bool) (q : Q) (sr : Word)

/-- The code to which a magnitude is rounded, whether it is inexact, and the state after it. -/
def magCode : Nat × Bool × Word := roundCode p m (decide (q.n < 0)) q.n.natAbs q.d sr

variable {p m q sr}

theorem roundFin_vanishes (h : (decide (q.n < 0) && !p.signed) = true) (h0 : (magCode p m q sr).1 = 0) :
    roundFin p m sat false sr q = ⟨0, flUF ||| flNX, (magCode p m q sr).2.2⟩ := by
  rw [magCode] at *
  simp only [roundFin, if_pos h, if_pos h0]

theorem roundFin_unsigned_neg (h : (decide (q.n < 0) && !p.signed) = true) (h0 : (magCode p m q sr).1 ≠ 0) :
    roundFin p m sat false sr q
      = ⟨if sat then 0 else w64 p.nan, if sat then flSAT ||| flNX else flIV, (magCode p m q sr).2.2⟩ := by
  rw [magCode] at *
  simp only [roundFin, if_pos h, if_neg h0]
  cases sat <;> rfl

theorem roundFin_overflows (h : ¬(decide (q.n < 0) && !p.signed) = true) (hover : p.maxFin < (magCode p m q sr).1) :
    roundFin p m sat false sr q
      = ⟨(overflowFV p m sat (decide (q.n < 0))).1, (overflowFV p m sat (decide (q.n < 0))).2, (magCode p m q sr).2.2⟩ := by
  rw [magCode] at *
  simp only [roundFin, if_neg h, if_pos hover]

theorem roundFin_fits (h : ¬(decide (q.n < 0) && !p.signed) = true) (hover : ¬p.maxFin < (magCode p m q sr).1) :
    roundFin p m sat false sr q = ⟨p.withSign (decide (q.n < 0)) (magCode p m q sr).1,
      flagIf (magCode p m q sr).2.1 flNX ||| flagIf ((magCode p m q sr).2.1 && decide ((magCode p m q sr).1 < 2 ^ p.t)) flUF,
      (magCode p m q sr).2.2⟩ := by
  rw [magCode] at *
  simp only [roundFin, if_neg h, if_neg hover, Bool.or_false]

/-- Under `.SAT` a finite value is rounded as without it, but for what overflows and for what an unsigned format cannot hold. -/
theorem roundsIn_roundFin (hq : q.n ≠ 0) :
    RoundsIn p m sat q.n q.d sr (roundFin p m sat false sr q).bits (roundFin p m sat false sr q).fl (roundFin p m sat false sr q).sr := by
  unfold RoundsIn
  rw [if_neg hq]
  cases sat with
  | false => simp
  | true =>
    by_cases h : (decide (q.n < 0) && !p.signed) = true
    · by_cases h0 : (magCode p m q sr).1 = 0
      · rw [roundFin_vanishes _ h h0, roundFin_vanishes _ h h0]
        simp [flOF, flUF, flNX, flIV]
      · rw [roundFin_unsigned_neg _ h h0, roundFin_unsigned_neg _ h h0]
        simp [flOF, flIV]
    · by_cases hover : p.maxFin < (magCode p m q sr).1
      · rw [roundFin_overflows _ h hover, roundFin_overflows _ h hover]
        simp [overflowFV, IsMaxFinite, flOF, flNX]
      · have hOF : ∀ a b : Bool, (flagIf a flNX ||| flagIf b flUF) &&& flOF = 0 := by decide
        have hIV : ∀ a b : Bool, flagIf a flNX ||| flagIf b flUF ≠ flIV := by decide
        rw [roundFin_fits _ h hover, roundFin_fits _ h hover]
        simp [hOF, hIV]

end RoundFin

theorem infIn_roundFV (p : FP) (m : Round) (sat s : Bool) (sr : Word) :
    InfIn p sat s (roundFV p m sat sr (.inf s)).bits (roundFV p m sat sr (.inf s)).fl ∧ (roundFV p m sat sr (.inf s)).sr = sr := by
  unfold InfIn roundFV
  dsimp only
  generalize (s && !p.signed) = b
  cases b <;> cases sat <;> cases p.hasInf <;> simp [IsNan, IsMaxFinite, IsInf]

/-! ### QUANT -/

theorem mulFV_of_nan {x y : FV} {g : Bool} (h : productOf x y = .nan g) : mulFV x y = (.nan false, flagIf g flIV) := by
  cases x <;> cases y <;> cases h
  all_goals simp [mulFV, nanOf, FV.isSig, flagIf]

theorem mulFV_of_not_nan {x y : FV} (h : (productOf x y).isNan = false) : mulFV x y = (productOf x y, 0) := by
  cases x <;> cases y <;> cases h <;> rfl

/-- A product of numbers read is a number other than 0 over a positive one. -/
theorem productOf_fin {x y : FV} {q : Q} (hx : ∀ r, x = .fin r → r.n ≠ 0 ∧ 0 < r.d) (hy : ∀ r, y = .fin r → r.n ≠ 0 ∧ 0 < r.d)
    (h : productOf x y = .fin q) : q.n ≠ 0 ∧ 0 < q.d := by
  cases x <;> cases y <;> cases h
  obtain ⟨hxn, hxd⟩ := hx _ rfl
  obtain ⟨hyn, hyd⟩ := hy _ rfl
  exact ⟨mul_ne_zero hxn hyn, Nat.mul_pos hxd hyd⟩

theorem pow2_d_pos (k : Int) : 0 < (pow2 k).d := by
  unfold pow2
  split <;> simp

theorem magVal_d_pos (p : FP) (m : Nat) : 0 < (p.magVal m).d := by
  unfold FP.magVal
  dsimp only [Q.mul]
  split <;> exact Nat.mul_pos Nat.one_pos (pow2_d_pos _)

theorem fread_fin_d_pos {p : FP} {x : DWord} {q : Q} (h : fread p x = .fin q) : 0 < q.d := by
  unfold fread at h
  dsimp only at h
  repeat' split at h
  all_goals cases h
  all_goals exact magVal_d_pos p _

theorem roundFor_of_narrow {f : Fmt} (h : f.narrow = true) (m : Round) : roundFor m f = m := by simp [roundFor, h]

theorem quantLane_of_isInt {f : Fmt} (hf : f.isInt = true) (hn : f.narrow = true) (b8 : Byte) (m : Round) (r : FR) (sr : Word) :
    quantLane f b8 m r sr = ⟨(toIntFmt f m true sr 0 r.1).bits, (toIntFmt f m true sr 0 r.1).fl ||| r.2, (toIntFmt f m true sr 0 r.1).sr⟩ := by
  simp only [quantLane, roundFor_of_narrow hn, hf, if_true]

theorem quantLane_b8 (b8 : Byte) (m : Round) (r : FR) (sr : Word) :
    quantLane .b8 b8 m r sr = ⟨(roundFV (fparams .b8 b8) m true sr r.1).bits, (roundFV (fparams .b8 b8) m true sr r.1).fl ||| r.2,
      (roundFV (fparams .b8 b8) m true sr r.1).sr⟩ := by
  rw [quantLane, roundFor_of_narrow rfl]
  rfl

/-- A product brought into I8 or N8. -/
theorem toIntIs_quantLane {f : Fmt} (hf : f.isInt = true) (hn : f.narrow = true) (b8 : Byte) (m : Round) {x y : FV}
    (hfin : ∀ q, productOf x y = .fin q → 0 < q.d) (sr : Word) :
    ToIntIs f m true 0 (productOf x y) sr (quantLane f b8 m (mulFV x y) sr).bits (quantLane f b8 m (mulFV x y) sr).fl
      (quantLane f b8 m (mulFV x y) sr).sr := by
  rw [quantLane_of_isInt hf hn]
  cases h : (productOf x y).isNan with
  | true =>
    obtain ⟨g, hg⟩ : ∃ g, productOf x y = .nan g := by
      cases hp : productOf x y with
      | nan g => exact ⟨g, rfl⟩
      | _ => simp [hp, FV.isNan] at h
    rw [mulFV_of_nan hg, hg]
    cases g <;> simp [ToIntIs, toIntFmt, flagIf, flIV]
  | false =>
    rw [mulFV_of_not_nan h]
    simpa using toIntIs_toIntFmt f m true 0 hfin sr

theorem quantIs_quantLane (c : FCtx) (m : Round) {x y : FV} (hfin : ∀ q, productOf x y = .fin q → q.n ≠ 0 ∧ 0 < q.d) (sr : Word) :
    QuantIs c m (productOf x y) sr (quantLane c.ofmt c.img.b8mode m (mulFV x y) sr).bits (quantLane c.ofmt c.img.b8mode m (mulFV x y) sr).fl
      (quantLane c.ofmt c.img.b8mode m (mulFV x y) sr).sr := by
  refine ⟨fun ho => ?_, fun ho => ?_⟩
  · obtain ⟨hint, hnarrow⟩ : c.ofmt.isInt = true ∧ c.ofmt.narrow = true := by rcases ho with ho | ho <;> rw [ho] <;> exact ⟨rfl, rfl⟩
    exact toIntIs_quantLane hint hnarrow _ m (fun q h => (hfin q h).2) sr
  · rw [FCtx.pout, ho, quantLane_b8]
    cases h : productOf x y with
    | nan g =>
      rw [mulFV_of_nan h]
      exact ⟨⟨rfl, BitVec.zero_or⟩, rfl⟩
    | inf s =>
      rw [mulFV_of_not_nan (by rw [h]; rfl), h]
      simpa using infIn_roundFV (fparams .b8 c.img.b8mode) m true s sr
    | zero s =>
      rw [mulFV_of_not_nan (by rw [h]; rfl), h]
      exact ⟨⟨rfl, BitVec.or_zero⟩, rfl⟩
    | fin q =>
      rw [mulFV_of_not_nan (by rw [h]; rfl), h]
      simpa [roundFV] using roundsIn_roundFin (p := fparams .b8 c.img.b8mode) (m := m) (sr := sr) true (hfin q h).1

theorem laneOpSR_quant {op : Nat} {mk : BitVec 5 → BitVec 5 → BitVec 5 → BitVec 5 → BitVec 4 → Instr} (mode : FCtx → Round)
    (hop : op < 0x70 := by decide)
    (hx : ∀ a b d e t s, exec (mk a b d e t) s = fire op a b d e t (quantForm mode) s := by intros; rfl) :
    LaneOpSR op mk fun c k => QuantIs c (mode c) (productOf (c.fa k) (c.fb k)) :=
  have hread : ∀ {p x r}, fread p x = FV.fin r → r.n ≠ 0 ∧ 0 < r.d := fun h => ⟨fread_fin_ne_zero h, fread_fin_d_pos h⟩
  laneOpSR_of (fun c k => quantLane c.ofmt c.img.b8mode (mode c) (mulFV (c.fa k) (c.fb k)))
    (fun c _ sr => quantIs_quantLane c (mode c) (fun _ h => productOf_fin (fun _ => hread) (fun _ => hread) h) sr) hop hx

end Sys2Proof.Laws.Quant

/-! ## Proofs: the sort keys (R125) -/

namespace Sys2Proof.Laws.Keys

open Sys2Proof Sys2Proof.Machine Sys2Proof.Laws.Vector Sys2Proof.Laws.Integer Sys2Proof.Laws.FloatSelect Sys2Proof.Laws.Quant

theorem two_pow_width (f : Fmt) : 2 ^ f.width = 2 * 2 ^ (f.width - 1) := (mul_pow_sub_one (fmt_width_pos f).ne' 2).symm

theorem code_lt (f : Fmt) (x : DWord) : x.toNat % 2 ^ f.width < 2 ^ f.width := Nat.mod_lt _ (by positivity)

/-- A number of the width is the number of its word. -/
theorem toNat_w64_of_lt_width (f : Fmt) {n : Nat} (h : n < 2 ^ f.width) : (w64 n).toNat = n := toNat_w64 (h.trans_le (pow_le_64 f))

/-! ### The keys of the formats -/

section KeyOf

variable {f : Fmt} (b8 : Byte) (x : DWord)

theorem isInt_of_isNat (h : f.isNat = true) : f.isInt = true := by
  revert h
  cases f <;> decide

theorem not_isInt_of_isFlt (h : f.isFlt = true) : f.isInt = false ∧ f ≠ .b8 := by
  revert h
  cases f <;> decide

theorem toNat_keyOf_isNat (h : f.isNat = true) : (keyOf f b8 x).toNat = x.toNat % 2 ^ f.width := by
  simp only [keyOf, isInt_of_isNat h, h, if_true, toNat_trunc]
  exact toNat_w64_of_lt_width f (code_lt f x)

theorem toNat_keyOf_signed (h : f.isInt = true) (hn : f.isNat = false) :
    (keyOf f b8 x).toNat = (x.toNat % 2 ^ f.width + 2 ^ (f.width - 1)) % 2 ^ f.width := by
  simp only [keyOf, h, hn, if_true, Bool.false_eq_true, if_false, toNat_trunc, flipTop_eq (fmt_width_pos f) (code_lt f x)]
  exact toNat_w64_of_lt_width f (Nat.mod_lt _ (by positivity))

theorem toNat_keyOf_isFlt (h : f.isFlt = true) :
    (keyOf f b8 x).toNat = if (fread (fparams f b8) x).isNan = true then 2 ^ f.width - 1
      else if x.toNat % 2 ^ f.width < 2 ^ (f.width - 1) then x.toNat % 2 ^ f.width + 2 ^ (f.width - 1)
      else 2 ^ f.width - 1 - x.toNat % 2 ^ f.width := by
  obtain ⟨hint, hb8⟩ := not_isInt_of_isFlt h
  have hpow := two_pow_width f
  have hlt := code_lt f x
  simp only [keyOf, hint, Bool.false_eq_true, if_false, hb8, toNat_trunc]
  split_ifs <;> exact toNat_w64_of_lt_width f (by omega)

theorem toNat_keyOf_b8_unsigned (h : (b8Params b8).signed = false) : (keyOf .b8 b8 x).toNat = x.toNat % 2 ^ 8 := by
  have hint : Fmt.isInt .b8 = false := rfl
  simp only [keyOf, hint, h, Bool.not_false, Bool.false_eq_true, if_false, if_true, toNat_trunc]
  exact toNat_w64_of_lt_width .b8 (code_lt .b8 x)

theorem toNat_keyOf_b8_signed (h : (b8Params b8).signed = true) :
    (keyOf .b8 b8 x).toNat = if x.toNat % 2 ^ 8 = 0x80 then 0xFF else if x.toNat % 2 ^ 8 < 0x80 then x.toNat % 2 ^ 8 + 0x7F
      else 0xFF - x.toNat % 2 ^ 8 := by
  have hint : Fmt.isInt .b8 = false := rfl
  have hcode : (trunc (Fmt.width .b8) x).toNat = x.toNat % 2 ^ 8 := toNat_trunc .b8 x
  have hlt : x.toNat % 2 ^ 8 < 256 := code_lt .b8 x
  simp only [keyOf, hint, h, hcode, Bool.not_true, Bool.false_eq_true, if_false, if_true]
  split_ifs
  · rfl
  · exact toNat_w64 (by omega)
  · exact toNat_w64 (by omega)

end KeyOf

theorem laneOp_keyx : LaneOp 0x4B Instr.keyx (fun c k v fl => fl = 0
    ∧ (c.ifmt.isNat = true → v = c.va k)
    ∧ (c.ifmt.isInt = true → c.ifmt.isNat = false → v.toNat = ((c.va k).toNat + 2 ^ (c.w - 1)) % 2 ^ c.w)
    ∧ (c.ifmt.isFlt = true → v.toNat = if (c.fa k).isNan = true then 2 ^ c.w - 1
        else if (c.va k).toNat < 2 ^ (c.w - 1) then (c.va k).toNat + 2 ^ (c.w - 1) else 2 ^ c.w - 1 - (c.va k).toNat)
    ∧ (c.ifmt = .b8 → c.pin.signed = false → v = c.va k)
    ∧ (c.ifmt = .b8 → c.pin.signed = true → v.toNat = if (c.va k).toNat = 0x80 then 0xFF
        else if (c.va k).toNat < 0x80 then (c.va k).toNat + 0x7F else 0xFF - (c.va k).toNat)) := by
  refine laneOp_of_plain (fun c k => (keyOf c.ifmt c.img.b8mode (c.va k), 0)) fun c k => ?_
  have hself : (c.va k).toNat % 2 ^ c.ifmt.width = (c.va k).toNat := Nat.mod_eq_of_lt (va_lt c k)
  refine ⟨rfl, fun h => ?_, fun h hn => ?_, fun h => ?_, fun h hs => ?_, fun h hs => ?_⟩
  · exact BitVec.eq_of_toNat_eq ((toNat_keyOf_isNat _ _ h).trans hself)
  · exact (toNat_keyOf_signed _ _ h hn).trans (by rw [hself]; rfl)
  · exact (toNat_keyOf_isFlt _ _ h).trans (by rw [hself]; rfl)
  · rw [FCtx.pin, h] at hs
    rw [h] at hself ⊢
    exact BitVec.eq_of_toNat_eq ((toNat_keyOf_b8_unsigned _ _ hs).trans hself)
  · rw [FCtx.pin, h] at hs
    rw [h] at hself ⊢
    exact (toNat_keyOf_b8_signed _ _ hs).trans (by rw [show 2 ^ 8 = 2 ^ Fmt.width .b8 from rfl, hself])

/-! ### Keys of integers -/

theorem signed_of_isInt {f : Fmt} (h : f.isInt = true) : f.signed = !f.isNat := by
  revert h
  cases f <;> decide

/-- The key of a signed number is the number above the least one. -/
theorem natCast_keyOf_signed {f : Fmt} (h : f.isInt = true) (hn : f.isNat = false) (b8 : Byte) (x : DWord) :
    ((keyOf f b8 x).toNat : Int) = readInt f x + (2 ^ (f.width - 1) : Nat) := by
  have hpow := two_pow_width f
  have hlt := code_lt f x
  have hcast : (2 : Int) ^ f.width = (2 ^ f.width : Nat) := by norm_cast
  rw [toNat_keyOf_signed b8 x h hn, ← flipTop_eq (fmt_width_pos f) hlt, readInt, signed_of_isInt h, hn, sint, hcast]
  simp only [Bool.not_false, if_true]
  split_ifs <;> omega

theorem natCast_keyOf_isNat {f : Fmt} (h : f.isNat = true) (b8 : Byte) (x : DWord) : ((keyOf f b8 x).toNat : Int) = readInt f x := by
  rw [toNat_keyOf_isNat b8 x h, readInt, signed_of_isInt (isInt_of_isNat h), h]
  rfl

theorem keyOf_lt_of_readInt_lt {f : Fmt} (b8 : Byte) {x y : DWord} (h : f.isInt = true) (hlt : readInt f x < readInt f y) :
    (keyOf f b8 x).toNat < (keyOf f b8 y).toNat := by
  cases hn : f.isNat with
  | true =>
    have hx := natCast_keyOf_isNat hn b8 x
    have hy := natCast_keyOf_isNat hn b8 y
    omega
  | false =>
    have hx := natCast_keyOf_signed h hn b8 x
    have hy := natCast_keyOf_signed h hn b8 y
    omega

/-! ### Magnitude codes order their values -/

/-- The number that a rational stands for. -/
def ratOf (q : Q) : ℚ := q.n / q.d

theorem ratOf_mul (a b : Q) : ratOf (Q.mul a b) = ratOf a * ratOf b := by
  simp only [ratOf, Q.mul]
  push_cast
  exact mul_div_mul_comm _ _ _ _

theorem ratOf_pow2 (k : Int) : ratOf (pow2 k) = 2 ^ k := by
  unfold pow2 ratOf
  split
  case isTrue h =>
    lift k to Nat using h
    simp
  case isFalse h =>
    obtain ⟨n, rfl⟩ : ∃ n : Nat, k = -(n : Int) := ⟨(-k).toNat, by omega⟩
    simp

theorem lt_iff_ratOf_lt {a b : Q} (ha : 0 < a.d) (hb : 0 < b.d) : a.lt b = true ↔ ratOf a < ratOf b := by
  have ha' : (0 : ℚ) < a.d := by exact_mod_cast ha
  have hb' : (0 : ℚ) < b.d := by exact_mod_cast hb
  rw [Q.lt, decide_eq_true_eq, ratOf, ratOf, div_lt_div_iff₀ ha' hb']
  exact_mod_cast Iff.rfl

/-- The value of a magnitude code in units of the least one (R74). -/
def units (t c : Nat) : Nat := if c / 2 ^ t = 0 then c % 2 ^ t else (2 ^ t + c % 2 ^ t) * 2 ^ (c / 2 ^ t - 1)

theorem ratOf_magVal (p : FP) (c : Nat) : ratOf (p.magVal c) = units p.t c * 2 ^ (1 - (p.bias : Int) - p.t) := by
  unfold FP.magVal units
  dsimp only
  generalize c / 2 ^ p.t = e, c % 2 ^ p.t = r
  split
  case isTrue => rw [ratOf_mul, ratOf_pow2]; simp [ratOf]
  case isFalse h =>
    have hexp : (e : Int) - p.bias - p.t = ((e - 1 : Nat) : Int) + (1 - (p.bias : Int) - p.t) := by omega
    rw [ratOf_mul, ratOf_pow2, hexp, zpow_add₀ (by norm_num), zpow_natCast, ← mul_assoc]
    simp [ratOf]

theorem units_mul_add (t e : Nat) {r : Nat} (hr : r < 2 ^ t) : units t (2 ^ t * e + r) = if e = 0 then r else (2 ^ t + r) * 2 ^ (e - 1) := by
  have hpos : 0 < 2 ^ t := by positivity
  rw [units, Nat.mul_add_div hpos, Nat.mul_add_mod, Nat.div_eq_of_lt hr, Nat.mod_eq_of_lt hr, Nat.add_zero]

/-- The next code has the next trailing bits, or none and the next exponent. -/
theorem units_mono (t : Nat) : Monotone (units t) := by
  refine monotone_nat_of_le_succ fun c => ?_
  obtain ⟨e, r, hr, rfl⟩ : ∃ e r, r < 2 ^ t ∧ c = 2 ^ t * e + r :=
    ⟨c / 2 ^ t, c % 2 ^ t, Nat.mod_lt _ (by positivity), (Nat.div_add_mod c (2 ^ t)).symm⟩
  rw [units_mul_add t e hr]
  rcases Nat.lt_or_ge (r + 1) (2 ^ t) with hnext | hcarry
  · rw [add_assoc, units_mul_add t e hnext]
    split
    · omega
    · exact Nat.mul_le_mul_right _ (by omega)
  · have hsucc : 2 ^ t * e + r + 1 = 2 ^ t * (e + 1) + 0 := by rw [mul_add]; omega
    rw [hsucc, units_mul_add t (e + 1) (by positivity), if_neg (Nat.succ_ne_zero e), Nat.add_sub_cancel, Nat.add_zero]
    split
    case isTrue h => rw [h]; omega
    case isFalse h =>
      calc (2 ^ t + r) * 2 ^ (e - 1) ≤ 2 ^ t * 2 * 2 ^ (e - 1) := Nat.mul_le_mul_right _ (by omega)
        _ = 2 ^ t * 2 ^ e := by rw [mul_assoc, mul_pow_sub_one h]

/-- A lesser magnitude has a lesser code. -/
theorem lt_of_magVal_lt {p : FP} {m m' : Nat} (h : (p.magVal m).lt (p.magVal m') = true) : m < m' := by
  rw [lt_iff_ratOf_lt (magVal_d_pos p m) (magVal_d_pos p m'), ratOf_magVal, ratOf_magVal, mul_lt_mul_iff_of_pos_right (by positivity)] at h
  exact (units_mono p.t).reflect_lt (by exact_mod_cast h)

/-! ### Sign and magnitude order the values -/

/-- The value of a code that is no NaN, by its sign and magnitude (R72 to R75). -/
def codeVal (p : FP) (s : Bool) (m : Nat) : FV :=
  if p.hasInf = true ∧ m = p.inf then .inf s else if m = 0 then .zero s else .fin (if s then (p.magVal m).neg else p.magVal m)

/-- A code below another: of unlike signs the negative one, of like signs by the magnitude. -/
def CodeLt (s : Bool) (m : Nat) (s' : Bool) (m' : Nat) : Prop :=
  (s = true ∧ s' = false) ∨ (s = false ∧ s' = false ∧ m < m') ∨ (s = true ∧ s' = true ∧ m' < m)

section CodeVal

variable (p : FP) (m : Nat)

/-- A magnitude code is that of infinity, of zero or of a number other than 0. -/
theorem codeVal_cases :
    ((p.hasInf = true ∧ m = p.inf) ∧ ∀ s, codeVal p s m = .inf s)
      ∨ ((¬(p.hasInf = true ∧ m = p.inf) ∧ m = 0) ∧ ∀ s, codeVal p s m = .zero s)
      ∨ ((¬(p.hasInf = true ∧ m = p.inf) ∧ m ≠ 0) ∧ ∀ s, codeVal p s m = .fin (if s then (p.magVal m).neg else p.magVal m)) := by
  by_cases hinf : p.hasInf = true ∧ m = p.inf
  · exact .inl ⟨hinf, fun _ => if_pos hinf⟩
  · by_cases hzero : m = 0
    · exact .inr (.inl ⟨⟨hinf, hzero⟩, fun _ => (if_neg hinf).trans (if_pos hzero)⟩)
    · exact .inr (.inr ⟨⟨hinf, hzero⟩, fun _ => (if_neg hinf).trans (if_neg hzero)⟩)

theorem codeVal_true : codeVal p true m = negFV (codeVal p false m) := by
  rcases codeVal_cases p m with ⟨_, h⟩ | ⟨_, h⟩ | ⟨_, h⟩ <;> rw [h, h] <;> rfl

theorem codeVal_not_nan (s : Bool) : (codeVal p s m).isNan = false := by
  rcases codeVal_cases p m with ⟨_, h⟩ | ⟨_, h⟩ | ⟨_, h⟩ <;> rw [h] <;> rfl

end CodeVal

theorem lt_neg (a b : Q) : a.neg.lt b.neg = b.lt a := by
  simp only [Q.lt, Q.neg, neg_mul, neg_lt_neg_iff]

/-- Signs changed, the order turns round. -/
theorem ltTotal_negFV {a b : FV} (ha : a.isNan = false) (hb : b.isNan = false) : ltTotal (negFV a) (negFV b) = ltTotal b a := by
  cases a <;> cases b
  case fin.fin q r => exact lt_neg q r
  case fin.zero q s => simp [ltTotal, ltFV, negFV, Q.neg]
  case zero.fin s q => simp [ltTotal, ltFV, negFV, Q.neg]
  all_goals simp_all [FV.isNan, ltTotal, ltFV, negFV, Bool.and_comm]

/-- A value of positive sign does not lie below one of negative sign. -/
theorem ltTotal_pos_neg (p : FP) (m m' : Nat) : ltTotal (codeVal p false m) (codeVal p true m') = false := by
  have hn : ∀ {m}, m ≠ 0 → 0 < (p.magVal m).n := fun h => magVal_n_pos p h
  have hd : ∀ {m}, (0 : Int) < (p.magVal m).d := by exact_mod_cast magVal_d_pos p _
  rcases codeVal_cases p m with ⟨_, h⟩ | ⟨_, h⟩ | ⟨⟨_, h0⟩, h⟩ <;> rcases codeVal_cases p m' with ⟨_, h'⟩ | ⟨_, h'⟩ | ⟨⟨_, h0'⟩, h'⟩ <;> rw [h, h']
  case inr.inr.inr.inr =>
    -- Two numbers: the products of numerators and denominators have the signs of the numerators.
    have h1 := mul_pos (hn h0) (hd (m := m'))
    have h2 := mul_pos (hn h0') (hd (m := m))
    have hle : -((p.magVal m').n * (p.magVal m).d) ≤ (p.magVal m).n * (p.magVal m').d := by linarith
    simpa [ltTotal, ltFV, Q.lt, Q.neg] using hle
  case inr.inl.inr.inr => simpa [ltTotal, ltFV, Q.neg] using (hn h0').le
  case inr.inr.inr.inl => simpa [ltTotal, ltFV] using (hn h0).le
  all_goals rfl

/-- Of two values of positive sign the lesser has the lesser magnitude code. -/
theorem lt_of_ltTotal_pos {p : FP} {m m' : Nat} (hm : p.hasInf = true → m ≤ p.inf)
    (hlt : ltTotal (codeVal p false m) (codeVal p false m') = true) : m < m' := by
  have hn : ∀ {m}, m ≠ 0 → ¬(p.magVal m).n < 0 := fun h => not_lt.mpr (magVal_n_pos p h).le
  rcases codeVal_cases p m with ⟨hc, h⟩ | ⟨hc, h⟩ | ⟨hc, h⟩ <;> rcases codeVal_cases p m' with ⟨hc', h'⟩ | ⟨hc', h'⟩ | ⟨hc', h'⟩ <;> rw [h, h'] at hlt
  case inr.inr.inr.inr => exact lt_of_magVal_lt hlt
  case inr.inl.inr.inr => omega
  case inr.inr.inr.inl => exact absurd (of_decide_eq_true hlt) (hn hc.2)
  case inr.inl.inl | inr.inr.inl =>
    -- Infinity has the greatest code.
    have hne : m ≠ p.inf := fun he => hc.1 ⟨hc'.1, he⟩
    have hle := hm hc'.1
    omega
  all_goals exact absurd hlt Bool.false_ne_true

theorem codeLt_of_ltTotal {p : FP} {s s' : Bool} {m m' : Nat} (hm : p.hasInf = true → m ≤ p.inf) (hm' : p.hasInf = true → m' ≤ p.inf)
    (h : ltTotal (codeVal p s m) (codeVal p s' m') = true) : CodeLt s m s' m' := by
  cases s <;> cases s'
  · exact .inr (.inl ⟨rfl, rfl, lt_of_ltTotal_pos hm h⟩)
  · rw [ltTotal_pos_neg] at h
    exact absurd h Bool.false_ne_true
  · exact .inl ⟨rfl, rfl⟩
  · rw [codeVal_true, codeVal_true, ltTotal_negFV (codeVal_not_nan ..) (codeVal_not_nan ..)] at h
    exact .inr (.inr ⟨rfl, rfl, lt_of_ltTotal_pos hm' h⟩)

/-! ### What a code reads as -/

/-- The parameters of a B8 variant that the reading of a code and its key rest on (R74 to R78). -/
theorem b8Params_spec (m : Byte) :
    (b8Params m).w = 8 ∧ (b8Params m).negZero = false
      ∧ if (b8Params m).signed = true then (b8Params m).nan = 0x80 ∧ (b8Params m).inf = 0x7F else (b8Params m).nan = 0xFF ∧ (b8Params m).inf = 0xFE := by
  unfold b8Params
  dsimp only
  split <;> exact ⟨rfl, rfl, rfl, rfl⟩

/-- Infinity in F16, BF16 and F32 is the code below the NaNs, and a NaN with all trailing bits is above it. -/
theorem isFlt_inf_lt {f : Fmt} (h : f.isFlt = true) (m : Byte) : (fparams f m).inf + 1 < 2 ^ (f.width - 1) := by
  obtain (rfl | rfl) | rfl : (f = .f16 ∨ f = .bf16) ∨ f = .f32 := by simpa [Fmt.isFlt] using h
  all_goals simp [fparams, Fmt.width]

section Reading

variable {p : FP} {x : DWord}

/-- With a negative zero and infinities, a magnitude beyond infinity is NaN and any other code is read by sign and magnitude. -/
theorem fread_of_negZero (hz : p.negZero = true) (hi : p.hasInf = true) :
    if p.inf < magAt p x then (fread p x).isNan = true else fread p x = codeVal p (signAt p x) (magAt p x) := by
  unfold fread codeVal
  simp only [hz, hi, if_true, true_and]
  split
  case isTrue h => exact (congrArg FV.isNan (if_pos h)).trans rfl
  case isFalse h => exact if_neg h

/-- Without a negative zero NaN is one code, and any other is read by sign and magnitude where zero has one code. -/
theorem fread_of_not_negZero (hz : p.negZero = false) (hsign : x.toNat % 2 ^ p.w ≠ p.nan → magAt p x = 0 → signAt p x = false) :
    if x.toNat % 2 ^ p.w = p.nan then (fread p x).isNan = true else fread p x = codeVal p (signAt p x) (magAt p x) := by
  unfold fread codeVal
  simp only [hz, Bool.false_eq_true, if_false, Bool.and_eq_true, decide_eq_true_eq]
  split
  case isTrue h => rfl
  case isFalse h =>
    have hs := hsign h
    unfold magAt signAt at *
    split_ifs with h1 h2
    all_goals simp_all

theorem isNan_iff_of_not_negZero (hz : p.negZero = false) (hsign : x.toNat % 2 ^ p.w ≠ p.nan → magAt p x = 0 → signAt p x = false) :
    (fread p x).isNan = true ↔ x.toNat % 2 ^ p.w = p.nan := by
  have hread := fread_of_not_negZero hz hsign
  split at hread
  case isTrue h => simp [hread, h]
  case isFalse h => simp [hread, h, codeVal_not_nan]

theorem code_of_signed (hs : p.signed = true) (hw : 0 < p.w) :
    x.toNat % 2 ^ p.w = (if signAt p x = true then 2 ^ (p.w - 1) else 0) + magAt p x ∧ magAt p x < 2 ^ (p.w - 1) := by
  have hpow : 2 ^ p.w = 2 * 2 ^ (p.w - 1) := (mul_pow_sub_one hw.ne' 2).symm
  have hpos : 0 < 2 ^ (p.w - 1) := by positivity
  have hlt : x.toNat % 2 ^ p.w < 2 ^ p.w := Nat.mod_lt _ (by positivity)
  unfold magAt signAt FP.magOf FP.signOf
  simp only [hs, if_true, Bool.true_and, decide_eq_true_eq]
  generalize x.toNat % 2 ^ p.w = n at *
  refine ⟨?_, Nat.mod_lt _ hpos⟩
  have hdiv : n / 2 ^ (p.w - 1) < 2 := (Nat.div_lt_iff_lt_mul hpos).mpr (by omega)
  have hn := Nat.div_add_mod n (2 ^ (p.w - 1))
  interval_cases n / 2 ^ (p.w - 1) <;> simp <;> omega

theorem code_of_unsigned (hs : p.signed = false) : signAt p x = false ∧ magAt p x = x.toNat % 2 ^ p.w := by
  simp [signAt, magAt, FP.signOf, FP.magOf, hs]

end Reading

/-! ### Keys of floats -/

section IsFlt

variable {f : Fmt} (hf : f.isFlt = true) (b8 : Byte) {x : DWord}
include hf

/-- A number of F16, BF16 or F32: how it is read, and its key by sign and magnitude. -/
theorem key_isFlt (h : (fread (fparams f b8) x).isNan = false) :
    fread (fparams f b8) x = codeVal (fparams f b8) (signAt (fparams f b8) x) (magAt (fparams f b8) x)
      ∧ magAt (fparams f b8) x ≤ (fparams f b8).inf
      ∧ (keyOf f b8 x).toNat = if signAt (fparams f b8) x = true then 2 ^ (f.width - 1) - 1 - magAt (fparams f b8) x
          else 2 ^ (f.width - 1) + magAt (fparams f b8) x := by
  obtain ⟨hs, hi⟩ := isFlt_signed hf b8
  obtain ⟨hz, hw⟩ := isFlt_negZero hf b8
  have hread := fread_of_negZero (x := x) hz hi
  obtain ⟨hcode, hmag⟩ := code_of_signed (x := x) hs (by rw [hw]; exact fmt_width_pos f)
  have hpow := two_pow_width f
  rw [hw] at hcode hmag
  rw [toNat_keyOf_isFlt b8 x hf, if_neg (by simp [h]), hcode]
  split at hread
  case isTrue => exact absurd hread (by simp [h])
  case isFalse hle =>
    refine ⟨hread, not_lt.mp hle, ?_⟩
    cases signAt (fparams f b8) x
    · simp [hmag, Nat.add_comm]
    · simp only [if_true]
      split <;> omega

theorem key_isFlt_lt {y : DWord} (hx : (fread (fparams f b8) x).isNan = false) (hy : (fread (fparams f b8) y).isNan = false)
    (hlt : ltTotal (fread (fparams f b8) x) (fread (fparams f b8) y) = true) : (keyOf f b8 x).toNat < (keyOf f b8 y).toNat := by
  obtain ⟨hrx, hmx, hkx⟩ := key_isFlt hf b8 hx
  obtain ⟨hry, hmy, hky⟩ := key_isFlt hf b8 hy
  have hinf := isFlt_inf_lt hf b8
  rw [hrx, hry] at hlt
  rw [hkx, hky]
  rcases codeLt_of_ltTotal (fun _ => hmx) (fun _ => hmy) hlt with ⟨h1, h2⟩ | ⟨h1, h2, h3⟩ | ⟨h1, h2, h3⟩
  all_goals
    rw [h1, h2]
    simp only [Bool.false_eq_true, if_true, if_false]
    omega

theorem key_isFlt_lt_nan {y : DWord} (hx : (fread (fparams f b8) x).isNan = true) (hy : (fread (fparams f b8) y).isNan = false) :
    (keyOf f b8 y).toNat < (keyOf f b8 x).toNat := by
  obtain ⟨_, hmy, hky⟩ := key_isFlt hf b8 hy
  have hinf := isFlt_inf_lt hf b8
  have hpow := two_pow_width f
  rw [hky, toNat_keyOf_isFlt b8 x hf, if_pos hx]
  split <;> omega

end IsFlt

section SignedB8

variable {b8 : Byte} (hs : (b8Params b8).signed = true)
include hs

/-- In a signed B8 variant a code is its sign and magnitude, and only NaN has a sign with the magnitude 0. -/
theorem code_b8_signed (x : DWord) :
    x.toNat % 2 ^ 8 = (if signAt (b8Params b8) x = true then 128 else 0) + magAt (b8Params b8) x ∧ magAt (b8Params b8) x < 128
      ∧ (x.toNat % 2 ^ 8 ≠ 128 → magAt (b8Params b8) x = 0 → signAt (b8Params b8) x = false) := by
  obtain ⟨hw, _⟩ := b8Params_spec b8
  obtain ⟨hcode, hmag⟩ := code_of_signed (x := x) hs (by omega)
  rw [hw] at hcode hmag
  refine ⟨hcode, hmag, fun hne h0 => ?_⟩
  by_contra hneg
  rw [eq_true_of_ne_false hneg, h0] at hcode
  exact hne hcode

theorem isNan_b8_signed (x : DWord) : (fread (b8Params b8) x).isNan = true ↔ x.toNat % 2 ^ 8 = 128 := by
  obtain ⟨hw, hz, hcodes⟩ := b8Params_spec b8
  rw [if_pos hs] at hcodes
  obtain ⟨_, _, hsign⟩ := code_b8_signed hs x
  have hiff := isNan_iff_of_not_negZero (x := x) hz
  rw [hw, hcodes.1] at hiff
  exact hiff hsign

/-- A number of a signed B8 variant: how it is read, and its key around that of zero. -/
theorem key_b8_signed {x : DWord} (h : (fread (b8Params b8) x).isNan = false) :
    fread (b8Params b8) x = codeVal (b8Params b8) (signAt (b8Params b8) x) (magAt (b8Params b8) x)
      ∧ magAt (b8Params b8) x ≤ (b8Params b8).inf ∧ (signAt (b8Params b8) x = true → magAt (b8Params b8) x ≠ 0) ∧ magAt (b8Params b8) x < 128
      ∧ (keyOf .b8 b8 x).toNat = if signAt (b8Params b8) x = true then 127 - magAt (b8Params b8) x else 127 + magAt (b8Params b8) x := by
  obtain ⟨hw, hz, hcodes⟩ := b8Params_spec b8
  rw [if_pos hs] at hcodes
  obtain ⟨hnan, hinf⟩ := hcodes
  obtain ⟨hcode, hmag, hsign⟩ := code_b8_signed hs x
  have hne : x.toNat % 2 ^ 8 ≠ 128 := fun he => by
    rw [(isNan_b8_signed hs x).mpr he] at h
    exact absurd h (by decide)
  have hread := fread_of_not_negZero (x := x) hz
  rw [hw, hnan, if_neg hne] at hread
  refine ⟨hread hsign, by omega, fun hneg h0 => ?_, hmag, ?_⟩
  · rw [hsign hne h0] at hneg
    exact absurd hneg (by decide)
  · rw [toNat_keyOf_b8_signed b8 x hs, if_neg hne]
    cases hneg : signAt (b8Params b8) x
    · rw [hneg] at hcode
      simp only [Bool.false_eq_true, if_false] at hcode ⊢
      rw [if_pos (by omega)]
      omega
    · rw [hneg] at hcode
      simp only [if_true] at hcode ⊢
      rw [if_neg (by omega)]
      omega

theorem key_b8_signed_lt {x y : DWord} (hx : (fread (b8Params b8) x).isNan = false) (hy : (fread (b8Params b8) y).isNan = false)
    (hlt : ltTotal (fread (b8Params b8) x) (fread (b8Params b8) y) = true) : (keyOf .b8 b8 x).toNat < (keyOf .b8 b8 y).toNat := by
  obtain ⟨hrx, hmx, hzx, hbx, hkx⟩ := key_b8_signed hs hx
  obtain ⟨hry, hmy, hzy, hby, hky⟩ := key_b8_signed hs hy
  rw [hrx, hry] at hlt
  rw [hkx, hky]
  rcases codeLt_of_ltTotal (fun _ => hmx) (fun _ => hmy) hlt with ⟨h1, h2⟩ | ⟨h1, h2, h3⟩ | ⟨h1, h2, h3⟩
  all_goals
    rw [h1] at hzx
    rw [h1, h2]
    simp only [Bool.false_eq_true, if_true, if_false]
  · have := hzx rfl
    omega
  · omega
  · omega

theorem key_b8_signed_lt_nan {x y : DWord} (hx : (fread (b8Params b8) x).isNan = true) (hy : (fread (b8Params b8) y).isNan = false) :
    (keyOf .b8 b8 y).toNat < (keyOf .b8 b8 x).toNat := by
  obtain ⟨_, _, _, hby, hky⟩ := key_b8_signed hs hy
  rw [hky, toNat_keyOf_b8_signed b8 x hs, if_pos ((isNan_b8_signed hs x).mp hx)]
  split <;> omega

end SignedB8

section UnsignedB8

variable {b8 : Byte} (hs : (b8Params b8).signed = false)
include hs

theorem code_b8_unsigned (x : DWord) : signAt (b8Params b8) x = false ∧ magAt (b8Params b8) x = x.toNat % 2 ^ 8 := by
  obtain ⟨hw, _⟩ := b8Params_spec b8
  have hcode := code_of_unsigned (x := x) hs
  rwa [hw] at hcode

theorem isNan_b8_unsigned (x : DWord) : (fread (b8Params b8) x).isNan = true ↔ x.toNat % 2 ^ 8 = 255 := by
  obtain ⟨hw, hz, hcodes⟩ := b8Params_spec b8
  rw [if_neg (by simp [hs])] at hcodes
  have hiff := isNan_iff_of_not_negZero (x := x) hz fun _ _ => (code_b8_unsigned hs x).1
  rwa [hw, hcodes.1] at hiff

/-- A number of an unsigned B8 variant: how it is read, and its code. -/
theorem key_b8_unsigned {x : DWord} (h : (fread (b8Params b8) x).isNan = false) :
    fread (b8Params b8) x = codeVal (b8Params b8) false (x.toNat % 2 ^ 8) ∧ x.toNat % 2 ^ 8 ≤ (b8Params b8).inf ∧ x.toNat % 2 ^ 8 < 255 := by
  obtain ⟨hw, hz, hcodes⟩ := b8Params_spec b8
  rw [if_neg (by simp [hs])] at hcodes
  obtain ⟨hnan, hinf⟩ := hcodes
  obtain ⟨hsign, hmag⟩ := code_b8_unsigned hs x
  have hne : x.toNat % 2 ^ 8 ≠ 255 := fun he => by
    rw [(isNan_b8_unsigned hs x).mpr he] at h
    exact absurd h (by decide)
  have hread := fread_of_not_negZero (x := x) hz fun _ _ => hsign
  rw [hw, hnan, if_neg hne, hsign, hmag] at hread
  exact ⟨hread, by omega, by omega⟩

theorem key_b8_unsigned_lt {x y : DWord} (hx : (fread (b8Params b8) x).isNan = false) (hy : (fread (b8Params b8) y).isNan = false)
    (hlt : ltTotal (fread (b8Params b8) x) (fread (b8Params b8) y) = true) : (keyOf .b8 b8 x).toNat < (keyOf .b8 b8 y).toNat := by
  obtain ⟨hrx, hmx, _⟩ := key_b8_unsigned hs hx
  obtain ⟨hry, _, _⟩ := key_b8_unsigned hs hy
  rw [hrx, hry] at hlt
  rw [toNat_keyOf_b8_unsigned b8 x hs, toNat_keyOf_b8_unsigned b8 y hs]
  exact lt_of_ltTotal_pos (fun _ => hmx) hlt

theorem key_b8_unsigned_lt_nan {x y : DWord} (hx : (fread (b8Params b8) x).isNan = true) (hy : (fread (b8Params b8) y).isNan = false) :
    (keyOf .b8 b8 y).toNat < (keyOf .b8 b8 x).toNat := by
  obtain ⟨_, _, hlt⟩ := key_b8_unsigned hs hy
  rwa [toNat_keyOf_b8_unsigned b8 x hs, toNat_keyOf_b8_unsigned b8 y hs, (isNan_b8_unsigned hs x).mp hx]

end UnsignedB8

/-! ### The forms -/

theorem isFlt_or_b8 {f : Fmt} (h : f.isFltB = true) : f.isFlt = true ∨ f = .b8 := by simpa [Fmt.isFltB] using h

theorem keyOf_lt_of_ltTotal {f : Fmt} (hf : f.isFltB = true) (b8 : Byte) {x y : DWord} (hx : (fread (fparams f b8) x).isNan = false)
    (hy : (fread (fparams f b8) y).isNan = false) (hlt : ltTotal (fread (fparams f b8) x) (fread (fparams f b8) y) = true) :
    (keyOf f b8 x).toNat < (keyOf f b8 y).toNat := by
  rcases isFlt_or_b8 hf with hf | rfl
  · exact key_isFlt_lt hf b8 hx hy hlt
  · cases hs : (b8Params b8).signed with
    | true => exact key_b8_signed_lt hs hx hy hlt
    | false => exact key_b8_unsigned_lt hs hx hy hlt

theorem keyOf_lt_of_isNan {f : Fmt} (hf : f.isFltB = true) (b8 : Byte) {x y : DWord} (hx : (fread (fparams f b8) x).isNan = true)
    (hy : (fread (fparams f b8) y).isNan = false) : (keyOf f b8 y).toNat < (keyOf f b8 x).toNat := by
  rcases isFlt_or_b8 hf with hf | rfl
  · exact key_isFlt_lt_nan hf b8 hx hy
  · cases hs : (b8Params b8).signed with
    | true => exact key_b8_signed_lt_nan hs hx hy
    | false => exact key_b8_unsigned_lt_nan hs hx hy

/-- Settles O8: QUANT converts its exact product, and a key is the code counted up from the least value. -/
theorem quantAndKeys : Obligations.QuantAndKeys := by
  unfold Obligations.QuantAndKeys
  exact ⟨⟨laneOpSR_quant FCtx.cvtMode, laneOpSR_quant fun _ => .rne, laneOpSR_quant fun _ => .sr, laneOp_keyx⟩,
    fun _ b8 _ _ hf h => keyOf_lt_of_readInt_lt b8 hf h, fun _ b8 _ _ hf hx hy h => keyOf_lt_of_ltTotal hf b8 hx hy h,
    fun _ b8 _ _ hf hx hy => keyOf_lt_of_isNan hf b8 hx hy⟩

end Sys2Proof.Laws.Keys

/-! ## Proofs: probes, TWIT and FIXQ (R277, R281, R284, R285) -/

namespace Sys2Proof.Laws.Probes

open Sys2Proof Sys2Proof.Machine

/-! ### A relation form from issue to its end -/

section RelationForm

variable {c : FCtx} {body : FCtx → Except Stop Res}

theorem relForm_of_fresh (h : Fresh c) : c.relForm body = body c := if_neg h

theorem relForm_of_discarded (h : c.s.note = 10) : c.relForm body = c.emits (zeroOuts c.pend) := if_pos h

theorem target_eq {r : Rel} (h : TargetIs c r) : c.target = .ok r := by
  obtain ⟨_, hno, hrel⟩ := h
  rw [FCtx.target, hno, hrel]

/-- A scalar firing of N32 takes its a operand as a reference (R273). -/
theorem takes_reference (hvec : c.vec = false) (hfin : c.fin = 6) : ¬(c.vec = true ∨ c.fin ≠ 6) := by simp [hvec, hfin]

/-- Without a grant to wait for, a form's work starts at issue. -/
theorem begin_eq (h : c.granted = false) (p : Pend) : c.begin p = .ok (Res.of (c.f.postAll (startEvents c.f c.el p)) 0 [] (some p)) := by
  simp [FCtx.begin, FCtx.engineWait, h]

/-- Tokens for the two destinations of a clear firing take no exit and no route. -/
theorem plain_of_dst {outs : List Out} (h : Clear c) (ho : ∀ o ∈ outs, (o.dst = c.d ∨ o.dst = c.e) ∧ o.pool = false) :
    ∀ o ∈ outs, plainDst c o.dst = true ∧ o.pool = false := by
  obtain ⟨_, _, _, _, _, hd, he⟩ := h
  intro o hmem
  obtain ⟨hdst, hpool⟩ := ho o hmem
  exact ⟨by rcases hdst with hdst | hdst <;> rwa [hdst], hpool⟩

end RelationForm

section Forms

variable {op : Nat} {mk : BitVec 5 → BitVec 5 → BitVec 5 → BitVec 5 → BitVec 4 → Instr} {P : FCtx → Prop}
  {body : FCtx → Except Stop Res}

/-- A relation form that only emits: its tokens leave at once, and the fabric is as it was. -/
theorem sendOp_of_relForm {R : FCtx → Fabric → Flags → List Out → Prop} (outs : FCtx → List Out)
    (hb : ∀ c, c.op = op → P c → c.relForm body = c.emits (outs c)) (hR : ∀ c, P c → R c c.f 0 (outs c))
    (hdst : ∀ c, ∀ o ∈ outs c, (o.dst = c.d ∨ o.dst = c.e) ∧ o.pool = false)
    (hop : 0x7A < op ∧ op ≠ 0xEA := by decide)
    (hx : ∀ a b d e t s, exec (mk a b d e t) s = fire op a b d e t (FCtx.relForm body) s := by intros; rfl) : SendOp op mk P R := by
  intro s a b d e t hready hP
  refine ⟨_, 0, _, hR _ hP, ?_⟩
  exact sends_of _ (hx a b d e t s) hready (.inr hop.1) (.inl hop.2) (hb _ rfl hP) rfl rfl (keeps_self s op a b d e t)
    (plain_of_dst hready.1 (hdst _))

/-- A relation form whose set DISCARD answered sends its zero answers (R285). -/
theorem discards_of_zeroOuts (outs : FCtx → List Out) (hz : ∀ c, c.op = op → zeroOuts c.pend = outs c)
    (hdst : ∀ c, ∀ o ∈ outs c, (o.dst = c.d ∨ o.dst = c.e) ∧ o.pool = false)
    (hop : 0x7A < op ∧ op ≠ 0xEA := by decide)
    (hx : ∀ a b d e t s, exec (mk a b d e t) s = fire op a b d e t (FCtx.relForm body) s := by intros; rfl) : Discards op mk outs :=
  sendOp_of_relForm outs (fun c hc hnote => (relForm_of_discarded hnote).trans (congrArg c.emits (hz c hc))) (fun _ _ => ⟨rfl, rfl, rfl⟩) hdst hop hx

/-- A relation form that begins its work waits with its record, and its first events leave. -/
theorem waitOp_of_begin {evs : FCtx → List Ev} {n : Nat} {R : FCtx → Pend → Prop} (q : FCtx → Pend)
    (hb : ∀ c, P c → c.relForm body = c.begin (q c)) (hrec : ∀ c, c.op = op → P c → RecordOf c n (q c)) (hR : ∀ c, P c → R c (q c))
    (hev : ∀ c, c.op = op → P c → startEvents c.f c.el (q c) = evs c)
    (hx : ∀ a b d e t s, exec (mk a b d e t) s = fire op a b d e t (FCtx.relForm body) s := by intros; rfl) : WaitOp op mk P evs n R := by
  intro s a b d e t hready hplace hP
  have hbody := ((hb _ hP).trans (begin_eq hready.2 _)).trans (by rw [hev _ rfl hP])
  refine ⟨_, hrec _ rfl hP, hR _ hP, ?_⟩
  unfold Waits
  rw [hx, fire_ok op a b d e t _ s _ hready.1.1 hbody, finish_waits _ _ _ hready.1 rfl hplace rfl (.inl rfl) rfl]
  rfl

end Forms

/-! ### The record that goes to a key's home -/

/-- The record of a form that asks at a home about the tuple its a operand names. -/
def homeRec (c : FCtx) (r : Rel) (args : List DWord) : Pend :=
  { c.pend with left := 1, base := r.no, a := w64 (fld (c.va 0) 31 0), args := args }

/-- The forms that go to a key's home: the probes, TNOT, and TWIT where the access table turns it away. -/
def GoesHome (op : Nat) : Prop := op ∈ [0xCB, 0xCC, 0xCD, 0xCE, 0xD5]

theorem recordOf_homeRec {c : FCtx} (hop : GoesHome c.op) (r : Rel) (args : List DWord) : RecordOf c 1 (homeRec c r args) := by
  have hstore : ∀ op ∈ [0xCB, 0xCC, 0xCD, 0xCE, 0xD5], isStoreForm op = false := by decide
  exact ⟨rfl, rfl, rfl, rfl, rfl, rfl, rfl, rfl, rfl, rfl, rfl, (hstore _ hop).symm⟩

theorem startEvents_homeRec {c : FCtx} (hop : GoesHome c.op) (r : Rel) (args : List DWord) :
    startEvents c.f c.el (homeRec c r args) = [.probeAtHome c.el c.id] := by
  have hrec : (homeRec c r args).op = c.op := rfl
  simp only [GoesHome, List.mem_cons, List.not_mem_nil, or_false] at hop
  unfold startEvents
  rw [hrec]
  rcases hop with h | h | h | h | h <;> rw [h] <;> rfl

/-- A form that goes to a key's home waits there for one answer. -/
theorem waitOp_of_homeRec {op : Nat} {mk : BitVec 5 → BitVec 5 → BitVec 5 → BitVec 5 → BitVec 4 → Instr} {P : FCtx → Prop}
    {body : FCtx → Except Stop Res} {R : FCtx → Pend → Prop} (hop : GoesHome op) (r : Rel) (args : FCtx → List DWord)
    (hb : ∀ c, P c → c.relForm body = c.begin (homeRec c r (args c))) (hR : ∀ c, P c → R c (homeRec c r (args c)))
    (hx : ∀ a b d e t s, exec (mk a b d e t) s = fire op a b d e t (FCtx.relForm body) s := by intros; rfl) :
    WaitOp op mk P (fun c => [.probeAtHome c.el c.id]) 1 R :=
  waitOp_of_begin _ hb (fun _ hc _ => recordOf_homeRec (hc ▸ hop) r _) hR (fun _ hc _ => startEvents_homeRec (hc ▸ hop) r _) hx

/-! ### Probes (R277) -/

/-- The columns a probe selects: the key's, or for TNOT every one. -/
def probeCols (neg : Bool) (r : Rel) : List Nat := if neg then List.range r.arity else r.keyCols

/-- The selectors of a probe for n columns. -/
def probeSels (c : FCtx) (n : Nat) : List Nat := (List.range n).map (probeSel c)

theorem probeForm_eq {c : FCtx} {r : Rel} (neg : Bool) (ht : TargetIs c r) (hvec : c.vec = false) (hfin : c.fin = 6)
    (hsel : ∀ k < (probeCols neg r).length, probeSel c k < 4) :
    probeForm neg c = c.begin (homeRec c r ((probeSels c (probeCols neg r).length).map w64)) := by
  have hbad : (probeSels c (probeCols neg r).length).any (4 ≤ ·) = false := by
    simpa [probeSels] using hsel
  unfold probeForm
  rw [target_eq ht]
  exact (if_neg (takes_reference hvec hfin)).trans (if_neg (ne_true_of_eq_false hbad))

theorem waitOp_probe {op : Nat} {mk : BitVec 5 → BitVec 5 → BitVec 5 → BitVec 5 → BitVec 4 → Instr} (hop : GoesHome op) (neg : Bool) (r : Rel)
    (hx : ∀ a b d e t s, exec (mk a b d e t) s = fire op a b d e t (FCtx.relForm (probeForm neg)) s := by intros; rfl) :
    WaitOp op mk (fun c => TargetIs c r ∧ c.vec = false ∧ c.fin = 6 ∧ ∀ k, k < (probeCols neg r).length → probeSel c k < 4)
      (fun c => [.probeAtHome c.el c.id]) 1 (fun c p => p.base = r.no ∧ p.a = w64 (fld (c.va 0) 31 0)
        ∧ p.args = (List.range (probeCols neg r).length).map fun k => w64 (probeSel c k)) := by
  refine waitOp_of_homeRec hop r (fun c => (probeSels c (probeCols neg r).length).map w64) ?_ ?_ hx
  · rintro c ⟨ht, hvec, hfin, hsel⟩
    exact (relForm_of_fresh ht.1).trans (probeForm_eq neg ht hvec hfin hsel)
  · rintro c -
    exact ⟨rfl, rfl, List.map_map⟩

/-! ### TWIT (R284) -/

/-- What TWIT sends of an entry: its witness, its status and weight; all ones and 0 of an entry not in use. -/
def twitOuts (c : FCtx) (x : Ent) : List Out :=
  if x.used then [c.scalar c.d true x.wit, c.scalar c.e true (w64 (x.st.toNat * 2 ^ 32 + x.wt.toNat))]
  else [c.scalar c.d true 0xFFFFFFFFFFFFFFFF, c.scalar c.e true 0]

theorem twitOuts_dst (c : FCtx) (x : Ent) : ∀ o ∈ twitOuts c x, (o.dst = c.d ∨ o.dst = c.e) ∧ o.pool = false := by
  unfold twitOuts
  split <;> simp [FCtx.scalar]

theorem twitWords_eq (c : FCtx) (x : Ent) : ((twitWords x).zip [c.d, c.e]).map (fun y => c.scalar y.2 true y.1) = twitOuts c x := by
  unfold twitWords twitOuts
  split <;> rfl

section Twit

variable {c : FCtx} {r : Rel} (ht : TargetIs c r) (hvec : c.vec = false) (hfin : c.fin = 6)
include ht hvec hfin

/-- A home that is open to the issuer is read at issue. -/
theorem twitForm_of_open (hmay : c.f.refMay c.el c.pend (fld (c.va 0) 31 0) = true) :
    twitForm c = c.emits (twitOuts c (c.f.entOf c.part (fld (c.va 0) 31 0))) := by
  unfold twitForm
  rw [target_eq ht, ← twitWords_eq]
  exact (if_neg (takes_reference hvec hfin)).trans (if_neg (by simp [hmay]))

/-- A home whose access table turns the issuer away is asked. -/
theorem twitForm_of_closed (hmay : c.f.refMay c.el c.pend (fld (c.va 0) 31 0) = false) : twitForm c = c.begin (homeRec c r []) := by
  unfold twitForm
  rw [target_eq ht]
  exact (if_neg (takes_reference hvec hfin)).trans (if_pos (by simp [hmay]))

end Twit

/-! ### FIXQ (R281) -/

theorem lineMine_of_lineIn {f : Fabric} {el n mode : Nat} (h : LineIn f el n mode) : f.lineMine el n = true := by
  obtain ⟨hv, hpart, _⟩ := h
  simp [Fabric.lineMine, hv, hpart]

/-- Two QUIET lines of the partition, the second at rest, raise no fault. -/
theorem fixqFault_none {f : Fabric} {el : Nat} {ctl : Word} (hq : LineIn f el (fld ctl 5 0) 1) (hk : LineIn f el (fld ctl 13 8) 1)
    (hne : fld ctl 13 8 ≠ fld ctl 5 0) (hrun : (f.root (fld ctl 13 8)).running = false) : f.fixqFault el ctl = none := by
  have hmine := lineMine_of_lineIn hq
  have hmine' := lineMine_of_lineIn hk
  obtain ⟨_, _, hmode⟩ := hq
  obtain ⟨_, _, hmode'⟩ := hk
  simp [Fabric.fixqFault, Fabric.lineQuiet, hmine, hmine', hmode, hmode', hne, hrun]

theorem fixqForm_of_result {c : FCtx} (h : c.s.note = 6) : fixqForm c = c.emits [c.scalar c.d true c.s.arg, ordTok c.e c.fout false 0] := if_pos h

theorem fixqForm_of_no_fault {c : FCtx} (h : c.s.note ≠ 6) (hf : c.f.fixqFault c.el c.control = none) :
    fixqForm c = .error (.hold (c.f.startWaves (fld c.control 5 0)) { c.s with note := 1, arg := 0 } .lode (fld c.control 5 0)) := by
  rw [fixqForm, if_neg h, hf]
  rfl

/-! ### The zero answers (R285) -/

section ZeroAnswers

variable {c : FCtx}

theorem zeroOuts_probe (h : c.op = 0xCB ∨ c.op = 0xCC ∨ c.op = 0xCD) : zeroOuts c.pend = [c.scalar c.e true 0] := by
  have hop : c.pend.op = c.op := rfl
  rw [zeroOuts, hop, if_neg (by omega), if_neg (by omega), if_pos (by omega)]
  rfl

theorem zeroOuts_both (h : c.op = 0xCE ∨ c.op = 0xD5) : zeroOuts c.pend = [c.scalar c.d true 0, c.scalar c.e true 0] := by
  have hop : c.pend.op = c.op := rfl
  rw [zeroOuts, hop, if_neg (by omega), if_neg (by omega), if_neg (by omega), if_pos (by omega)]
  rfl

theorem zeroOuts_fixq (h : c.op = 0xD0) : zeroOuts c.pend = [c.scalar c.d true 0, ordTok c.e c.fout false 0] := by
  have hop : c.pend.op = c.op := rfl
  rw [zeroOuts, hop, if_neg (by omega), if_neg (by omega), if_neg (by omega), if_neg (by omega), if_neg (by omega)]
  rfl

end ZeroAnswers

/-! ### The statement -/

theorem sendOp_twit (r : Rel) : SendOp 0xD5 Instr.twit
    (fun c => TargetIs c r ∧ c.vec = false ∧ c.fin = 6 ∧ c.f.refMay c.el c.pend (fld (c.va 0) 31 0) = true)
    (fun c f fl outs => f = c.f ∧ fl = 0 ∧ outs = twitOuts c (c.f.entOf c.part (fld (c.va 0) 31 0))) := by
  refine sendOp_of_relForm _ ?_ (fun _ _ => ⟨rfl, rfl, rfl⟩) fun c => twitOuts_dst c _
  rintro c - ⟨ht, hvec, hfin, hmay⟩
  exact (relForm_of_fresh ht.1).trans (twitForm_of_open ht hvec hfin hmay)

theorem waitOp_twit (r : Rel) : WaitOp 0xD5 Instr.twit
    (fun c => TargetIs c r ∧ c.vec = false ∧ c.fin = 6 ∧ c.f.refMay c.el c.pend (fld (c.va 0) 31 0) = false)
    (fun c => [.probeAtHome c.el c.id]) 1 (fun c p => p.base = r.no ∧ p.a = w64 (fld (c.va 0) 31 0)) := by
  refine waitOp_of_homeRec (by simp [GoesHome]) r (fun _ => []) ?_ fun _ _ => ⟨rfl, rfl⟩
  rintro c ⟨ht, hvec, hfin, hmay⟩
  exact (relForm_of_fresh ht.1).trans (twitForm_of_closed ht hvec hfin hmay)

theorem sendOp_fixq : SendOp 0xD0 Instr.fixq (fun c => c.s.note = 6)
    (fun c f fl outs => f = c.f ∧ fl = 0 ∧ outs = [c.scalar c.d true c.s.arg, ordTok c.e c.fout false 0]) := by
  refine sendOp_of_relForm _ (fun c _ h => ?_) (fun _ _ => ⟨rfl, rfl, rfl⟩) fun c => by simp [FCtx.scalar, ordTok]
  exact (relForm_of_fresh (by simp [Fresh, h])).trans (fixqForm_of_result h)

/-- Settles O27: a probe, and a TWIT turned away, begins its work with one record that goes to the home; every other case sends at once or,
for FIXQ, parks. -/
theorem probesAndPasses : Obligations.ProbesAndPasses := by
  unfold Obligations.ProbesAndPasses
  refine ⟨?probes, fun r => ?tnot, sendOp_twit, waitOp_twit, ?fixqWaits, sendOp_fixq, ?probesDiscarded, ?pairDiscarded, ?fixqDiscarded⟩
  case probes =>
    simp only [List.mem_cons, Prod.mk.injEq, List.not_mem_nil, or_false]
    rintro op mk (⟨rfl, rfl⟩ | ⟨rfl, rfl⟩ | ⟨rfl, rfl⟩) r <;> exact waitOp_probe (by simp [GoesHome]) false r
  case tnot =>
    simpa [probeCols] using waitOp_probe (mk := Instr.tnot) (op := 0xCE) (by simp [GoesHome]) true r
  case fixqWaits =>
    intro s a b d e t hstops c q k hq hk hne hrun hnote hfresh
    have hform := (relForm_of_fresh hfresh).trans (fixqForm_of_no_fault hnote (fixqFault_none hq hk hne hrun))
    exact fire_error 0xD0 a b d e t (FCtx.relForm fixqForm) s _ hstops hform
  case probesDiscarded =>
    simp only [List.mem_cons, Prod.mk.injEq, List.not_mem_nil, or_false]
    rintro op mk (⟨rfl, rfl⟩ | ⟨rfl, rfl⟩ | ⟨rfl, rfl⟩) <;>
      exact discards_of_zeroOuts _ (fun _ hc => zeroOuts_probe (by simp [hc])) (by simp [FCtx.scalar])
  case pairDiscarded =>
    simp only [List.mem_cons, Prod.mk.injEq, List.not_mem_nil, or_false]
    rintro op mk (⟨rfl, rfl⟩ | ⟨rfl, rfl⟩) <;>
      exact discards_of_zeroOuts _ (fun _ hc => zeroOuts_both (by simp [hc])) (by simp [FCtx.scalar])
  case fixqDiscarded =>
    exact discards_of_zeroOuts _ (fun _ hc => zeroOuts_fixq hc) (by simp [FCtx.scalar, ordTok])

end Sys2Proof.Laws.Probes
